-- ==== Sys2Proof/Word.lean ====
section
/-! DEFINITION. Word types of the model and their plainest arithmetic. -/

namespace Sys2Proof

/-- A byte. -/
abbrev Byte := BitVec 8

/-- A control register's 64-bit value (R5), and any 64-bit quantity software sees as a word. -/
abbrev Word64 := BitVec 64

/-- An engine instruction word or general register (R326, R353). -/
abbrev Word32 := BitVec 32

/-- Bits `lo .. lo + w - 1` of a number. -/
def bits (n lo w : Nat) : Nat := n / 2 ^ lo % 2 ^ w

end Sys2Proof
end

