-- ==== Sys2Proof/Syntax.lean ====
section
/-! DEFINITION. The commands of the device: one constructor per row of spec/opcode_table.json, with its operands. What an
operand says of the outside world (what a wire delivered, whether a signature verifies) is a fact of the outside that the command brings. Log entries: DEDUCED 97. -/

namespace Sys2Proof

/-- Who makes a register access: a host function through its BAR0 (R125, R456), the Leash session (R545), or any other
initiator of the network on chip (R125). -/
inductive Writer where
  | fn (n : Fin 64)
  | leash
  | other
  deriving DecidableEq, Repr

/-- The ring entry that carries a host command: the function whose ring it is, the `cmd_id` of R459 and its `irq` flag. -/
structure HostCmd where
  fn : Fin 64
  cmdId : Nat
  irq : Bool
  deriving DecidableEq, Repr

/-- PTP message types the servo takes (R47): an Announce that the profile's best master clock rules select as master or not, a Sync
(two-step or not), a Follow_Up, a Delay_Resp. -/
inductive PtpKind where
  | announce (best : Bool)
  | sync (twoStep : Bool)
  | followUp
  | delayResp
  deriving DecidableEq, Repr

/-- A PTP message as it arrived: port group, version, domain, whether its length fits its type, source port, sequence id, and the
offset from the master that its timestamps measure, in 2^-16 ns. -/
structure PtpMsg where
  kind : PtpKind
  port : Fin 24
  version : Nat
  domain : Nat
  lenOk : Bool
  srcPort : Nat
  seqId : Nat
  offset : Int
  deriving DecidableEq, Repr

/-- Events of a cadence generator (R54). -/
inductive CgEvent where
  | frame | field | line (n : Nat) | switch (second : Bool) | user
  deriving DecidableEq, Repr

/-- Where TXN_STREAM finds its stream (R126): host memory, an image slot, or an offset in the region-image area. -/
inductive StreamSrc where
  | host (addr : Word64)
  | slot (n : Fin 256)
  | area (off : BitVec 32)
  deriving DecidableEq, Repr

/-- The placement parameters of TXN_STREAM for a `kind` 2 image (R126), with what the controller finds of the image's global nets and border
cells when it checks details 5 and 6 of R139. -/
structure PlaceReq where
  die : BitVec 8
  rgn : BitVec 8
  colOff : BitVec 32
  vacate : Bool
  netsOk : Bool
  portsOk : Bool
  deriving DecidableEq, Repr

/-- What scrub finds in a frame (R144): no error, errors it corrected, or errors it cannot correct. -/
inductive ScrubFound where
  | clean | corrected | bad
  deriving DecidableEq, Repr

/-- The source that a rebuilt frame was read from (R145). -/
inductive RebuildSrc where
  | otherPlane
  | regionImage (words : List Word64)
  | imageSlot (words : List Word64)
  | none
  deriving DecidableEq, Repr

/-- A commit or mode trigger (R126, R579): a house-time instant (seconds [31:0] and nanoseconds), or an event of a cadence
generator: base die, generator, event (1 frame start, 2 field start, 3 line start, 4 switch point, 5 user event are the
names of R54; the number is the position in that list). -/
inductive Trigger where
  | instant (sec : Nat) (ns : Nat)
  | cadence (die gen event : Nat)
  deriving DecidableEq, Repr

/-- What a crossing bundle's checks found (R196): a shadow mismatch on wire k (0 to 31), or parity errors with no shadow mismatch over
two rotations, which point at the check wire. -/
inductive BundleErr where
  | wire (k : Fin 32)
  | checkWire
  deriving DecidableEq, Repr

/-- A cord (R181): CD000 to CD639, or a light cord LC00 to LC31. -/
inductive CordId where
  | cord (k : Fin 640)
  | light (k : Fin 32)
  deriving DecidableEq, Repr

/-- A link that exchanges capability records (R198): a cord, or far-mode group g of base die b (R200). -/
inductive LinkId where
  | cord (c : CordId)
  | far (b : Fin 4) (g : Fin 2)
  deriving DecidableEq, Repr

/-- A flit as a cord slot carries it: sequence (mod 64), virtual channel, tail, the number of the packet it belongs to, and whether that packet
is a line unit of a slot of a twin pair (R192). -/
structure CordFlit where
  seq : Fin 64
  vc : Fin 4
  tail : Bool
  pkt : Nat
  twin : Bool
  deriving DecidableEq, Repr

/-- A far frame's type (R200), with what it carries: a flit (sequence in the frame, source and destination endpoint), idle, a capability
record of 64 bytes, or control with its command. -/
inductive FarKind where
  | flit (seq : Fin 4096) (vc : Fin 4) (tail : Bool) (src dst : Nat)
  | idle
  | capability (bytes : List Byte)
  | control (cmd : Fin 4)
  deriving DecidableEq, Repr

/-- A far frame as received: whether its CRC-32 holds, its type, and the link word's credit, NAK and acknowledge fields. -/
structure FarFrame where
  crcOk : Bool
  kind : FarKind
  credit : Option (Fin 4)
  nak : Bool
  ack : Nat
  deriving DecidableEq, Repr

/-- A packet on the network on chip (R209, R210): a number that tells packets apart (the model's own), the sideband fields, the header
fields, whether some bit that must be 0 is set, and the payload in 64-bit words. -/
structure NocPkt where
  id : Nat
  op : Fin 16
  vc : Fin 4
  len : Fin 32
  rdLen : Fin 32
  tag : BitVec 12
  code : Fin 8
  full : Bool
  addr : BitVec 63
  be : BitVec 128
  dst : BitVec 12
  src : BitVec 12
  epoch : Bool
  birth : Fin 16
  poison : Bool
  resv : Bool
  data : List Word64
  deriving DecidableEq, Repr

/-- What the design behind an access point answers as a target (R175): a response code and read data. -/
structure ApAnswer where
  code : Fin 8
  data : List Word64
  deriving DecidableEq, Repr

/-- A domain that leaves service (R225): a base die, a fabric die, a region of a fabric die, a pack, a lane group of a base die, an HBM
stack, a far-mode group. -/
inductive Dom where
  | base (b : Fin 4)
  | fabric (f : Fin 12)
  | region (f : Fin 12) (n : Fin 64)
  | pack (p : Fin 32)
  | lanes (b : Fin 4) (g : Fin 8)
  | stack (k : Fin 8)
  | far (b : Fin 4) (g : Fin 2)
  deriving DecidableEq, Repr

/-- A fragment of a line unit (R231, R232): its header fields, whether some bit that must be 0 is set, and its payload. -/
structure LineFrag where
  seq : BitVec 32
  slot : Fin 4096
  frag : Fin 256
  first : Bool
  last : Bool
  kind : Fin 8
  copyB : Bool
  rpt : Bool
  resv : Bool
  line : BitVec 16
  frame : BitVec 16
  bytes : Fin 2048
  depart : BitVec 16
  data : List Byte
  deriving DecidableEq, Repr

/-- A line unit as a fabric source port offers it (R233): the header fields its user writes, whether another header bit is set, and its payload. -/
structure FabUnit where
  seq : BitVec 32
  kind : Fin 8
  line : BitVec 16
  frame : BitVec 16
  other : Bool
  data : List Byte
  deriving DecidableEq, Repr

/-- How a store read came back from the network (R253): as memory answers, or failed on the way. -/
inductive ReadFate where
  | served
  | timedOut
  | faulted
  deriving DecidableEq, Repr


/-- What the receiver found of a billet that carries a lane sequence number (R266, R269): whether its `check` holds, stuffing violations, `seq`. -/
structure BilletIn where
  checkOk : Bool
  stuff : Fin 65536
  seq : Fin 64
  deriving DecidableEq, Repr

/-- One lane's byte of an ACK billet (R267): next sequence expected, NAK, lane down. -/
structure AckByte where
  next : Fin 64
  nak : Bool
  down : Bool
  deriving DecidableEq, Repr

/-- A RESTRIPE billet's payload (R267): whether its CRC-32 holds, the new mask, the replay count, the link position of the first new billet. -/
structure RestripeIn where
  crcOk : Bool
  mask : BitVec 16
  count : Fin 65536
  pos : Fin 65536
  deriving DecidableEq, Repr

/-- A 512-bit user word of a native link (R267) or a fabric stream port. -/
abbrev UserWord := BitVec 512


/-- A line as a receive SDI channel sees it (R297 to R300): TRS found, line number in sequence, CRC holds; its line number; whether it is line 1 of a
frame; the payload ID carried on it; the index of its active line in the frame with its samples; the field's ANC packets, when the field ends here;
lines per frame and interlace as measured. -/
structure SdiLine where
  trsOk : Bool
  numOk : Bool
  crcOk : Bool
  line : Fin 8192
  frameStart : Bool
  pid : Option (BitVec 32)
  active : Option (Nat × List Byte)
  anc : Option (Fin 2 × List Byte)
  lines : Fin 8192
  interlaced : Bool
  deriving DecidableEq, Repr

/-- A MACsec tag and what its check found (R310): SCI, association, ICV holds, packet number. -/
structure SecTag where
  sci : BitVec 64
  an : Fin 4
  icvOk : Bool
  pn : BitVec 64
  deriving DecidableEq, Repr

/-- A row segment of an ST 2110-20 packet (R304): row, second field, byte offset in the row, samples; whether it lies inside the raster and on a pgroup. -/
structure Srd where
  row : Nat
  field2 : Bool
  offset : Nat
  data : List Byte
  inRaster : Bool
  deriving DecidableEq, Repr

/-- An RTP packet (R304 to R306): version, payload type, SSRC, extended sequence number, timestamp, and its content: row segments, or a payload with its
index within its frame or its field. -/
structure RtpPkt where
  version : Fin 4
  pt : Fin 128
  ssrc : BitVec 32
  ext : BitVec 32
  ts : BitVec 32
  srds : List Srd
  index : Nat
  payload : List Byte
  deriving DecidableEq, Repr

/-- A UDP packet over IPv4 (R303, R304). -/
structure UdpPkt where
  hdrOk : Bool
  fragment : Bool
  options : Bool
  dst : BitVec 32
  port : BitVec 16
  src : BitVec 32
  rtp : RtpPkt
  deriving DecidableEq, Repr

/-- What a received Ethernet frame holds (R303). -/
inductive EthKind where
  | pause
  | udp (u : UdpPkt)
  | ptp (m : PtpMsg)
  | eapol
  | other (forMac : Bool)
  deriving DecidableEq, Repr

/-- A received Ethernet frame (R303, R310). -/
structure EthFrame where
  fcsOk : Bool
  size : Nat
  tags : Nat
  vid : Fin 4096
  sec : Option SecTag
  kind : EthKind
  deriving DecidableEq, Repr


/-- A local memory operand of format M (R356, R360): address register, mode, offset. -/
structure MemOp where
  k : Fin 8
  am : Fin 4
  off : BitVec 13
  deriving DecidableEq, Repr

/-- The fields of format P (R356): accumulator, X operand (register i, mode `mi`), Y operand (register j, mode `mj`), and its flags. -/
structure MacP where
  a : Fin 4
  i : Fin 8
  mi : Fin 4
  j : Fin 8
  mj : Fin 4
  sub : Bool
  clr : Bool
  bcx : Bool
  bcy : Bool
  ux : Bool
  uy : Bool
  deriving DecidableEq, Repr

/-- The fields of format Q (R356). -/
structure MacQ where
  a : Fin 4
  s : Fin 32
  t : Fin 32
  sub : Bool
  clr : Bool
  bcx : Bool
  bcy : Bool
  ux : Bool
  uy : Bool
  deriving DecidableEq, Repr


/-- Where key material comes from (R465): wrapped in the command, with the key that it unwraps to or none when the wrap's integrity check
fails; or a key buffer. -/
inductive KeySrc where
  | wrapped (key : Option Nat)
  | buffer (n : Fin 8)
  deriving DecidableEq, Repr

/-- What a patrol read finds (R417). -/
inductive PatrolResult where
  | clean | corrected | uncorrectable
  deriving DecidableEq, Repr

/-- What IMAGE_FW_STAGE finds in the firmware image that the host delivers (R472): its version and svn, what stands for its content, whether its signature
verifies, and whether its journal format is the running one's. -/
structure FwImage where
  version : Fin 65536
  svn : Fin 65
  content : Nat
  sigOk : Bool
  journalOk : Bool
  deriving DecidableEq, Repr

/-- A request to the SPDM responder (R466), session and key requests apart. -/
inductive SpdmReq where
  | getVersion
  | getCapabilities
  | negotiateAlgorithms
  | getDigests
  | getCertificate (slot : Fin 16) (off len : Fin 65536)
  | challenge (slot : Fin 16) (nonce : BitVec 256)
  | getMeasurements (index : Byte) (sign : Bool) (nonce : BitVec 256)
  deriving DecidableEq, Repr

/-- A message on the board-management sideband (R468): a PLDM monitoring request, an SPDM request without a session, or a malformed message. -/
inductive BmcMsg where
  | pldm
  | spdm (r : SpdmReq)
  | malformed
  deriving DecidableEq, Repr


/-- A fault that a block or its checkers detect (R476 to R478, R481): source, class, severity and action, the function whose partition holds the resource (255
for none), the detail, whether Hearth must handle it, whether the handling needs REPAIR (R486), and the resources it needs (R482). -/
structure FaultIn where
  die : Fin 16
  block : Fin 16
  inst : Fin 4096
  sub : Fin 4096
  cls : Fin 24
  sev : Fin 4
  action : Fin 16
  fn : Fin 256
  detail : Word64
  needs : Bool
  repair : Bool
  res : List Nat
  deriving DecidableEq, Repr

/-- What follows when an action of a handling completes (R482, R488): the next action with the resources the record then needs, or the end of the handling. -/
inductive HandlingNext where
  | proceeds (action : Fin 16) (res : List Nat)
  | closes (action : Fin 16)
  | unresolved
  deriving DecidableEq, Repr


/-- What trips the hardware (R568): a sensor of a base die above 115 °C, or two of its sensors invalid. -/
inductive TripCause where
  | hot (b : Fin 4) (sensor : Fin 6) (temp : BitVec 11)
  | invalid (b : Fin 4)
  deriving DecidableEq, Repr


/-- What a Leash request's frame shows before its command is carried out (R536, R537): whether every byte passed parity, and whether `len` is the command's. -/
structure LeashFrame where
  parityOk : Bool
  lenOk : Bool
  deriving DecidableEq, Repr

/-- The commands, in the order of the opcode table. -/
inductive Instr where
  /-- DIRECT_REGISTER_WRITE (R124): A 64-bit write to a register that has no row of its own is checked under R9 and applied as LIVE, STAGED or QUIESCE, or rejected whole. -/
  | directRegisterWrite (w : Writer) (addr : BitVec 48) (full : Bool) (value : Word64) (posted : Bool)
  /-- RC_FIELD_READ (R7): A read of a register that holds an RC field returns the value and clears the field, keeping any event that lands on the same cycle. -/
  | rcFieldRead (w : Writer) (addr : BitVec 48) (full : Bool)
  /-- POR_N_RELEASE (R61): Release of POR_N with every supply valid starts COLD and the Kindling start-up. -/
  | porNRelease (railsOk selfCheckOk : Bool) (kept : List (Fin 8))
  /-- POR_N_ASSERT (R82): POR_N going low fences the outputs and holds the device in device reset. -/
  | porNAssert
  /-- HBM_TRAINING_COMPLETE (R66): HBM training, with any spare-channel substitution, ends on all stacks; a stack that failed training is marked failed. -/
  | hbmTrainingComplete (failed : List (Fin 8))
  /-- LANE_BRINGUP_COMPLETE (R66): Bring-up of the lanes that the image enables ends start-up step 8, or a lane is recorded as late with a DEGRADE record. -/
  | laneBringupComplete (late : List (Fin 4 × Fin 32))
  /-- STARTUP_STEP_9 (R66): Once step 8 and HBM training are complete, the device releases global set-reset, starts admission and enters the start mode. -/
  | startupStep9
  /-- FENCE_N_ASSERT (R82): FENCE_N going low moves the device to SAFE and fences every output. -/
  | fenceNAssert
  /-- FENCE_N_DEASSERT (R82): FENCE_N going high lifts the pin's bar on leaving SAFE. -/
  | fenceNDeassert
  /-- HOST_PERST (R70): HOSTA_PERST_N or HOSTB_PERST_N resets one host port and acts on its functions as an FLR. -/
  | hostPerst (hostb : Bool)
  /-- HEARTBEAT_LOSS_SAFE (R63): No heartbeat from the active Hearth for 10 ms without a takeover makes the satellites put the device into SAFE. -/
  | heartbeatLossSafe
  /-- MODE_TRIGGER (R579): The instant or cadence event named by an accepted MODE_SET arrives, and the device changes mode or lifts its fences. -/
  | modeTrigger
  /-- REFCLK_ROOT_LOST (R40): The root monitor finds missing edges or an out-of-range frequency, and the root PLL enters holdover with a DEGRADE record. -/
  | refclkRootLost
  /-- REFCLK_ROOT_RETURN (R40): The reference has stayed in limits for 1 ms without a break, and the PLL pulls back to it. -/
  | refclkRootReturn
  /-- ROOT_HOLDOVER_TIMEOUT (R40): The reference has not returned within 100 ms of its loss, and the device enters SAFE. -/
  | rootHoldoverTimeout
  /-- BASE_DIE_CLOCK_LOST (R41): A base die's monitor declares its clock lost, and the die enters base-die reset without a drain. -/
  | baseDieClockLost (b : Fin 4)
  /-- BASE_DIE_CLOCK_GOOD (R73): A good clock for 1 ms returns a die that lost its clock, with re-alignment and a ledger comparison. -/
  | baseDieClockGood (b : Fin 4)
  /-- BASE_DIE_RESET_RELEASE (R72): A base die in reset is released; it re-aligns, loads house time and steering, retrains its cords and reopens. -/
  | baseDieResetRelease (b : Fin 4)
  /-- FABRIC_DIE_RESET_RELEASE (R75): A fabric die leaves reset; its flip-flops start from init values and its bundles carry new values. -/
  | fabricDieResetRelease (f : Fin 12)
  /-- HT_COPY_COMPARE (R44): Every 1 ms each house-time copy is compared with the reference copy and reloaded if it differs by more than 2 ns. -/
  | htCopyCompare (measured : List (Fin 16 × Int))
  /-- PTP_MESSAGE (R47): A PTP message on the PTP port reaches the servo, which checks it and updates the servo or drops and counts it. -/
  | ptpMessage (m : PtpMsg)
  /-- PTP_PARTNER_TIMEOUT (R47): A Follow_Up or Delay_Resp whose partner message has not come within 100 ms is dropped and counted. -/
  | ptpPartnerTimeout (seqId : Nat)
  /-- TIME_PPS_EDGE (R48): A deglitched TIME_PPS rising edge marks a second for the servo, or is rejected and counted. -/
  | timePpsEdge
  /-- TIME_10M_REJECT (R48): TIME_10M outside ±20 ppm is rejected, which loses that source. -/
  | time10mReject
  /-- HT_HOST_ADJ_WRITE (R49): A write to HT_HOST_ADJ hands the servo a phase and frequency offset to apply. -/
  | htHostAdjWrite (w : Writer) (die : Fin 4) (value : Word64)
  /-- SOURCE_LOSS (R52): No valid update within loss_timeout loses the source; the servo switches to the backup or enters holdover. -/
  | sourceLoss (primary : Bool)
  /-- CADENCE_EVENT (R54): A cadence generator issues a frame start, field start, line start, switch point or user event on its ROOT cycle. -/
  | cadenceEvent (die : Fin 4) (gen : Fin 64) (ev : CgEvent)
  /-- STREAM_HEADER (R88): The 256-byte header of a configuration stream is checked in order and stops the stream at the first failure. -/
  | streamHeader (bytes : List Byte)
  /-- NOP (R90): A NOP packet is parsed and its payload ignored. -/
  | nop (operand : BitVec 32) (count : BitVec 24)
  /-- WCFG (R98): A WCFG packet writes one CFG_ register, which takes effect at the commit. -/
  | wcfg (operand : BitVec 32) (payload : List Word64)
  /-- FRAME (R93): A FRAME packet writes n frames into the shadow plane from its start address. -/
  | frame (operand : BitVec 32) (payload : List Word64)
  /-- FRAME_RPT (R90): A FRAME_RPT packet writes one frame to n consecutive frame addresses. -/
  | frameRpt (operand : BitVec 32) (payload : List Word64)
  /-- WBLK (R96): A WBLK packet writes consecutive hardened-block registers, checked as it is parsed. -/
  | wblk (operand : BitVec 32) (payload : List Word64)
  /-- WFAB (R96): A WFAB packet writes consecutive FAB_ registers of one fabric die. -/
  | wfab (operand : BitVec 32) (payload : List Word64)
  /-- MEMINIT (R95): A MEMINIT packet loads the contents of one block RAM, directly in LOAD or into HBM under key ID 127 in a transaction. -/
  | meminit (operand : BitVec 32) (payload : List Word64)
  /-- END (R91): The END packet checks the frame count and end of body, and runs the contention check. -/
  | endPacket (operand : BitVec 32) (payload : List Word64)
  /-- STREAM_TAG (R85): The GCM tag is checked within 1 µs of its last byte, and the stream is accepted or fails with BAD_TAG. -/
  | streamTag (ok : Bool) (extra : Nat) (digest : BitVec 384)
  /-- SIGNATURE_CHECK_DONE (R102): Verification of the owner signature ends, and the stream is accepted or fails with BAD_SIG. -/
  | signatureCheckDone (ok : Bool)
  /-- STREAM_STALL_TIMEOUT (R112): A source that stalls for 10 ms or 1 ms ends its stream with EARLY_END. -/
  | streamStallTimeout
  /-- CHAIN_TIMEOUT (R109): No billet on the chain input within 500 ms fails a chain member with CHAIN_TIMEOUT. -/
  | chainTimeout
  /-- CHAIN_FORWARD_DONE (R108): Forwarding of the rest of a chain stream completes, or fails with CHAIN_LINK. -/
  | chainForwardDone (ok : Bool) (bytes : Nat)
  /-- CHAIN_DONE_N_HIGH (R111): CHAIN_DONE_N going high lets a chain member perform step 9 within 10 µs. -/
  | chainDoneNHigh
  /-- CHAIN_WAIT_EXPIRED (R111): CHAIN_DONE_N still low 2 s after the commit makes the device perform step 9 alone. -/
  | chainWaitExpired
  /-- TAMPER_N_LOW (R100): TAMPER_N going low zeroises the battery-backed key and sets tamper_seen. -/
  | tamperNLow
  /-- VBATT_LOSS (R100): VBATT below 1.0 V loses the battery-backed key. -/
  | vbattLoss
  /-- TXN_BEGIN (R126): TXN_BEGIN opens a transaction and returns its number. -/
  | txnBegin (c : HostCmd) (timeout : BitVec 64)
  /-- TXN_WRITE (R577): TXN_WRITE stages one whole register write in a transaction. -/
  | txnWrite (c : HostCmd) (t : BitVec 8) (fabric : Bool) (die : BitVec 8) (off : BitVec 32) (value : Word64)
  /-- TXN_WRITE_LIST (R126): TXN_WRITE_LIST stages a list of register writes read from host memory, whole or not at all. -/
  | txnWriteList (c : HostCmd) (t : BitVec 8) (addr : Word64) (count : BitVec 32) (entries : Option (List (Word64 × Word64)))
  /-- TXN_STREAM (R139): TXN_STREAM writes a stream into the shadow plane, with relocation placement for a kind 2 image. -/
  | txnStream (c : HostCmd) (t : BitVec 8) (src : StreamSrc) (place : Option PlaceReq)
  /-- TXN_READ (R147): TXN_READ returns a register's value as the transaction has staged it. -/
  | txnRead (c : HostCmd) (t : BitVec 8) (addr : Word64)
  /-- TXN_COMMIT (R128): TXN_COMMIT arms a commit after the checks across registers, QUIESCE, admission and twin. -/
  | txnCommit (c : HostCmd) (t : BitVec 8) (trig : Trigger)
  /-- TXN_CANCEL (R126): TXN_CANCEL disarms an ARMED transaction back to READY. -/
  | txnCancel (c : HostCmd) (t : BitVec 8)
  /-- TXN_ROLLBACK (R126): TXN_ROLLBACK discards a transaction and restores its frames. -/
  | txnRollback (c : HostCmd) (t : BitVec 8)
  /-- TXN_STATUS (R126): TXN_STATUS returns the state and armed time of a transaction. -/
  | txnStatus (c : HostCmd) (t : BitVec 8)
  /-- DEFAULT_TXN_AUTO_ARM (R125): 20 µs after its last staged write the device arms a default transaction itself. -/
  | defaultTxnAutoArm (t : Fin 16)
  /-- TXN_TIMEOUT (R131): txn_timeout expires in OPEN or READY, and the transaction is rolled back. -/
  | txnTimeout (t : Fin 16)
  /-- COMMIT_LAUNCH (R119): 128 ROOT cycles before C the commit wave is launched, and the commit can no longer be cancelled. -/
  | commitLaunch (t : Fin 16)
  /-- COMMIT_CYCLE (R120): On C the planes swap and every touched STAGED field and swapped region takes its new value. -/
  | commitCycle (t : Fin 16)
  /-- RESYNC_COMPLETE (R116): The resync or restore of the touched frames ends, and the transaction number returns to IDLE. -/
  | resyncComplete (t : Option (Fin 16))
  /-- REGION_RESET_RELEASE (R135): After MEMINIT and deep-RAM clearing, region reset is released on the rst_len-th edge of rst_clk. -/
  | regionResetRelease (f : Fin 12) (n : Option (Fin 64))
  /-- REGION_CLOCK_STALL (R137): No rst_clk edge for 100 µs during region reset sets clk_stalled and logs a DEGRADE record. -/
  | regionClockStall (f : Fin 12) (n : Option (Fin 64))
  /-- ICP_STREAM_BYTES (R142): Internal-port command 0 takes stream bytes into a transaction of owner 255. -/
  | icpStreamBytes (f : Fin 12)
  /-- ICP_PEAT_LOAD (R143): Internal-port command 1 loads a stream from the region-image area. -/
  | icpPeatLoad (f : Fin 12) (param : Word64)
  /-- ICP_READBACK (R143): Internal-port command 2 reads frames of the active plane of its own die. -/
  | icpReadback (f : Fin 12) (param : Word64)
  /-- ICP_COMMIT (R143): Internal-port command 3 arms the port's transaction at a cadence event. -/
  | icpCommit (f : Fin 12) (param : Word64)
  /-- ICP_ROLLBACK (R142): Internal-port command 4 rolls back the port's transaction. -/
  | icpRollback (f : Fin 12)
  /-- ICP_ABORT (R142): icp_abort ends the current stream with ABORTED. -/
  | icpAbort (f : Fin 12)
  /-- ICP_BUSY_TIMEOUT (R143): A command held 1 ms while another source holds the controller ends with CONFLICT. -/
  | icpBusyTimeout (f : Fin 12)
  /-- SCRUB_FRAME_READ (R144): Scrub reads a frame and corrects or flags it. -/
  | scrubFrameRead (shadow : Bool) (addr : BitVec 24) (found : ScrubFound)
  /-- SCRUB_REBUILD_COMPLETE (R145): An uncorrectable frame is rebuilt from the other plane, a region image or the image slot. -/
  | scrubRebuildComplete (shadow : Bool) (addr : BitVec 24) (src : RebuildSrc)
  /-- TAP_CLASH (R160): A tap guard sees two enables on one long line, sets clash and logs a record. -/
  | tapClash (line : BitVec 32) (frame : BitVec 24)
  /-- PLL_LOCK (R162): A fabric PLL locks, and its gated nets are ungated. -/
  | pllLock (f : Fin 12) (p : Fin 6)
  /-- PLL_LOCK_LATE (R162): A PLL still unlocked 10 ms after step 9 raises its record to STREAM. -/
  | pllLockLate (f : Fin 12) (p : Fin 6)
  /-- PLL_REF_MEASURED (R167): After 10 µs of measurement, a PLL reference out of limits holds the PLL stopped with ref_bad. -/
  | pllRefMeasured (f : Fin 12) (p : Fin 6) (khz : Fin 16777216)
  /-- PLL_LOCK_LOSS (R170): A PLL that loses lock gates its outputs at once and clears pll_locked. -/
  | pllLockLoss (f : Fin 12) (p : Fin 6)
  /-- NET_STOPPED (R171): A monitored global net without an edge for 10 µs is declared stopped and its ports close. -/
  | netStopped (f : Fin 12) (n : Fin 32) (aps : List (Fin 32)) (sps : List (Fin 64)) (allTwinned : Bool)
  /-- NET_RESUMED (R171): A stopped net with 1 ms of continuous edges reopens its ports. -/
  | netResumed (f : Fin 12) (n : Fin 32)
  /-- BUNDLE_REPAIR (R196): Parity errors on a crossing bundle map a spare, the check wire or a pool bundle, or escalate to REPAIR. -/
  | bundleRepair (pair : Fin 8) (bundle : Fin 4096) (upper : Bool) (err : BundleErr) (rgn : Fin 64)
  /-- AP_REQUEST (R175): A fabric access point issues a request, or answers it REJECT locally. -/
  | apRequest (f : Fin 12) (a : Fin 32) (addr : BitVec 63) (write : Bool) (len : Fin 32) (tag : BitVec 8) (full : Bool) (be : List (BitVec 128)) (data : List Word64)
  /-- CORD_TRAINING (R187): A cord trains at step 3 or on return, with clock lock, wire tests, spare assignment and capability exchange. -/
  | cordTraining (c : CordId) (clk0 clk1 : Bool) (failed : List (Fin 70))
  /-- CORD_TRAINING_TIMEOUT (R187): A cord not ACTIVE 200 µs after training starts is out of service. -/
  | cordTrainingTimeout (c : CordId)
  /-- CORD_FLIT_SLOT (R186): A cord slot's flit is received and checked by parity and CRC-8, then delivered or discarded with NAK. -/
  | cordFlitSlot (c : CordId) (flit : CordFlit) (checksOk : Bool)
  /-- CORD_CREDIT_FIELD (R185): A CR credit-and-acknowledge field returns a credit, acknowledges flits or carries a NAK that starts a replay. -/
  | cordCreditField (c : CordId) (credit : Option (Fin 4)) (ack : Fin 64) (nak crcOk : Bool)
  /-- TOTAL (R186): A TOTAL control field credits the returns that were lost to CRC failures. -/
  | total (c : CordId) (vc : Fin 4) (count : Fin 32) (crcOk : Bool)
  /-- REPLAY_TIMEOUT (R186): A replay not begun within 64 slots of the NAK is repeated once, then the cord is retested. -/
  | replayTimeout (c : CordId)
  /-- WIRE_FAILED (R188): err_thresh errors in the window declare a wire failed, and the receiver sends REMAP. -/
  | wireFailed (c : CordId) (wire : Fin 72)
  /-- REMAP (R189): A REMAP control field holds the sender while a spare takes the wire. -/
  | remap (c : CordId) (wire : Fin 72)
  /-- NARROW (R191): A NARROW control field holds the cord, which retests and restarts on 32 logical wires. -/
  | narrow (c : CordId) (failed : List (Fin 70))
  /-- RETEST (R185): A RETEST control field retests the cord's wires. -/
  | retest (c : CordId) (failed : List (Fin 70))
  /-- RESUME (R189): A RESUME control field ends the hold, and the sender replays from the last acknowledged sequence. -/
  | resume (c : CordId)
  /-- SPARE_TEST_DONE (R190): The PRBS test of a spare ends, and the spare is deskewed or marked bad and the next spare tried. -/
  | spareTestDone (c : CordId) (pass : Bool)
  /-- CORD_OUT_OF_SERVICE (R192): A cord goes out of service, its unacknowledged flits are discarded and the NoC routes around it. -/
  | cordOutOfService (c : CordId)
  /-- CAPABILITY_RECORD (R198): A Virven capability record is received, checked and accepted after two identical copies, with settings from R199. -/
  | capabilityRecord (l : LinkId) (bytes : List Byte)
  /-- CAP_TIMEOUT (R198): No record accepted within 1 ms keeps the link down with CAP_TIMEOUT. -/
  | capTimeout (l : LinkId)
  /-- FAR_FRAME (R200): A far frame is received on a far-mode lane and handled by type. -/
  | farFrame (b : Fin 4) (g : Fin 2) (frame : FarFrame)
  /-- FAR_LANE_RESTRIPE (R200): A far-mode lane loses lock and the group restripes over the remaining lanes. -/
  | farLaneRestripe (b : Fin 4) (g : Fin 2) (lane : Fin 4)
  /-- FAR_PARTNER_SILENT (R201): A partner silent for 1 ms loses the far-mode link. -/
  | farPartnerSilent (b : Fin 4) (g : Fin 2)
  /-- NOC_FLIT_CHECK (R212): A router checks a packet as it enters and corrects it, forwards it or discards it whole. -/
  | nocFlitCheck (b : Fin 4) (r : Fin 32) (inp : Fin 16) (p : NocPkt) (corrected : Nat) (bad : Bool)
  /-- RD (R211): An RD request reaches its target, which answers with a response. -/
  | rd (p : NocPkt) (answer : Option ApAnswer)
  /-- WR (R211): A non-posted WR request reaches its target and is answered. -/
  | wr (p : NocPkt) (answer : Option ApAnswer)
  /-- WRP (R211): A posted write reaches its target and is applied without a response. -/
  | wrp (p : NocPkt)
  /-- RSP (R16): A response reaches its initiator, completes the request, or is discarded as late. -/
  | rsp (p : NocPkt)
  /-- MSG (R211): A posted MSG on VC2 reaches its target. -/
  | msg (p : NocPkt)
  /-- STRM (R231): A STRM fragment of a line unit travels on VC3 to its sink slice. -/
  | strm (g : Fin 4096)
  /-- ROUTER_FAILED (R220): A router is declared failed and its neighbours mark their ports towards it down. -/
  | routerFailed (b : Fin 4) (r : Fin 32) (protectedOnly : Bool)
  /-- ROUTE_HOLD_EXPIRED (R220): A packet held with no usable port for hold_max µs is answered NOROUTE. -/
  | routeHoldExpired (id : Nat)
  /-- INITIATOR_TIMEOUT (R222): An initiator's timeout expires, and the request completes with TIMEOUT. -/
  | initiatorTimeout (src : Fin 1024) (tag : BitVec 12)
  /-- PACKET_AGE_DISCARD (R223): A router discards a packet whose age reaches 12 birth units. -/
  | packetAgeDiscard (id : Nat)
  /-- TARGET_LATE_FAULT (R223): A target that has not completed a request 1 ms after taking it answers FAULT. -/
  | targetLateFault (src : BitVec 12) (tag : BitVec 12)
  /-- TAG_QUARANTINE_END (R223): 4 ms after a TIMEOUT the initiator may reuse the tag. -/
  | tagQuarantineEnd (src : Fin 1024) (tag : BitVec 12)
  /-- EPOCH_DRAIN_SUM (R218): Every 640 ns the satellites sum old-epoch flits; at 0 epoch_draining clears and the old bank is resynced. -/
  | epochDrainSum
  /-- EPOCH_DRAIN_TIMEOUT (R218): Old-epoch flits still in a router 1 ms after C are discarded. -/
  | epochDrainTimeout
  /-- DOMAIN_CLOSE (R224): A domain is marked closing, and its edge ports answer DOMOFF. -/
  | domainClose (dom : Dom)
  /-- DOMAIN_DRAIN_END (R224): After 10 µs the flits still inside a closing domain are discarded, and it may be powered off or reset. -/
  | domainDrainEnd (dom : Dom)
  /-- DOMAIN_REOPEN (R224): A domain's closing mark clears, and it accepts packets. -/
  | domainReopen (dom : Dom)
  /-- UTILISATION_WINDOW (R227): At the end of each 1,024-cycle window a router updates utilisation and its throttling state. -/
  | utilisationWindow (b : Fin 4) (r : Fin 32) (util : List (Fin 101))
  /-- FRAGMENT_ARRIVAL (R238): A fragment reaches its sink slice and is checked and held until its due cycle. -/
  | fragmentArrival (b : Fin 4) (x : LineFrag) (fromOld : Bool)
  /-- FRAGMENT_RELEASE (R239): On its due cycle a fragment is released towards its sink, or the unit is discarded as incomplete. -/
  | fragmentRelease (g : Fin 4096)
  /-- MERGE_SILENCE (R249): A copy silent for loss_units unit periods is lost, and the pair becomes UNPROTECTED. -/
  | mergeSilence (g : Fin 4096)
  /-- SWAPPING_TIMEOUT (R250): A SWAPPING copy with no unit in the window 64 unit periods after release is lost. -/
  | swappingTimeout (g : Fin 4096)
  /-- FABRIC_SOURCE_UNIT (R237): A fabric source port offers a unit, which is taken into its slot or discarded. -/
  | fabricSourceUnit (f : Fin 12) (p : Fin 64) (u : FabUnit) (spDrop : Bool)
  /-- LINK_RECOMPUTE (R245): After a narrowing, a cord loss or an alternate route, the slices recompute link sums and mark overbooked slots. -/
  | linkRecompute
  /-- FRAME_STORE_DECISION (R252): At each frame start of rd_cg the owning slice decides which frame every reader reads, or repeats. -/
  | frameStoreDecision (k : Fin 256)
  /-- FRAME_STORE_LINE_READ (R252): At a reader's line event the slice reads the next unit from the store. -/
  | frameStoreLineRead (g : Fin 4096) (unit : Fin 8192) (frame : Nat)
  /-- FRAME_STORE_READ_RETURN (R253): A store read returns; a failed read is retried on the other copy. -/
  | frameStoreReadReturn (g : Fin 4096) (fate : ReadFate)
  /-- DE_TAKEOVER (R257): A delivery engine's lockstep mismatch hands its slots to DE8 within 2 µs. -/
  | deTakeover (b : Fin 4) (c : Fin 9)
  /-- LANE_SIGNAL_DETECT (R270): 100 µs of signal in DETECT moves a native lane to TRAIN_A. -/
  | laneSignalDetect (b : Fin 4) (l : Fin 32)
  /-- TRAIN_A_ADAPTED (R270): A lane finishes adaptation and moves to TRAIN_B. -/
  | trainAAdapted (b : Fin 4) (l : Fin 32)
  /-- TRAIN_B_MARKERS (R270): Two ready markers from the partner move the lane to BIT_LOCK. -/
  | trainBMarkers (b : Fin 4) (l : Fin 32)
  /-- BIT_LOCK_PASS (R270): An error-free PRBS31 comparison moves the lane to BILLET_LOCK. -/
  | bitLockPass (b : Fin 4) (l : Fin 32)
  /-- BILLET_LOCK_FOUND (R270): Sync found 8 times in a row moves the lane to CAP. -/
  | billetLockFound (b : Fin 4) (l : Fin 32)
  /-- LANE_STATE_TIMEOUT (R270): A bring-up state times out; the lane records the error and returns to DETECT. -/
  | laneStateTimeout (b : Fin 4) (l : Fin 32)
  /-- REFCLK_OFFSET_CHECK (R265): An average partner offset above 5 ppm over 1 ms sends the lane to DETECT with REFCLK. -/
  | refclkOffsetCheck (b : Fin 4) (l : Fin 32) (ppb : Nat)
  /-- LANE_REF_LOST (R262): A lane reference is declared lost, and every lane on it goes down. -/
  | laneRefLost (b : Fin 4) (r : Fin 2)
  /-- LANE_REF_GOOD (R262): A reference good for 1 ms returns its lanes to DETECT. -/
  | laneRefGood (b : Fin 4) (r : Fin 2)
  /-- IDLE_BILLET (R267): An IDLE billet is received and carries no data. -/
  | idleBillet (b : Fin 4) (l : Fin 32) (x : BilletIn)
  /-- DATA (R278): A DATA billet is received, checked and placed by link position in the reorder buffer. -/
  | data (b : Fin 4) (l : Fin 32) (x : BilletIn) (w0 w1 : UserWord)
  /-- DATA1 (R277): A DATA1 billet carrying one user word is received. -/
  | data1 (b : Fin 4) (l : Fin 32) (x : BilletIn) (w : UserWord)
  /-- DATA1_WAIT_EXPIRED (R277): A single waiting word sent after 8 billet periods goes as a DATA1 billet. -/
  | data1WaitExpired (b : Fin 4) (n : Fin 6)
  /-- ACK (R279): An ACK billet acknowledges, NAKs, signals lane-down bits and xoff. -/
  | ack (b : Fin 4) (l : Fin 32) (x : BilletIn) (lanes : List AckByte) (xoff : Bool)
  /-- CAP (R275): A CAP billet's capability record is checked and accepted after two identical copies. -/
  | cap (b : Fin 4) (l : Fin 32) (x : BilletIn) (record : List Byte)
  /-- RESTRIPE (R282): A RESTRIPE billet sets the new lane list and the replayed billets. -/
  | restripe (b : Fin 4) (l : Fin 32) (x : BilletIn) (p : RestripeIn)
  /-- NATIVE_LANE_DOWN (R282): A receiver declares a native lane down and signals it in its ACK billets. -/
  | nativeLaneDown (b : Fin 4) (l : Fin 32)
  /-- NATIVE_LINK_DOWN (R284): A link whose lane list becomes empty goes down. -/
  | nativeLinkDown (b : Fin 4) (n : Fin 6)
  /-- SDI_RATE_UPDATE (R286): Every 1 ms an SDI transmitter's fractional divider is set from HT_RATE. -/
  | sdiRateUpdate (b : Fin 4) (l : Fin 32)
  /-- ERROR_INJECT_GO (R290): A write of go injects one error or one burst on a lane. -/
  | errorInjectGo (w : Writer) (b : Fin 4) (l : Fin 32) (value : Word64)
  /-- SDI_LINE_RECEIVED (R297): A receive SDI channel checks a line and emits its unit. -/
  | sdiLineReceived (b : Fin 4) (g : Fin 6) (c : Fin 8) (x : SdiLine)
  /-- SDI_UNLOCK (R302): An SDI input loses lock or changes format and stops emitting. -/
  | sdiUnlock (b : Fin 4) (g : Fin 6) (c : Fin 8)
  /-- SDI_LINE_START (R301): A transmit SDI channel starts a line from its unit, or as black or a repeat. -/
  | sdiLineStart (b : Fin 4) (g : Fin 6) (c : Fin 8) (line : Fin 8192) (frame : BitVec 16) (active : Bool) (room : Nat)
  /-- ETH_FRAME_RECEIVED (R303): A MAC receives a frame and drops it or routes it to a flow, PTP or the host. -/
  | ethFrameReceived (b : Fin 4) (g : Fin 6) (m : Fin 4) (x : EthFrame)
  /-- ASSEMBLY_TIMEOUT (R305): A unit incomplete asm_us after its first packet is discarded. -/
  | assemblyTimeout (b : Fin 4) (g : Fin 6) (i : Fin 64) (seq : BitVec 32)
  /-- LEG_LOST (R306): An ST 2022-7 leg silent for 100 ms sets leg_lost. -/
  | legLost (b : Fin 4) (g : Fin 6) (i : Fin 64) (second : Bool)
  /-- TX_PACKET_DEPARTURE (R308): A transmit flow's paced departure slot sends a packet, or counts its unit missed. -/
  | txPacketDeparture (b : Fin 4) (g : Fin 6) (i : Fin 64) (seq : BitVec 32) (k : Fin 256) (frameNo : Nat)
  /-- ADD (R361): ADD writes s + t to d and sets z n c v. -/
  | add (e : Fin 1024) (d s t : Fin 32)
  /-- SUB (R361): SUB writes s − t to d and sets z n c v. -/
  | sub (e : Fin 1024) (d s t : Fin 32)
  /-- AND (R361): AND writes the bitwise AND of s and t. -/
  | and (e : Fin 1024) (d s t : Fin 32)
  /-- OR (R361): OR writes the bitwise OR of s and t. -/
  | or (e : Fin 1024) (d s t : Fin 32)
  /-- XOR (R361): XOR writes the bitwise XOR of s and t. -/
  | xor (e : Fin 1024) (d s t : Fin 32)
  /-- SLL (R361): SLL shifts s left by t[4:0]. -/
  | sll (e : Fin 1024) (d s t : Fin 32)
  /-- SRL (R361): SRL shifts s right logically by t[4:0]. -/
  | srl (e : Fin 1024) (d s t : Fin 32)
  /-- SRA (R361): SRA shifts s right arithmetically by t[4:0]. -/
  | sra (e : Fin 1024) (d s t : Fin 32)
  /-- SLLI (R361): SLLI shifts s left by sh. -/
  | slli (e : Fin 1024) (d s sh : Fin 32)
  /-- SRLI (R361): SRLI shifts s right logically by sh. -/
  | srli (e : Fin 1024) (d s sh : Fin 32)
  /-- SRAI (R361): SRAI shifts s right arithmetically by sh. -/
  | srai (e : Fin 1024) (d s sh : Fin 32)
  /-- MULH (R361): MULH multiplies the signed low halves of s and t. -/
  | mulh (e : Fin 1024) (d s t : Fin 32)
  /-- MIN (R361): MIN writes the signed minimum of s and t. -/
  | min (e : Fin 1024) (d s t : Fin 32)
  /-- MAX (R361): MAX writes the signed maximum of s and t. -/
  | max (e : Fin 1024) (d s t : Fin 32)
  /-- ABS (R361): ABS writes the magnitude of s, saturating at 2^31 − 1. -/
  | abs (e : Fin 1024) (d s : Fin 32)
  /-- NORM (R361): NORM writes the redundant sign bits of s. -/
  | norm (e : Fin 1024) (d s : Fin 32)
  /-- SLT (R361): SLT writes 1 when s is less than t, signed. -/
  | slt (e : Fin 1024) (d s t : Fin 32)
  /-- SLTU (R361): SLTU writes 1 when s is less than t, unsigned. -/
  | sltu (e : Fin 1024) (d s t : Fin 32)
  /-- SAT16 (R361): SAT16 clamps s to 16 signed bits. -/
  | sat16 (e : Fin 1024) (d s : Fin 32)
  /-- BSWAP (R361): BSWAP reverses the bytes of s. -/
  | bswap (e : Fin 1024) (d s : Fin 32)
  /-- VADD (R361): VADD adds four 16-bit lanes with wrap. -/
  | vadd (e : Fin 1024) (d s t : Fin 32)
  /-- VSUB (R361): VSUB subtracts four 16-bit lanes with wrap. -/
  | vsub (e : Fin 1024) (d s t : Fin 32)
  /-- VADDS (R361): VADDS adds lanes with saturation. -/
  | vadds (e : Fin 1024) (d s t : Fin 32)
  /-- VSUBS (R361): VSUBS subtracts lanes with saturation. -/
  | vsubs (e : Fin 1024) (d s t : Fin 32)
  /-- VSLL (R361): VSLL shifts each lane left by sh. -/
  | vsll (e : Fin 1024) (d s sh : Fin 32)
  /-- VSRL (R361): VSRL shifts each lane right logically by sh. -/
  | vsrl (e : Fin 1024) (d s sh : Fin 32)
  /-- VSRA (R361): VSRA shifts each lane right arithmetically by sh. -/
  | vsra (e : Fin 1024) (d s sh : Fin 32)
  /-- VMIN (R361): VMIN takes the signed lane minimum. -/
  | vmin (e : Fin 1024) (d s t : Fin 32)
  /-- VMAX (R361): VMAX takes the signed lane maximum. -/
  | vmax (e : Fin 1024) (d s t : Fin 32)
  /-- VABS (R361): VABS takes the lane magnitudes with saturation. -/
  | vabs (e : Fin 1024) (d s : Fin 32)
  /-- BEXP_V (R374): BEXP.V lowers bx to the smallest lane sign count of a register vector. -/
  | bexpV (e : Fin 1024) (s : Fin 32)
  /-- BEXP_M (R374): BEXP.M lowers bx over an 8-byte memory vector. -/
  | bexpM (e : Fin 1024) (m : MemOp) (err : Bool)
  /-- BEXP_A (R374): BEXP.A lowers bx over the 48-bit accumulator lanes. -/
  | bexpA (e : Fin 1024) (a : Fin 4)
  /-- BXRST (R374): BXRST sets bx to 47. -/
  | bxrst (e : Fin 1024)
  /-- SCALEB_V (R374): SCALEB.V shifts each lane left by min(bx, 15). -/
  | scalebV (e : Fin 1024) (d s : Fin 32)
  /-- SCALEB_VR (R374): SCALEB.VR shifts each lane right by sh less the exponent, with rounding. -/
  | scalebVr (e : Fin 1024) (d s sh : Fin 32)
  /-- SCALEB_A (R374): SCALEB.A shifts each accumulator lane left by bx. -/
  | scalebA (e : Fin 1024) (a : Fin 4)
  /-- SCALEB_AR (R374): SCALEB.AR shifts accumulator lanes right by sh less bx. -/
  | scalebAr (e : Fin 1024) (a : Fin 4) (sh : Fin 64)
  /-- ADDI (R362): ADDI adds a sign-extended immediate. -/
  | addi (e : Fin 1024) (d s : Fin 32) (imm : BitVec 16)
  /-- ANDI (R362): ANDI ANDs a zero-extended immediate. -/
  | andi (e : Fin 1024) (d s : Fin 32) (imm : BitVec 16)
  /-- ORI (R362): ORI ORs a zero-extended immediate. -/
  | ori (e : Fin 1024) (d s : Fin 32) (imm : BitVec 16)
  /-- XORI (R362): XORI XORs a zero-extended immediate. -/
  | xori (e : Fin 1024) (d s : Fin 32) (imm : BitVec 16)
  /-- LUI (R362): LUI places the immediate in the upper half over s[15:0]. -/
  | lui (e : Fin 1024) (d s : Fin 32) (imm : BitVec 16)
  /-- SLTI (R362): SLTI compares s with a sign-extended immediate. -/
  | slti (e : Fin 1024) (d s : Fin 32) (imm : BitVec 16)
  /-- LD (R363): LD loads 2, 4 or 8 bytes from local memory into g. -/
  | ld (e : Fin 1024) (g : Fin 32) (m : MemOp) (sz : Fin 4) (sx err : Bool)
  /-- ST (R363): ST stores 2, 4 or 8 bytes from g to local memory. -/
  | st (e : Fin 1024) (g : Fin 32) (m : MemOp) (sz : Fin 4)
  /-- LDS (R363): LDS loads a special register from local memory. -/
  | lds (e : Fin 1024) (x : Fin 32) (m : MemOp) (err : Bool)
  /-- STS (R363): STS stores a special register to local memory. -/
  | sts (e : Fin 1024) (x : Fin 32) (m : MemOp)
  /-- MOVS (R364): MOVS writes a special register from g under its write rule. -/
  | movs (e : Fin 1024) (g : Fin 32) (x : Fin 64)
  /-- MOVG (R364): MOVG writes g from a special register. -/
  | movg (e : Fin 1024) (g : Fin 32) (x : Fin 64)
  /-- B (R365): B branches relative when cond holds, with two delay slots. -/
  | b (e : Fin 1024) (cond : Fin 16) (off : BitVec 16)
  /-- BZ (R365): BZ branches when g[s] is 0. -/
  | bz (e : Fin 1024) (s : Fin 32) (off : BitVec 16)
  /-- BNZ (R365): BNZ branches when g[s] is not 0. -/
  | bnz (e : Fin 1024) (s : Fin 32) (off : BitVec 16)
  /-- J (R365): J jumps to an absolute word address. -/
  | j (e : Fin 1024) (off : BitVec 16)
  /-- CALL (R365): CALL jumps absolute and links g31. -/
  | call (e : Fin 1024) (off : BitVec 16)
  /-- JR (R365): JR jumps to g[s]. -/
  | jr (e : Fin 1024) (s : Fin 32)
  /-- CALLR (R365): CALLR jumps to g[s] and links g31. -/
  | callr (e : Fin 1024) (s : Fin 32)
  /-- RETI (R342): RETI restores pc and st from ipc and ist after its delay slots. -/
  | reti (e : Fin 1024)
  /-- RPT (R334): RPT issues the next instruction n times. -/
  | rpt (e : Fin 1024) (n : Fin 1024)
  /-- RPTR (R367): RPTR repeats the next instruction g[s] times. -/
  | rptr (e : Fin 1024) (s : Fin 32)
  /-- RPTB (R368): RPTB sets up a block repeat level and fetches the body. -/
  | rptb (e : Fin 1024) (len : Fin 1024) (count : Fin 2048)
  /-- RPTBR (R367): RPTBR sets up a block repeat with its count from g[s]. -/
  | rptbr (e : Fin 1024) (len : Fin 1024) (s : Fin 32)
  /-- VMAC (R370): VMAC multiplies X and Y operands and accumulates into four accumulator lanes. -/
  | vmac (e : Fin 1024) (p : MacP) (err : Bool)
  /-- TAPM (R371): TAPM multiplies and accumulates with a broadcast Y sample and writes the delay line. -/
  | tapm (e : Fin 1024) (p : MacP) (err : Bool)
  /-- VMACR (R370): VMACR multiply-accumulates register vectors. -/
  | vmacr (e : Fin 1024) (q : MacQ)
  /-- SACC (R372): SACC rounds, saturates and stores an accumulator as a vector. -/
  | sacc (e : Fin 1024) (a : Fin 4) (k : Fin 8) (am : Fin 4) (sh : Fin 64) (z : Bool)
  /-- PACK (R372): PACK rounds and saturates an accumulator into a register pair. -/
  | pack (e : Fin 1024) (g : Fin 32) (a : Fin 4) (sh : Fin 64) (z : Bool)
  /-- CLRA (R372): CLRA clears an accumulator. -/
  | clra (e : Fin 1024) (a : Fin 4)
  /-- ACCR (R372): ACCR reads the low 32 bits of an accumulator lane. -/
  | accr (e : Fin 1024) (g : Fin 32) (a : Fin 4) (lane : Fin 4)
  /-- ACCRH (R372): ACCRH reads the high 16 bits of an accumulator lane. -/
  | accrh (e : Fin 1024) (g : Fin 32) (a : Fin 4) (lane : Fin 4)
  /-- ACCW (R372): ACCW writes an accumulator lane from a register pair. -/
  | accw (e : Fin 1024) (a : Fin 4) (lane : Fin 4) (g : Fin 32)
  /-- EXTU (R376): EXTU extracts an unsigned bit field. -/
  | extu (e : Fin 1024) (d s pos wm1 : Fin 32)
  /-- EXTS (R376): EXTS extracts a signed bit field. -/
  | exts (e : Fin 1024) (d s pos wm1 : Fin 32)
  /-- INS (R376): INS inserts a bit field into d. -/
  | ins (e : Fin 1024) (d s pos wm1 : Fin 32)
  /-- EXTUR (R376): EXTUR extracts an unsigned field placed by t. -/
  | extur (e : Fin 1024) (d s t : Fin 32)
  /-- EXTSR (R376): EXTSR extracts a signed field placed by t. -/
  | extsr (e : Fin 1024) (d s t : Fin 32)
  /-- INSR (R376): INSR inserts a field placed by t. -/
  | insr (e : Fin 1024) (d s t : Fin 32)
  /-- CLZ (R376): CLZ counts leading zeros. -/
  | clz (e : Fin 1024) (d s : Fin 32)
  /-- POPC (R376): POPC counts set bits. -/
  | popc (e : Fin 1024) (d s : Fin 32)
  /-- BREV (R376): BREV reverses the bits. -/
  | brev (e : Fin 1024) (d s : Fin 32)
  /-- SHLD (R376): SHLD shifts left across the register pair s and t. -/
  | shld (e : Fin 1024) (d s t sh : Fin 32)
  /-- PUTB (R377): PUTB appends n bits to a codestream and stores full words. -/
  | putb (e : Fin 1024) (w s t : Fin 32) (k : Fin 8)
  /-- GETB (R377): GETB reads n bits from a codestream, loading words as needed. -/
  | getb (e : Fin 1024) (d r t : Fin 32) (k : Fin 8) (err : Bool)
  /-- XFER (R379): XFER queues a transfer between the task's windows and a device address under a tag. -/
  | xfer (e : Fin 1024) (s : Fin 32) (k : Fin 8) (tag : Fin 8) (dir : Bool) (n : Fin 512)
  /-- WAIT (R380): WAIT stalls until a tag is done and returns its code. -/
  | wait (e : Fin 1024) (d : Fin 32) (tag : Fin 8)
  /-- LL (R338): LL loads from pack memory and reserves the line. -/
  | ll (e : Fin 1024) (d s : Fin 32) (imm : BitVec 16)
  /-- SC (R338): SC stores if the reservation holds and returns success. -/
  | sc (e : Fin 1024) (d s t : Fin 32) (imm : BitVec 11)
  /-- SEND (R348): SEND sends a unit from pack memory on a stream index. -/
  | send (e : Fin 1024) (i : Fin 64) (s : Fin 32) (tag : Fin 8)
  /-- STIM (R349): STIM writes a value into a stimulus port's FIFO. -/
  | stim (e : Fin 1024) (k s : Fin 32)
  /-- HALT (R380): HALT ends the task with a result. -/
  | halt (e : Fin 1024) (s : Fin 32)
  /-- NOP_INSTRUCTION (R381): The engine NOP word issues and changes nothing. -/
  | nopInstruction (e : Fin 1024)
  /-- TRANSFER_COMPLETE (R338): A queued transfer completes and its tag is marked done with its code. -/
  | transferComplete (e : Fin 1024) (answer : Option ApAnswer)
  /-- STREAM_INTERRUPT (R342): STREAM is accepted and the engine enters its handler. -/
  | streamInterrupt (e : Fin 1024)
  /-- PREEMPT_ACCEPT (R344): PREEMPT is accepted and the engine saves the task's context. -/
  | preemptAccept (e : Fin 1024)
  /-- LL_WAIT_EXPIRED (R341): A reservation still held 64 cycles after a DEBUG or PREEMPT is cancelled. -/
  | llWaitExpired (e : Fin 1024)
  /-- CONTEXT_SAVE_COMPLETE (R344): A context save ends and the Kennel dispatches the pre-empting task. -/
  | contextSaveComplete (e : Fin 1024)
  /-- CONTEXT_RESTORE_COMPLETE (R344): A restore ends and the saved task's next instruction enters ID. -/
  | contextRestoreComplete (e : Fin 1024)
  /-- DEBUG_HALT (R350): DEBUG is accepted and the engine becomes HALTED once in-flight instructions complete. -/
  | debugHalt (e : Fin 1024)
  /-- ENGINE_FAILED (R346): An engine checker fires; the engine stops, enters FAILED and the Kennel handles its task. -/
  | engineFailed (e : Fin 1024)
  /-- STREAM_RING_DELIVERY (R347): The pack writes a received unit into a stream ring and raises its event. -/
  | streamRingDelivery (p : Fin 32) (i : Fin 64)
  /-- PACK_MEMORY_SCRUB (R324): The pack scrubs pack memory every 10 ms. -/
  | packMemoryScrub (p : Fin 32) (corrected : Nat) (bad : List (Fin 131072))
  /-- KEN_DOORBELL (R385): A write to KEN_QDB, or a BAR4 doorbell, submits new descriptors to a queue. -/
  | kenDoorbell (w : Writer) (q : Fin 8192) (value : Word64)
  /-- DESCRIPTOR_ACCEPT (R384): A descriptor read completes and is checked, queued or rejected. -/
  | descriptorAccept (q : Fin 8192) (storeErr : Bool)
  /-- TEMPLATE_RELEASE (R386): A release event on a template queue releases one copy of the template. -/
  | templateRelease (q : Fin 8192)
  /-- DISPATCH_DECISION (R390): A dispatch lane with a free engine chooses a task and an engine, or steals. -/
  | dispatchDecision (b : Fin 4) (h : Fin 8)
  /-- PREEMPTION_START (R395): A ready preemptor task with no free engine picks a victim and sends PREEMPT. -/
  | preemptionStart (b : Fin 4) (h : Fin 8)
  /-- PATIENCE_EXPIRED (R390): A held task whose patience has passed goes to the lowest-numbered free engine. -/
  | patienceExpired (q : Fin 8192)
  /-- CROSS_DIE_STEAL_REQUEST (R393): A steal request and answer between Kennels travels on VC2. -/
  | crossDieStealRequest (b : Fin 4) (h : Fin 8)
  /-- KENNEL_TICK (R398): A tick source ticks, counts and releases the due delay-list entries. -/
  | kennelTick (b : Fin 4) (t : Fin 4)
  /-- WATCHDOG_EXPIRY (R401): A task's budget reaches 0 and the Kennel kills it with status WATCHDOG. -/
  | watchdogExpiry (e : Fin 1024)
  /-- COMPLETION_WRITE (R403): Once its busy tags are done and ring space exists, the Kennel writes a task's completion record. -/
  | completionWrite (b : Fin 4) (r : Fin 256)
  /-- KEN_CR_CONS_WRITE (R405): A write to KEN_CR_CONS frees ring space for waiting records. -/
  | kenCrConsWrite (w : Writer) (b : Fin 4) (r : Fin 256) (value : Word64)
  /-- QCMD_FLUSH (R409): KEN_QCMD flush cancels every waiting task of a queue. -/
  | qcmdFlush (q : Fin 8192)
  /-- QCMD_CANCEL_PERIODIC (R409): KEN_QCMD command 2 cancels a queue's periodic entries. -/
  | qcmdCancelPeriodic (q : Fin 8192)
  /-- DISPATCH_LANE_TAKEOVER (R407): A dispatch lane's lockstep mismatch hands its pack to L8. -/
  | dispatchLaneTakeover (b : Fin 4) (h : Fin 8)
  /-- SPILL_READ_RETURN (R388): A spilled descriptor read returns, or fails and the task ends TASK_LOST. -/
  | spillReadReturn (q : Fin 8192) (ok mirrorOk : Bool)
  /-- KENNEL_DIE_RETURN (R410): After its base die returns, the Kennel writes one DIE_RESET record per queue. -/
  | kennelDieReturn (b : Fin 4)
  /-- PATROL_SCRUB (R417): Patrol reads each block once every 24 hours and corrects it. -/
  | patrolScrub (k : Fin 8) (block : Nat) (found : PatrolResult)
  /-- ROW_REPAIR (R418): A failing row is repaired by soft post-package repair. -/
  | rowRepair (k : Fin 8) (row : Nat) (lastResource : Bool)
  /-- PSEUDO_CHANNEL_FAILED (R419): A pseudo-channel is declared failed and PCS takes its place. -/
  | pseudoChannelFailed (k : Fin 8) (pc : Fin 32)
  /-- PCS_COPY_COMPLETE (R419): The copy of a failed pseudo-channel to PCS completes. -/
  | pcsCopyComplete (k : Fin 8) (unreadable : List Nat)
  /-- STACK_FAILED (R420): A stack is failed, its ports closed and its FULL regions destroyed. -/
  | stackFailed (k : Fin 8)
  /-- PIPELINE_MISMATCH (R436): An encryption pipeline mismatch retries the request on another pipeline and brings in a spare. -/
  | pipelineMismatch (k : Fin 8) (pipe : Fin 52)
  /-- KEY_INSTALL (R427): KEY_INSTALL unwraps, checks and installs a key in every controller. -/
  | keyInstall (c : HostCmd) (key level : BitVec 8) (src : KeySrc) (kcv : BitVec 32)
  /-- KEY_RETIRE (R428): KEY_RETIRE starts retirement of a key ID. -/
  | keyRetire (c : HostCmd) (key : BitVec 8)
  /-- RETIREMENT_COMPLETE (R428): No reference is outstanding, and the key is zeroised and its key ID becomes FREE. -/
  | retirementComplete (key : Fin 128)
  /-- KEY_REGION (R429): KEY_REGION creates and initialises a FULL region. -/
  | keyRegion (c : HostCmd) (key stack n : BitVec 8) (base size metaBase metaUnits : BitVec 32) (durable wide : Bool)
  /-- REGION_INIT_COMPLETE (R429): A region's metadata has been written unwritten, and the region becomes ACTIVE. -/
  | regionInitComplete (k : Fin 8) (n : Fin 64)
  /-- KEY_REGION_FREE (R425): KEY_REGION_FREE destroys a region. -/
  | keyRegionFree (c : HostCmd) (stack n : BitVec 8)
  /-- KEY_REKEY (R438): KEY_REKEY starts a rekey sweep. -/
  | keyRekey (c : HostCmd) (stack n : BitVec 8)
  /-- REKEY_SWEEP_COMPLETE (R438): A rekey sweep finishes rewriting every page under the new generation. -/
  | rekeySweepComplete (k : Fin 8) (n : Fin 64)
  /-- KEY_REINIT (R439): KEY_REINIT re-initialises a POISON extent of a durable region. -/
  | keyReinit (c : HostCmd) (stack n : BitVec 8) (first count : BitVec 32)
  /-- KEY_BBK (R425): KEY_BBK writes the battery-backed key and clears tamper_seen. -/
  | keyBbk (c : HostCmd) (src : KeySrc)
  /-- KEY_STATUS (R425): KEY_STATUS returns a key ID's state. -/
  | keyStatus (c : HostCmd) (key : BitVec 8)
  /-- METADATA_FAILURE (R439): A failed counter block or tree node re-initialises a transient region or poisons a durable extent. -/
  | metadataFailure (k : Fin 8) (n : Fin 64) (first count : Nat)
  /-- LINK_KEY_SWITCH (R447): A write of switch sends a command-2 frame and moves the sender to the next key. -/
  | linkKeySwitch (w : Writer) (b : Fin 4) (g : Fin 2) (value : Word64)
  /-- LINK_KEY_SWITCH_FRAME (R447): A received command-2 far frame moves the receiver to its next_key_id. -/
  | linkKeySwitchFrame (b : Fin 4) (g : Fin 2)
  /-- HRT_CQ_TAIL_WRITE (R461): A write to HRT_CQ_TAIL hands new commands to Hearth. -/
  | hrtCqTailWrite (w : Writer) (b : Fin 4) (fn : Fin 64) (full : Bool) (value : Word64) (posted : Bool)
  /-- IMAGE_SLOT_WRITE (R105): IMAGE_SLOT_WRITE writes and checks an image slot. -/
  | imageSlotWrite (c : HostCmd) (slot : BitVec 8) (addr : Word64) (len : BitVec 32) (bytes : List Byte) (tagOk : Bool) (bad : List Nat)
  /-- IMAGE_LOAD (R463): IMAGE_LOAD makes a full non-hitless load through LOAD. -/
  | imageLoad (c : HostCmd) (src : BitVec 8) (addr : Word64) (len : BitVec 32)
  /-- IMAGE_ABORT (R463): IMAGE_ABORT ends the stream in progress with ABORTED. -/
  | imageAbort (c : HostCmd)
  /-- IMAGE_BOOT_PREF (R463): IMAGE_BOOT_PREF sets boot_pref in both directory copies. -/
  | imageBootPref (c : HostCmd) (slot : BitVec 8)
  /-- IMAGE_SVN_COMMIT (R101): IMAGE_SVN_COMMIT raises svn_fuse to the running image's svn. -/
  | imageSvnCommit (c : HostCmd)
  /-- IMAGE_REGION_PUT (R463): IMAGE_REGION_PUT checks a stream and stores it in the region-image area. -/
  | imageRegionPut (c : HostCmd) (off : BitVec 32) (addr : Word64) (len : BitVec 32) (bytes : List Byte) (tagOk : Bool)
  /-- IMAGE_FW_STAGE (R472): IMAGE_FW_STAGE writes and checks firmware in the inactive bank. -/
  | imageFwStage (c : HostCmd) (addr : Word64) (len : BitVec 32) (image : Option FwImage)
  /-- IMAGE_FW_ACTIVATE (R472): IMAGE_FW_ACTIVATE restarts the controllers on the staged firmware. -/
  | imageFwActivate (c : HostCmd) (commitSvn standbyUp oldUp : Bool)
  /-- MODE_SET (R61): MODE_SET requests a mode transition at an instant or cadence event. -/
  | modeSet (c : HostCmd) (mode : BitVec 8) (trig : Trigger)
  /-- MODE_RESET (R463): MODE_RESET performs a host device reset. -/
  | modeReset (c : HostCmd) (railsOk selfCheckOk : Bool) (kept : List (Fin 8))
  /-- MODE_LEASH (R463): MODE_LEASH allows or withdraws Leash CONTROL in SAFE. -/
  | modeLeash (c : HostCmd) (allow : Bool)
  /-- REPAIR_BASE_RESET (R72): REPAIR_BASE_RESET resets a base die. -/
  | repairBaseReset (c : HostCmd) (die : BitVec 8)
  /-- REPAIR_FABRIC_RESET (R71): REPAIR_FABRIC_RESET resets a fabric die. -/
  | repairFabricReset (c : HostCmd) (die : BitVec 8)
  /-- REPAIR_BLOCK_RESET (R76): REPAIR_BLOCK_RESET resets one block instance. -/
  | repairBlockReset (c : HostCmd) (die block : BitVec 8) (inst : BitVec 32)
  /-- REPAIR_CORD (R187): REPAIR_CORD retrains a cord, optionally clearing field-map wires. -/
  | repairCord (c : HostCmd) (die : BitVec 8) (n : BitVec 32) (retest : Bool)
  /-- REPAIR_PPR (R418): REPAIR_PPR makes soft row repairs permanent. -/
  | repairPpr (c : HostCmd) (die ctl : BitVec 8)
  /-- REPAIR_HEARTH (R463): REPAIR_HEARTH restarts the failed controller as standby. -/
  | repairHearth (c : HostCmd) (up : Bool)
  /-- KILN_RUN (R497): KILN_RUN runs a slice, or the full test of a failed unit. -/
  | kilnRun (c : HostCmd) (die block : BitVec 8) (inst : BitVec 32)
  /-- KILN_RESULT (R463): KILN_RESULT returns a unit's last verdict and signature. -/
  | kilnResult (c : HostCmd) (die block : BitVec 8) (inst : BitVec 32)
  /-- QUERY_ID (R463): QUERY_ID returns HRT_ID and HRT_SN. -/
  | queryId (c : HostCmd)
  /-- QUERY_PART (R463): QUERY_PART writes the function's partition registers to host memory. -/
  | queryPart (c : HostCmd) (addr : Word64) (dmaOk : Bool)
  /-- QUERY_TIME (R463): QUERY_TIME returns house time read together. -/
  | queryTime (c : HostCmd)
  /-- QUERY_HEALTH (R463): QUERY_HEALTH writes mode, Hearth, boot and fault counts to host memory. -/
  | queryHealth (c : HostCmd) (addr : Word64) (dmaOk : Bool)
  /-- LOG_READ (R463): LOG_READ copies the function's unread fault records. -/
  | logRead (c : HostCmd) (addr : Word64) (max : BitVec 32) (dmaOk : Bool)
  /-- LOG_NOTIFY (R463): LOG_NOTIFY sets the vector sent for new records. -/
  | logNotify (c : HostCmd) (vec : BitVec 32) (sev : BitVec 8) (enable : Bool)
  /-- FUNCTION_LEVEL_RESET (R455): An FLR disables a function's rings, rolls back its transactions and clears its windows. -/
  | functionLevelReset (fn : Fin 64)
  /-- BAR2_ACCESS (R457): A BAR2 access becomes NoC requests under the function's window key. -/
  | bar2Access (fn : Fin 64) (off : BitVec 36) (write : Bool) (bytes : List Byte) (answer : Option ApAnswer)
  /-- SPDM_GET_VERSION (R466): The SPDM responder answers GET_VERSION. -/
  | spdmGetVersion (fn : Fin 64) (wellFormed : Bool)
  /-- SPDM_GET_CAPABILITIES (R466): The responder answers GET_CAPABILITIES. -/
  | spdmGetCapabilities (fn : Fin 64) (wellFormed : Bool)
  /-- SPDM_NEGOTIATE_ALGORITHMS (R466): The responder answers NEGOTIATE_ALGORITHMS. -/
  | spdmNegotiateAlgorithms (fn : Fin 64) (wellFormed : Bool)
  /-- SPDM_GET_DIGESTS (R466): The responder answers GET_DIGESTS. -/
  | spdmGetDigests (fn : Fin 64) (wellFormed : Bool)
  /-- SPDM_GET_CERTIFICATE (R466): The responder returns the identity chain. -/
  | spdmGetCertificate (fn : Fin 64) (wellFormed : Bool) (slot : Fin 16) (off len : Fin 65536)
  /-- SPDM_CHALLENGE (R466): The responder answers CHALLENGE. -/
  | spdmChallenge (fn : Fin 64) (wellFormed : Bool) (slot : Fin 16) (nonce : BitVec 256)
  /-- SPDM_GET_MEASUREMENTS (R467): The responder reports signed measurements. -/
  | spdmGetMeasurements (fn : Fin 64) (wellFormed : Bool) (index : Byte) (sign : Bool) (nonce : BitVec 256)
  /-- SPDM_KEY_EXCHANGE (R466): The responder answers KEY_EXCHANGE and opens a session. -/
  | spdmKeyExchange (fn : Fin 64) (wellFormed : Bool) (nonce : BitVec 256)
  /-- SPDM_FINISH (R466): The responder completes a session with FINISH. -/
  | spdmFinish (fn : Fin 64) (wellFormed : Bool) (session : Fin 4) (verifyOk : Bool)
  /-- SPDM_HEARTBEAT (R466): The responder answers HEARTBEAT. -/
  | spdmHeartbeat (fn : Fin 64) (wellFormed : Bool) (session : Fin 4)
  /-- SPDM_KEY_UPDATE (R466): The responder updates session keys. -/
  | spdmKeyUpdate (fn : Fin 64) (wellFormed : Bool) (session : Fin 4)
  /-- SPDM_END_SESSION (R466): END_SESSION closes a session and zeroises its key buffers. -/
  | spdmEndSession (fn : Fin 64) (wellFormed : Bool) (session : Fin 4)
  /-- KEY_DELIVER (R466): KEY_DELIVER places key material in a key buffer of a target function. -/
  | keyDeliver (fn : Fin 64) (wellFormed : Bool) (session : Fin 4) (target : BitVec 8) (buffer : BitVec 8) (key : BitVec 256)
  /-- KEY_BUFFER_EXPIRY (R466): A key buffer is zeroised 10 s after it was filled. -/
  | keyBufferExpiry (fn : Fin 64) (buffer : Fin 8)
  /-- BMC_MESSAGE (R468): A board-management MCTP message is served or dropped and counted. -/
  | bmcMessage (m : BmcMsg)
  /-- BMC_REQUEST_SAFE (R468): The PLDM request-SAFE effecter acts as a host SAFE command when bmc_safe is set. -/
  | bmcRequestSafe
  /-- BMC_CLOCK_HELD_TIMEOUT (R468): A transaction with its clock held low 35 ms is abandoned. -/
  | bmcClockHeldTimeout
  /-- HEARTH_TAKEOVER (R469): On mismatch or 100 µs without heartbeat the standby fences the old controller and takes over. -/
  | hearthTakeover (missed : List (Fin 16))
  /-- FAULT_OCCURRENCE (R481): A fault occurrence is merged into a record or starts a new record. -/
  | faultOccurrence (o : FaultIn)
  /-- HANDLING_ACTION_DONE (R482): A handling action completes, and the record proceeds, suspends or closes. -/
  | handlingActionDone (entry : Nat) (next : HandlingNext)
  /-- RING_OVERFLOW_ESCALATION (R484): overflow set for 1 ms writes an OVERFLOW record and enters SAFE. -/
  | ringOverflowEscalation
  /-- FABRIC_DIE_FAILED (R489): A fabric die is declared failed and held in reset. -/
  | fabricDieFailed (f : Fin 12)
  /-- BASE_DIE_FAILED (R490): A base die is declared failed, fenced, routed around and its regions relocated. -/
  | baseDieFailed (b : Fin 4)
  /-- KILN_SLICE_START (R492): Kiln takes a unit and starts a test slice. -/
  | kilnSliceStart (b : Fin 4) (unit : Fin 410) (handed : Bool)
  /-- KILN_SLICE_END (R493): A slice ends with a verdict and the unit returns as R496 gives. -/
  | kilnSliceEnd (b : Fin 4) (patterns : Fin 129) (sigOk : Bool) (sig : Word64) (restoreErr : Bool)
  /-- KILN_RECALL (R494): A block recalls its unit and the slice is cut short. -/
  | kilnRecall (b : Fin 4) (patterns : Fin 128) (sig : Word64) (restoreErr : Bool)
  /-- KILN_OVERDUE (R495): A unit without a full pass in 60 minutes becomes overdue. -/
  | kilnOverdue (b : Fin 4) (unit : Fin 410)
  /-- LEDGER_AUDIT (R499): Every 1 ms the ledger snapshots and audits every pool instance. -/
  | ledgerAudit (b : Fin 4)
  /-- LEDGER_MISMATCH (R500): A mismatch stops issue and drains the instance. -/
  | ledgerMismatch (b : Fin 4) (kind : Fin 5) (inst : Fin 4096) (diff : BitVec 32)
  /-- LEDGER_DRAIN_COMPLETE (R500): The drain ends, counts are resynced and issue resumes. -/
  | ledgerDrainComplete (b : Fin 4) (kind : Fin 5) (inst : Fin 4096)
  /-- LEDGER_DRAIN_TIMEOUT (R500): A drain not done within drain_us resets the blocked unit. -/
  | ledgerDrainTimeout (b : Fin 4) (kind : Fin 5) (inst : Fin 4096) (slot : Fin 1024)
  /-- FLT_INJECT (R502): A write of go stores a TEST record. -/
  | fltInject (w : Writer) (b : Fin 4) (value : Word64) (posted : Bool)
  /-- RAIL_EXCURSION (R507): A rail outside its window for 2 µs is counted and logged. -/
  | railExcursion (b : Fin 4) (r : Fin 8) (mv : Fin 2048)
  /-- DOMAIN_WAKE (R509): After the wake time an ungated domain clears its closing mark. -/
  | domainWake (b : Fin 4) (n : Fin 54)
  /-- SAG_DETECTED (R511): A sag leads to EMBER, EMBER_N low and the save island on VSAVE. -/
  | sagDetected (pin : Bool)
  /-- EMBER_RECORD_COMPLETE (R518): All four Ember records are complete. -/
  | emberRecordComplete
  /-- EMBER_RESUME (R519): Records complete and supplies valid return the device to the mode it left. -/
  | emberResume
  /-- EMBER_WINDOW_END (R520): The 3 ms window ends without resume and the device resets. -/
  | emberWindowEnd
  /-- VHOLD_THRESHOLD (R513): VHOLD crossing 12.3 or 12.6 V starts or stops the charger. -/
  | vholdThreshold (mv : Fin 16384)
  /-- CAPACITANCE_MEASUREMENT (R515): The hold-up capacitance is measured at start-up, daily or on test_go. -/
  | capacitanceMeasurement (uf : Fin 16384)
  /-- THERMAL_READING (R568): A temperature threshold crossing logs a THERMAL record or enters SAFE. -/
  | thermalReading (b : Fin 4) (sensor : Fin 6) (valid : Bool) (temp : BitVec 11) (long : Bool)
  /-- THERMTRIP (R568): Above 115 °C the hardware trips THERMTRIP_N and resets the device. -/
  | thermtrip (cause : TripCause)
  /-- EVT_CNT_WRITE (R522): A counter write sets its value and adds any same-cycle increment. -/
  | evtCntWrite (w : Writer) (b : Fin 4) (n : Fin 256) (value : Word64) (same : Nat)
  /-- EVENT_SNAPSHOT (R526): At the snapshot instant the marked counters are captured as trace packets. -/
  | eventSnapshot (b : Fin 4)
  /-- TRACE_SYNC (R527): Every sync_ms a sync packet enters the trace FIFO. -/
  | traceSync (b : Fin 4)
  /-- TRACE_PACKET_OUT (R531): The trace unit sends the head packet to its sink. -/
  | tracePacketOut (b : Fin 4)
  /-- EVT_TR_POP (R531): A write of 1 removes the head packet of the host FIFO. -/
  | evtTrPop (w : Writer) (b : Fin 4) (value : Word64)
  /-- FABRIC_STIMULUS_WRITE (R533): A fabric stimulus write enters its section's FIFO. -/
  | fabricStimulusWrite (f : Fin 12) (port : Fin 256) (data : Word64)
  /-- IDENT (R539): Leash IDENT returns identity. -/
  | ident (fr : LeashFrame)
  /-- LEASH_CHALLENGE (R540): Leash CHALLENGE returns a fresh nonce. -/
  | leashChallenge (fr : LeashFrame)
  /-- UNLOCK_SIG (R541): UNLOCK_SIG unlocks a session by owner signature. -/
  | unlockSig (fr : LeashFrame) (rights slot : Byte) (pub : Nat) (verifyOk : Bool)
  /-- UNLOCK_PASS (R542): UNLOCK_PASS unlocks a session by passphrase HMAC. -/
  | unlockPass (fr : LeashFrame) (rights : Byte) (responseOk : Bool)
  /-- CLOSE (R538): CLOSE closes the Leash session. -/
  | close (fr : LeashFrame)
  /-- LEASH_READ (R546): Leash READ peeks a register or reads memory. -/
  | leashRead (fr : LeashFrame) (addr : Word64) (answer : Option ApAnswer)
  /-- LEASH_WRITE (R545): Leash WRITE writes a register or memory as a host write would. -/
  | leashWrite (fr : LeashFrame) (addr value : Word64) (answer : Option ApAnswer)
  /-- CONSUME (R546): CONSUME reads a register with its side effect. -/
  | consume (fr : LeashFrame) (addr : Word64) (answer : Option ApAnswer)
  /-- READ_BLK (R539): READ_BLK reads up to 28 words. -/
  | readBlk (fr : LeashFrame) (addr : Word64) (count : Byte) (answers : List ApAnswer)
  /-- BENCH_ENTER (R61): BENCH_ENTER moves REHEARSE to BENCH. -/
  | benchEnter (fr : LeashFrame)
  /-- BENCH_LEAVE (R61): BENCH_LEAVE returns to REHEARSE and resumes halted engines. -/
  | benchLeave (fr : LeashFrame)
  /-- LEASH_HALT (R547): Leash HALT requests DEBUG of an engine. -/
  | leashHalt (fr : LeashFrame) (eng : BitVec 16)
  /-- STEP (R548): STEP executes n steps of a halted engine. -/
  | step (fr : LeashFrame) (eng : BitVec 16) (n : Byte)
  /-- LEASH_RESUME (R548): Leash RESUME continues or ends a halted task. -/
  | leashResume (fr : LeashFrame) (eng : BitVec 16) (how : Byte)
  /-- ENG_READ (R549): ENG_READ reads a halted engine's register. -/
  | engRead (fr : LeashFrame) (eng off : BitVec 16)
  /-- ENG_WRITE (R549): ENG_WRITE writes a halted engine's register. -/
  | engWrite (fr : LeashFrame) (eng off : BitVec 16) (value : BitVec 32)
  /-- EXC_HALT (R548): EXC_HALT sets whether an engine's next exception halts it. -/
  | excHalt (fr : LeashFrame) (eng : BitVec 16) (on : Byte)
  /-- LEASH_FRAME_RESET (R536): 64 clocks with LEASH_IO high reset the frame logic. -/
  | leashFrameReset
  /-- LEASH_CK_STALL (R536): LEASH_CK stopped 1 ms inside a request abandons it. -/
  | leashCkStall
  /-- LEASH_COMMAND_TIMEOUT (R537): A command not completed after 1 ms ends with FAULT TIMEOUT. -/
  | leashCommandTimeout
  /-- LEASH_IDLE_TIMEOUT (R538): A session idle for idle_s seconds closes. -/
  | leashIdleTimeout
  /-- NONCE_EXPIRY (R540): A nonce expires 10 s after CHALLENGE. -/
  | nonceExpiry
  /-- IDCODE (R566): TAP IDCODE selects the identification register. -/
  | idcode
  /-- SAMPLE_PRELOAD (R566): TAP SAMPLE/PRELOAD captures and loads boundary cells. -/
  | samplePreload (pins load : Nat)
  /-- EXTEST (R535): TAP EXTEST drives pins in COLD and SAFE only. -/
  | extest (pins load : Nat)
  /-- EXTEST_PULSE (R566): TAP EXTEST_PULSE runs the IEEE 1149.6 test. -/
  | extestPulse (pins load : Nat)
  /-- EXTEST_TRAIN (R566): TAP EXTEST_TRAIN runs the IEEE 1149.6 train test. -/
  | extestTrain (pins load : Nat)
  /-- CLAMP (R566): TAP CLAMP holds pins from the boundary register. -/
  | clamp
  /-- HIGHZ (R566): TAP HIGHZ sets outputs to high impedance. -/
  | highz
  /-- BYPASS (R566): TAP BYPASS selects the bypass register. -/
  | bypass
  /-- RAILS_VALID_AGAIN (R511): After a sag or rail loss in COLD, every rail is valid again, and start-up repeats from step 1. -/
  | railsValidAgain (selfCheckOk : Bool) (kept : List (Fin 8))
  /-- SIMPLEX_TRAINING_PHASE_END (R271): A simplex transmitter ends its 40 ms of TRAIN-A, its 10 ms of TRAIN-B and its 1 ms of CAP billets, and moves to the next phase and then to DATA. -/
  | simplexTrainingPhaseEnd (b : Fin 4) (n : Fin 6)
  /-- RETURN_TO_DETECT (R270): 1 ms after a bring-up state timed out, the lane returns to DETECT, or stays there after three failed full bring-ups. -/
  | returnToDetect (b : Fin 4) (l : Fin 32)
  /-- ETHERNET_LANE_LOCK (R274): An Ethernet lane completes auto-negotiation and link training and reports state 8, or loses its link. -/
  | ethernetLaneLock (b : Fin 4) (l : Fin 32) (up : Bool)
  /-- UNDEFINED_ENCODING (R354): An instruction word with an unlisted major opcode, function code or field value reaches ID and raises ILLEGAL. -/
  | undefinedEncoding (e : Fin 1024) (word : BitVec 32)
  /-- UNKNOWN_OPCODE_PACKET (R90): A stream packet with an opcode that is not listed ends parsing with error OPCODE. -/
  | unknownOpcodePacket (opcode : Byte) (operand : BitVec 32) (count : BitVec 24)
  /-- UNKNOWN_COMMAND_ENTRY (R462): A command-ring entry with an unknown group or command, or with a non-zero unused byte, completes with BAD_CMD. -/
  | unknownCommandEntry (c : HostCmd) (group cmd : BitVec 8)
  /-- UNKNOWN_LEASH_COMMAND (R537): A Leash request with an unknown command, a wrong len or a parity error is answered BAD or PARITY and counted. -/
  | unknownLeashCommand (fr : LeashFrame) (code : Byte)
  /-- VHOLD_DEPLETED (R513): In EMBER, VHOLD falls to 4.0 V, the converter stops and the save island loses power. -/
  | vholdDepleted
  /-- RETENTION_LEVEL_CROSSED (R519): During EMBER a rail falls below its retention level, and the device sets retention_lost, which bars resume. -/
  | retentionLevelCrossed (b : Fin 4) (r : Fin 8)
  /-- SPDM_HEARTBEAT_TIMEOUT (R466): An SPDM session that receives no heartbeat within its HeartbeatPeriod ends, and its key buffers are zeroised. -/
  | spdmHeartbeatTimeout (session : Fin 4)
  /-- SOURCE_END_OF_DATA (R112): A host or internal-port source signals the end of its data before the header's length, and the stream ends with EARLY_END. -/
  | sourceEndOfData
  deriving DecidableEq, Repr

end Sys2Proof
end

