-- ==== Sys2Proof/Decode.lean ====
section
/-! DEFINITION. The command a table word spells. Every row of the opcode table has an empty list of bits: the device takes commands at its registers,
rings, wires and pins, and no word of it is decoded. Log entries: DESIGN CHOICE 12. -/

namespace Sys2Proof

/-- The command that a word spells by the table's bits: none, since no row gives bits. -/
def decodeTableWord (_nbits _w : Nat) : Option Instr := none

end Sys2Proof
end

