-- ==== Sys2Proof/Config.lean ====
section
/-! DEFINITION. What the spec leaves open: constants without a body, so that no proof can see a value of them. Log entries: DEDUCED 5; DESIGN CHOICE 2, 3, 4; PRESUMED 44. -/

namespace Sys2Proof

/-- The n-th free value: any number. A result that the spec leaves open is one of these, taken at the counter `Dev.free`
and reduced to the width of the place it goes to. (DESIGN CHOICE of form; log entry 2.) -/
opaque Config.free : Nat → Nat

/-- The long-line numbers whose tap enables a frame of frame type and content enables (R97, R160): the spec gives the rule
of contention but not the bit places of the enables. (log entry 3) -/
opaque Config.tapsOf : Nat → List Nat → List Nat

/-- The ports that the border cells of a frame of a frame address and content name: stream port s as s, access point a as 64 + a (R136, R141): the spec
gives no bit places of border cells. (log entry 3) -/
opaque Config.borderPorts : Nat → List Nat → List Nat

/-- SHA-384 of a list of numbers, as R467 uses it. (log entry 4) -/
opaque Config.sha384 : List Nat → Nat

/-- The key derivation and block ciphers of R422, R465 and R540 to R542: any function of their inputs. (log entry 4) -/
opaque Config.cipher : Nat → List Nat → Nat

/-- What a byte of HBM stored under one key reads as under another (R422, R432): any byte, a function of the address, the context it was written
in, the context it is read in, and the stored byte. (log entry 5) -/
opaque Config.wrongKeyByte : Nat → List Nat → List Nat → Byte → Byte

/-- The digest of the Kindling ROM (R467): the spec names the measurement and gives no value. (log entry 4) -/
opaque Config.romDigest : Nat

/-- The bytes of the device identity chain of a device serial number (R466). (log entry 4) -/
opaque Config.identityChain : Nat → List Byte

end Sys2Proof
end

