-- ==== Sys2Proof/Machine/RegMap.lean ====
section
/-! DEFINITION. The control registers of the device: one constructor per register of the spec's register tables, with its
offset formula (die, unit and index strides), its fields, their access type (R6), change class (R10), reset value and the
range its row states, and one named constant per field. Log entries: DEDUCED 14; DESIGN CHOICE 7. -/

namespace Sys2Proof.Machine

/-- Access types of R6. -/
inductive Acc where
  | rw | ro | wo | w1c | w1s | rc
  deriving DecidableEq, Repr

/-- Change classes of R10; `fixed` for a field whose row gives none. -/
inductive Chg where
  | fixed | live | staged | quiesce
  deriving DecidableEq, Repr

/-- The space a register lies in: a base die's control space (R22), a fabric die's control space (R150), or the offsets that
WCFG packets of a configuration stream write (R98), which have no control-space address (R147). -/
inductive Space where
  | base | fabric | stream
  deriving DecidableEq, Repr

/-- One field of a register: low bit, width, access, change class, reset value and the range its row states. -/
structure FieldDef where
  name : String
  lo : Nat
  w : Nat
  acc : Acc
  chg : Chg
  reset : Nat
  min : Nat
  max : Nat
  deriving DecidableEq, Repr

/-- A register: its space, offset from the die's control space, whether every base die shares it (R576), its unit stride
and count (port group, pack or HBM controller), its two index strides and counts, and its fields. Bits in no field are reserved. -/
structure RegDef where
  space : Space
  shared : Bool
  off : Nat
  us : Nat
  uc : Nat
  s1 : Nat
  c1 : Nat
  s2 : Nat
  c2 : Nat
  fields : List FieldDef
  deriving DecidableEq, Repr

/-- Which instance of a register: the die, the unit, and the register's two indices. -/
structure Ix where
  die : Nat := 0
  u : Nat := 0
  i : Nat := 0
  j : Nat := 0
  deriving DecidableEq, Repr

/-- A field of a register as an accessor: the die stride (0 for a register that all base dies share, R576), the device
address of instance 0, the unit and index strides, the low bit, the width, the reset value, and the block (R476)
and event number (R523; 256 for a field that counts no occurrences) that its occurrences count under. -/
structure Fld where
  ds : Nat
  base : Nat
  us : Nat
  s1 : Nat
  s2 : Nat
  lo : Nat
  w : Nat
  reset : Nat
  blk : Nat
  ev : Nat
  deriving DecidableEq, Repr

/-- Every register of the spec. -/
inductive Reg where
  | HT_NOW_LO | HT_NOW_HI | HT_RATE | HT_CFG | HT_SERVO | HT_STATUS | HT_OFFSET | HT_STEP | HT_PPS_SEC | HT_HOST_ADJ
  | HT_ERR | HT_ALIGN | HT_CG_CFG | HT_CG_SWP | HT_CG_USR | HT_CG_STAT | HRT_MODE | HRT_MODE_TIME | HRT_RST_CAUSE
  | HRT_BOOT | CFG_FENCE_GPIO | CFG_FENCE_LVDS | CFG_FENCE_LN | CFG_FENCE_OP | CFG_LANE_EN | CFG_OPT_EN | HRT_CFG_STAT
  | HRT_CFG_ERR | HRT_CFG_ERRADDR | HRT_CFG_SEC | HRT_CFG_CHAIN | HRT_CFG_USERID | HRT_TXN_STAT | HRT_TXN_AT | HRT_COMMIT_LAST
  | HRT_COMMIT_TIME | HRT_SCRUB_STAT | HRT_SCRUB_ERR | HRT_CFG_RESTORE | HRT_CFG_RD | FAB_RGN_DEF | FAB_RGN_CTL
  | FAB_RGN_STAT | FAB_RGN_BUILD | FAB_ICP_CTL | FAB_ICP_STAT | FAB_RGN_SP | FAB_RGN_AP | FAB_ID | FAB_STATUS | FAB_CLASH
  | FAB_XB_SUM | FAB_PLL_CFG | FAB_PLL_STAT | FAB_GNET | CRD_CFG | CRD_SUM | CRD_CORD_STAT | CRD_CORD_MAP | CRD_LC_STAT
  | CRD_LC_MAP | CRD_FAR_CFG | CRD_FAR_STAT | CRD_FAR_CAP | NOC_CFG | NOC_STATUS | NOC_RT_STAT | NOC_ROUTE | NOC_INIT_CFG
  | NOC_INIT_RD | NOC_INIT_WR | NOC_INIT_ERR | NOC_INIT_HIST | SSW_STATUS | SSW_POOL | SSW_SLOT_CFG | SSW_SLOT_RATE
  | SSW_SLOT_TWIN | SSW_SLOT_STAT | SSW_SLOT_ERR | SSW_SLOT_MRG | SSW_FS_CFG | SSW_FS_STAT | SSW_FSRC | SSW_RESV
  | LN_REF | LN_CFG | LN_STAT | LN_TXEQ | LN_RXEQ | LN_PAT | LN_PAT_USER | LN_CHK | LN_CHK_BITS | LN_ERRINJ | LN_CNT
  | LN_NL_CFG | LN_NL_STAT | MP_PG_STAT | MP_SDI_CFG | MP_SDI_STAT | MP_SDI_ERR | MP_MAC_CFG | MP_MAC_ADDR | MP_MAC_IP
  | MP_MAC_GW | MP_MAC_CNT | MP_TS_ADJ | MP_SEC_CFG | MP_SEC_TXPN | MP_SEC_CNT | MP_SEC_RXSC | MP_RXF_CFG | MP_RXF_ADDR
  | MP_RXF_SRC | MP_RXF_STAT | MP_RXF_CNT | MP_TXF_CFG | MP_TXF_ADDR | MP_TXF_ADDRB | MP_TXF_RTP | MP_TXF_TIME
  | MP_TXF_CNT | PK_CFG | PK_ENG_RUN | PK_ENG_POOL | PK_IMEM_CTL | PK_PM_ERR | PK_STIM | PK_ENG_CFG | PK_ENG_STAT
  | PK_ENG_PC | PK_ENG_CNT | PK_SRX_CFG | PK_SRX_STAT | PK_STX_STAT | KEN_CFG | KEN_STATUS | KEN_TRACE | KEN_TICK
  | KEN_TICK_CNT | KEN_SAVE | KEN_ENG_LOAD | KEN_ENG_DISP | KEN_CR_BASE | KEN_CR_CFG | KEN_CR_PROD | KEN_CR_CONS
  | KEN_QCFG | KEN_QSQ | KEN_QDB | KEN_QSTAT | KEN_QPTR | KEN_QCNT | KEN_QCMD | KEN_QHIST | CRY_CFG | CRY_STATUS
  | CRY_KEYSTATE | CRY_LINK | CRY_LINK_STAT | HBM_CFG | HBM_STATUS | HBM_ERR | HBM_ERRADDR | CRY_PIPE | CRY_CACHE
  | CRY_CNT | CRY_RGN | CRY_RGN_EXT | CRY_RGN_CTR | HRT_ID | HRT_SN | HRT_HEARTH | HRT_CQ_BASE | HRT_RQ_BASE | HRT_CQ_CFG
  | HRT_CQ_TAIL | HRT_CQ_HEAD | HRT_BAR2 | HRT_FN_STAT | HRT_PART_KEY | HRT_PART_Q | HRT_PART_SLOT | FLT_STATUS
  | FLT_CNT | FLT_OVF | FLT_INJECT | FLT_REC | KLN_CFG | KLN_WIN | KLN_STATUS | KLN_RES | KLN_SIG | LDG_CFG | LDG_STATUS
  | LDG_AUDIT | LDG_MISMATCH | LDG_POOL_ISS | LDG_POOL_RET | LDG_POOL_OUT | LDG_POOL_HELD | PWR_STATUS | PWR_HOLD
  | PWR_EMBER | PWR_GATE | PWR_RAIL | EVT_TR_CFG | EVT_TR_STAT | EVT_TR_DROP | EVT_TR_BUF | EVT_TR_WPTR | EVT_SNAP
  | EVT_TR_DATA | EVT_TR_POP | EVT_SEL | EVT_CNT | FAB_EVT_SEL | FAB_EVT_CNT | FAB_STIM | LSH_CFG | LSH_STAT | LSH_EXC
  | PWR_TEMP
  deriving DecidableEq, Repr

/-- HT_NOW_LO: R60 (02_house_time_and_clocks.md). -/
def RegDef.HT_NOW_LO : RegDef := ⟨.base, false, 0x9000000, 0, 1, 0, 1, 0, 1,
  [⟨"frac", 0, 16, .ro, .fixed, 0, 0, 65535⟩,
   ⟨"ns", 16, 32, .ro, .fixed, 0, 0, 4294967295⟩,
   ⟨"sec16", 48, 16, .ro, .fixed, 0, 0, 65535⟩]⟩
/-- HT_NOW_HI: R60 (02_house_time_and_clocks.md). -/
def RegDef.HT_NOW_HI : RegDef := ⟨.base, false, 0x9000008, 0, 1, 0, 1, 0, 1,
  [⟨"sec", 0, 48, .ro, .fixed, 0, 0, 281474976710655⟩]⟩
/-- HT_RATE: R60 (02_house_time_and_clocks.md). -/
def RegDef.HT_RATE : RegDef := ⟨.base, false, 0x9000010, 0, 1, 0, 1, 0, 1,
  [⟨"rate", 0, 44, .ro, .fixed, 343597383680, 0, 17592186044415⟩]⟩
/-- HT_CFG: R60 (02_house_time_and_clocks.md). -/
def RegDef.HT_CFG : RegDef := ⟨.base, true, 0x9000018, 0, 1, 0, 1, 0, 1,
  [⟨"src_primary", 0, 3, .rw, .staged, 0, 0, 4⟩,
   ⟨"src_backup", 3, 3, .rw, .staged, 0, 0, 4⟩,
   ⟨"ptp_port", 6, 5, .rw, .staged, 0, 0, 23⟩,
   ⟨"ptp_domain", 11, 7, .rw, .staged, 127, 0, 127⟩,
   ⟨"root_spread", 18, 1, .rw, .staged, 0, 0, 1⟩]⟩
/-- HT_SERVO: R60 (02_house_time_and_clocks.md). -/
def RegDef.HT_SERVO : RegDef := ⟨.base, true, 0x9000020, 0, 1, 0, 1, 0, 1,
  [⟨"slew_max", 0, 14, .rw, .staged, 100, 1, 10000⟩,
   ⟨"step_thresh", 14, 20, .rw, .staged, 100, 1, 1000000⟩,
   ⟨"lock_thresh", 34, 16, .rw, .staged, 100, 1, 65535⟩,
   ⟨"lock_count", 50, 4, .rw, .staged, 8, 1, 15⟩,
   ⟨"loss_timeout", 54, 8, .rw, .staged, 100, 1, 255⟩]⟩
/-- HT_STATUS: R60 (02_house_time_and_clocks.md). -/
def RegDef.HT_STATUS : RegDef := ⟨.base, false, 0x9000028, 0, 1, 0, 1, 0, 1,
  [⟨"src_active", 0, 3, .ro, .fixed, 0, 0, 7⟩,
   ⟨"locked", 3, 1, .ro, .fixed, 0, 0, 1⟩,
   ⟨"holdover", 4, 1, .ro, .fixed, 0, 0, 1⟩,
   ⟨"primary_lost", 5, 1, .ro, .fixed, 0, 0, 1⟩,
   ⟨"backup_lost", 6, 1, .ro, .fixed, 0, 0, 1⟩,
   ⟨"step_pending", 7, 1, .ro, .fixed, 0, 0, 1⟩,
   ⟨"root_holdover", 8, 1, .ro, .fixed, 0, 0, 1⟩]⟩
/-- HT_OFFSET: R60 (02_house_time_and_clocks.md). -/
def RegDef.HT_OFFSET : RegDef := ⟨.base, false, 0x9000030, 0, 1, 0, 1, 0, 1,
  [⟨"offset", 0, 64, .ro, .fixed, 0, 0, 18446744073709551615⟩]⟩
/-- HT_STEP: R60 (02_house_time_and_clocks.md). -/
def RegDef.HT_STEP : RegDef := ⟨.base, true, 0x9000038, 0, 1, 0, 1, 0, 1,
  [⟨"step", 0, 64, .wo, .staged, 0, 0, 18446744073709551615⟩]⟩
/-- HT_PPS_SEC: R60 (02_house_time_and_clocks.md). -/
def RegDef.HT_PPS_SEC : RegDef := ⟨.base, true, 0x9000040, 0, 1, 0, 1, 0, 1,
  [⟨"pps_sec", 0, 48, .rw, .live, 0, 0, 281474976710655⟩]⟩
/-- HT_HOST_ADJ: R60 (02_house_time_and_clocks.md). -/
def RegDef.HT_HOST_ADJ : RegDef := ⟨.base, true, 0x9000048, 0, 1, 0, 1, 0, 1,
  [⟨"phase", 0, 32, .wo, .live, 0, 0, 4294967295⟩,
   ⟨"freq", 32, 32, .wo, .live, 0, 0, 4294967295⟩]⟩
/-- HT_ERR: R60 (02_house_time_and_clocks.md). -/
def RegDef.HT_ERR : RegDef := ⟨.base, false, 0x9000050, 0, 1, 0, 1, 0, 1,
  [⟨"dropped", 0, 16, .rc, .fixed, 0, 0, 65535⟩,
   ⟨"outliers", 16, 16, .rc, .fixed, 0, 0, 65535⟩,
   ⟨"pps_rejected", 32, 16, .rc, .fixed, 0, 0, 65535⟩]⟩
/-- HT_ALIGN: R60 (02_house_time_and_clocks.md). -/
def RegDef.HT_ALIGN : RegDef := ⟨.base, false, 0x9000058, 0, 1, 0, 1, 0, 1,
  [⟨"deviation", 0, 16, .ro, .fixed, 0, 0, 65535⟩,
   ⟨"invalid", 16, 1, .ro, .fixed, 0, 0, 1⟩,
   ⟨"reloads", 17, 8, .ro, .fixed, 0, 0, 255⟩]⟩
/-- HT_CG_CFG: R60 (02_house_time_and_clocks.md). -/
def RegDef.HT_CG_CFG : RegDef := ⟨.base, false, 0x9001000, 0, 1, 32, 64, 0, 1,
  [⟨"enable", 0, 1, .rw, .staged, 0, 0, 1⟩,
   ⟨"link_all", 1, 1, .rw, .staged, 0, 0, 1⟩,
   ⟨"interlace", 2, 1, .rw, .staged, 0, 0, 1⟩,
   ⟨"period_num", 3, 16, .rw, .staged, 1, 1, 65535⟩,
   ⟨"period_den", 19, 24, .rw, .staged, 50, 1, 16777215⟩,
   ⟨"lines", 43, 13, .rw, .staged, 1125, 1, 8191⟩]⟩
/-- HT_CG_SWP: R60 (02_house_time_and_clocks.md). -/
def RegDef.HT_CG_SWP : RegDef := ⟨.base, false, 0x9001008, 0, 1, 32, 64, 0, 1,
  [⟨"swp_line1", 0, 13, .rw, .staged, 7, 0, 8191⟩,
   ⟨"swp_line2", 13, 13, .rw, .staged, 0, 0, 8191⟩,
   ⟨"swp_offset", 26, 20, .rw, .staged, 0, 0, 1048575⟩]⟩
/-- HT_CG_USR: R60 (02_house_time_and_clocks.md). -/
def RegDef.HT_CG_USR : RegDef := ⟨.base, false, 0x9001010, 0, 1, 32, 64, 0, 1,
  [⟨"line", 0, 13, .rw, .staged, 0, 0, 8191⟩,
   ⟨"offset", 13, 20, .rw, .staged, 0, 0, 1048575⟩,
   ⟨"enable", 33, 1, .rw, .staged, 0, 0, 1⟩]⟩
/-- HT_CG_STAT: R60 (02_house_time_and_clocks.md). -/
def RegDef.HT_CG_STAT : RegDef := ⟨.base, false, 0x9001018, 0, 1, 32, 64, 0, 1,
  [⟨"frame", 0, 48, .ro, .fixed, 0, 0, 281474976710655⟩,
   ⟨"line", 48, 13, .ro, .fixed, 0, 0, 8191⟩]⟩
/-- HRT_MODE: R83 (03_modes_and_start.md). -/
def RegDef.HRT_MODE : RegDef := ⟨.base, true, 0xf000400, 0, 1, 0, 1, 0, 1,
  [⟨"mode", 0, 3, .ro, .fixed, 0, 0, 7⟩,
   ⟨"return_mode", 3, 3, .ro, .fixed, 0, 0, 7⟩,
   ⟨"fenced", 6, 1, .ro, .fixed, 1, 0, 1⟩,
   ⟨"fence_pin", 7, 1, .ro, .fixed, 0, 0, 1⟩,
   ⟨"safe_pending", 8, 1, .ro, .fixed, 0, 0, 1⟩,
   ⟨"safe_cause", 9, 4, .ro, .fixed, 0, 0, 15⟩]⟩
/-- HRT_MODE_TIME: R83 (03_modes_and_start.md). -/
def RegDef.HRT_MODE_TIME : RegDef := ⟨.base, true, 0xf000408, 0, 1, 0, 1, 0, 1,
  [⟨"entry_ns", 0, 32, .ro, .fixed, 0, 0, 4294967295⟩,
   ⟨"entry_sec", 32, 32, .ro, .fixed, 0, 0, 4294967295⟩]⟩
/-- HRT_RST_CAUSE: R83 (03_modes_and_start.md). -/
def RegDef.HRT_RST_CAUSE : RegDef := ⟨.base, true, 0xf000410, 0, 1, 0, 1, 0, 1,
  [⟨"por", 0, 1, .rc, .fixed, 1, 0, 1⟩,
   ⟨"host_reset", 1, 1, .rc, .fixed, 0, 0, 1⟩,
   ⟨"ember_cold", 2, 1, .rc, .fixed, 0, 0, 1⟩,
   ⟨"base_reset", 3, 4, .rc, .fixed, 0, 0, 15⟩,
   ⟨"clock_loss", 7, 4, .rc, .fixed, 0, 0, 15⟩,
   ⟨"fabric_reset", 11, 12, .rc, .fixed, 0, 0, 4095⟩]⟩
/-- HRT_BOOT: R83 (03_modes_and_start.md). -/
def RegDef.HRT_BOOT : RegDef := ⟨.base, true, 0xf000418, 0, 1, 0, 1, 0, 1,
  [⟨"step", 0, 4, .ro, .fixed, 0, 0, 15⟩,
   ⟨"slot", 4, 1, .ro, .fixed, 0, 0, 1⟩,
   ⟨"fallback", 5, 1, .ro, .fixed, 0, 0, 1⟩,
   ⟨"ember_restored", 6, 1, .ro, .fixed, 0, 0, 1⟩,
   ⟨"start_us", 8, 32, .ro, .fixed, 0, 0, 4294967295⟩]⟩
/-- CFG_FENCE_GPIO: R98 (04_configuration_stream.md). -/
def RegDef.CFG_FENCE_GPIO : RegDef := ⟨.stream, false, 0x0, 0, 1, 8, 6, 0, 1,
  [⟨"fence_0", 0, 2, .wo, .staged, 0, 0, 3⟩,
   ⟨"fence_1", 2, 2, .wo, .staged, 0, 0, 3⟩,
   ⟨"fence_2", 4, 2, .wo, .staged, 0, 0, 3⟩,
   ⟨"fence_3", 6, 2, .wo, .staged, 0, 0, 3⟩,
   ⟨"fence_4", 8, 2, .wo, .staged, 0, 0, 3⟩,
   ⟨"fence_5", 10, 2, .wo, .staged, 0, 0, 3⟩,
   ⟨"fence_6", 12, 2, .wo, .staged, 0, 0, 3⟩,
   ⟨"fence_7", 14, 2, .wo, .staged, 0, 0, 3⟩] ++
   [⟨"fence_8", 16, 2, .wo, .staged, 0, 0, 3⟩,
   ⟨"fence_9", 18, 2, .wo, .staged, 0, 0, 3⟩,
   ⟨"fence_10", 20, 2, .wo, .staged, 0, 0, 3⟩,
   ⟨"fence_11", 22, 2, .wo, .staged, 0, 0, 3⟩,
   ⟨"fence_12", 24, 2, .wo, .staged, 0, 0, 3⟩,
   ⟨"fence_13", 26, 2, .wo, .staged, 0, 0, 3⟩,
   ⟨"fence_14", 28, 2, .wo, .staged, 0, 0, 3⟩,
   ⟨"fence_15", 30, 2, .wo, .staged, 0, 0, 3⟩] ++
   [⟨"fence_16", 32, 2, .wo, .staged, 0, 0, 3⟩,
   ⟨"fence_17", 34, 2, .wo, .staged, 0, 0, 3⟩,
   ⟨"fence_18", 36, 2, .wo, .staged, 0, 0, 3⟩,
   ⟨"fence_19", 38, 2, .wo, .staged, 0, 0, 3⟩,
   ⟨"fence_20", 40, 2, .wo, .staged, 0, 0, 3⟩,
   ⟨"fence_21", 42, 2, .wo, .staged, 0, 0, 3⟩,
   ⟨"fence_22", 44, 2, .wo, .staged, 0, 0, 3⟩,
   ⟨"fence_23", 46, 2, .wo, .staged, 0, 0, 3⟩] ++
   [⟨"fence_24", 48, 2, .wo, .staged, 0, 0, 3⟩,
   ⟨"fence_25", 50, 2, .wo, .staged, 0, 0, 3⟩,
   ⟨"fence_26", 52, 2, .wo, .staged, 0, 0, 3⟩,
   ⟨"fence_27", 54, 2, .wo, .staged, 0, 0, 3⟩,
   ⟨"fence_28", 56, 2, .wo, .staged, 0, 0, 3⟩,
   ⟨"fence_29", 58, 2, .wo, .staged, 0, 0, 3⟩,
   ⟨"fence_30", 60, 2, .wo, .staged, 0, 0, 3⟩,
   ⟨"fence_31", 62, 2, .wo, .staged, 0, 0, 3⟩]⟩
/-- CFG_FENCE_LVDS: R98 (04_configuration_stream.md). -/
def RegDef.CFG_FENCE_LVDS : RegDef := ⟨.stream, false, 0x30, 0, 1, 0, 1, 0, 1,
  [⟨"fence", 0, 32, .wo, .staged, 0, 0, 4294967295⟩]⟩
/-- CFG_FENCE_LN: R98 (04_configuration_stream.md). -/
def RegDef.CFG_FENCE_LN : RegDef := ⟨.stream, false, 0x38, 0, 1, 8, 2, 0, 1,
  [⟨"fence", 0, 64, .wo, .staged, 0, 0, 18446744073709551615⟩]⟩
/-- CFG_FENCE_OP: R98 (04_configuration_stream.md). -/
def RegDef.CFG_FENCE_OP : RegDef := ⟨.stream, false, 0x48, 0, 1, 0, 1, 0, 1,
  [⟨"fence", 0, 32, .wo, .staged, 0, 0, 4294967295⟩]⟩
/-- CFG_LANE_EN: R98 (04_configuration_stream.md). -/
def RegDef.CFG_LANE_EN : RegDef := ⟨.stream, false, 0x50, 0, 1, 8, 2, 0, 1,
  [⟨"en", 0, 64, .wo, .staged, 0, 0, 18446744073709551615⟩]⟩
/-- CFG_OPT_EN: R98 (04_configuration_stream.md). -/
def RegDef.CFG_OPT_EN : RegDef := ⟨.stream, false, 0x60, 0, 1, 0, 1, 0, 1,
  [⟨"en", 0, 32, .wo, .staged, 0, 0, 4294967295⟩]⟩
/-- HRT_CFG_STAT: R114 (04_configuration_stream.md). -/
def RegDef.HRT_CFG_STAT : RegDef := ⟨.base, true, 0xf000500, 0, 1, 0, 1, 0, 1,
  [⟨"state", 0, 3, .ro, .fixed, 0, 0, 7⟩,
   ⟨"source", 3, 3, .ro, .fixed, 0, 0, 7⟩,
   ⟨"busy", 6, 1, .ro, .fixed, 0, 0, 1⟩,
   ⟨"bytes_in", 7, 40, .ro, .fixed, 0, 0, 1099511627775⟩,
   ⟨"extra_bytes", 47, 16, .ro, .fixed, 0, 0, 65535⟩]⟩
/-- HRT_CFG_ERR: R114 (04_configuration_stream.md). -/
def RegDef.HRT_CFG_ERR : RegDef := ⟨.base, true, 0xf000508, 0, 1, 0, 1, 0, 1,
  [⟨"code", 0, 8, .ro, .fixed, 0, 0, 255⟩,
   ⟨"secondary", 8, 8, .ro, .fixed, 0, 0, 255⟩,
   ⟨"byte_offset", 16, 32, .ro, .fixed, 0, 0, 4294967295⟩]⟩
/-- HRT_CFG_ERRADDR: R114 (04_configuration_stream.md). -/
def RegDef.HRT_CFG_ERRADDR : RegDef := ⟨.base, true, 0xf000510, 0, 1, 0, 1, 0, 1,
  [⟨"frame_addr", 0, 24, .ro, .fixed, 0, 0, 16777215⟩,
   ⟨"detail", 32, 32, .ro, .fixed, 0, 0, 4294967295⟩]⟩
/-- HRT_CFG_SEC: R114 (04_configuration_stream.md). -/
def RegDef.HRT_CFG_SEC : RegDef := ⟨.base, true, 0xf000518, 0, 1, 0, 1, 0, 1,
  [⟨"key_present", 0, 4, .ro, .fixed, 0, 0, 15⟩,
   ⟨"key_revoked", 4, 4, .ro, .fixed, 0, 0, 15⟩,
   ⟨"bbk_valid", 8, 1, .ro, .fixed, 0, 0, 1⟩,
   ⟨"tamper_seen", 9, 1, .ro, .fixed, 0, 0, 1⟩,
   ⟨"bbk_allowed", 10, 1, .ro, .fixed, 0, 0, 1⟩,
   ⟨"sig_required", 11, 1, .ro, .fixed, 0, 0, 1⟩,
   ⟨"svn_fuse", 12, 7, .ro, .fixed, 0, 0, 127⟩,
   ⟨"slot0_valid", 19, 1, .ro, .fixed, 0, 0, 1⟩] ++
   [⟨"slot1_valid", 20, 1, .ro, .fixed, 0, 0, 1⟩,
   ⟨"boot_pref", 21, 1, .ro, .fixed, 0, 0, 1⟩,
   ⟨"slot0_svn", 22, 7, .ro, .fixed, 0, 0, 127⟩,
   ⟨"slot1_svn", 29, 7, .ro, .fixed, 0, 0, 127⟩,
   ⟨"slot_writing", 36, 1, .ro, .fixed, 0, 0, 1⟩]⟩
/-- HRT_CFG_CHAIN: R114 (04_configuration_stream.md). -/
def RegDef.HRT_CFG_CHAIN : RegDef := ⟨.base, true, 0xf000520, 0, 1, 0, 1, 0, 1,
  [⟨"chain_in", 0, 1, .ro, .fixed, 0, 0, 1⟩,
   ⟨"chain_out_off", 1, 1, .ro, .fixed, 0, 0, 1⟩,
   ⟨"done_pin", 2, 1, .ro, .fixed, 0, 0, 1⟩,
   ⟨"released", 3, 1, .ro, .fixed, 0, 0, 1⟩,
   ⟨"remaining", 4, 4, .ro, .fixed, 0, 0, 15⟩,
   ⟨"forwarded", 8, 1, .ro, .fixed, 0, 0, 1⟩,
   ⟨"link_error", 9, 1, .ro, .fixed, 0, 0, 1⟩,
   ⟨"wait_expired", 10, 1, .ro, .fixed, 0, 0, 1⟩] ++
   [⟨"bytes_out", 11, 40, .ro, .fixed, 0, 0, 1099511627775⟩]⟩
/-- HRT_CFG_USERID: R114 (04_configuration_stream.md). -/
def RegDef.HRT_CFG_USERID : RegDef := ⟨.base, true, 0xf000528, 0, 1, 0, 1, 0, 1,
  [⟨"user_id", 0, 64, .ro, .fixed, 0, 0, 18446744073709551615⟩]⟩
/-- HRT_TXN_STAT: R149 (05_planes_and_transactions.md). -/
def RegDef.HRT_TXN_STAT : RegDef := ⟨.base, true, 0xf000600, 0, 1, 16, 16, 0, 1,
  [⟨"state", 0, 4, .ro, .fixed, 0, 0, 15⟩,
   ⟨"owner", 4, 8, .ro, .fixed, 0, 0, 255⟩,
   ⟨"writes", 12, 17, .ro, .fixed, 0, 0, 131071⟩,
   ⟨"streams", 29, 5, .ro, .fixed, 0, 0, 31⟩,
   ⟨"status", 34, 8, .ro, .fixed, 0, 0, 255⟩,
   ⟨"stream_err", 42, 8, .ro, .fixed, 0, 0, 255⟩,
   ⟨"base_mask", 50, 4, .ro, .fixed, 0, 0, 15⟩]⟩
/-- HRT_TXN_AT: R149 (05_planes_and_transactions.md). -/
def RegDef.HRT_TXN_AT : RegDef := ⟨.base, true, 0xf000608, 0, 1, 16, 16, 0, 1,
  [⟨"ns", 0, 32, .ro, .fixed, 0, 0, 4294967295⟩,
   ⟨"sec", 32, 32, .ro, .fixed, 0, 0, 4294967295⟩]⟩
/-- HRT_COMMIT_LAST: R149 (05_planes_and_transactions.md). -/
def RegDef.HRT_COMMIT_LAST : RegDef := ⟨.base, true, 0xf000700, 0, 1, 0, 1, 0, 1,
  [⟨"txn", 0, 4, .ro, .fixed, 0, 0, 15⟩,
   ⟨"base_mask", 4, 4, .ro, .fixed, 0, 0, 15⟩,
   ⟨"fabric_mask", 8, 12, .ro, .fixed, 0, 0, 4095⟩,
   ⟨"rejoined", 20, 1, .ro, .fixed, 0, 0, 1⟩]⟩
/-- HRT_COMMIT_TIME: R149 (05_planes_and_transactions.md). -/
def RegDef.HRT_COMMIT_TIME : RegDef := ⟨.base, true, 0xf000708, 0, 1, 0, 1, 0, 1,
  [⟨"ns", 0, 32, .ro, .fixed, 0, 0, 4294967295⟩,
   ⟨"sec", 32, 32, .ro, .fixed, 0, 0, 4294967295⟩]⟩
/-- HRT_SCRUB_STAT: R149 (05_planes_and_transactions.md). -/
def RegDef.HRT_SCRUB_STAT : RegDef := ⟨.base, true, 0xf000710, 0, 1, 0, 1, 0, 1,
  [⟨"last_sweep_us", 0, 14, .ro, .fixed, 0, 0, 16383⟩,
   ⟨"corrected", 16, 16, .rc, .fixed, 0, 0, 65535⟩,
   ⟨"uncorrectable", 32, 16, .rc, .fixed, 0, 0, 65535⟩,
   ⟨"rebuild_pending", 48, 8, .ro, .fixed, 0, 0, 255⟩]⟩
/-- HRT_SCRUB_ERR: R149 (05_planes_and_transactions.md). -/
def RegDef.HRT_SCRUB_ERR : RegDef := ⟨.base, true, 0xf000718, 0, 1, 0, 1, 0, 1,
  [⟨"frame_addr", 0, 24, .ro, .fixed, 0, 0, 16777215⟩,
   ⟨"plane", 24, 1, .ro, .fixed, 0, 0, 1⟩,
   ⟨"action", 25, 2, .ro, .fixed, 0, 0, 3⟩]⟩
/-- HRT_CFG_RESTORE: R149 (05_planes_and_transactions.md). -/
def RegDef.HRT_CFG_RESTORE : RegDef := ⟨.base, true, 0xf000720, 0, 1, 0, 1, 0, 1,
  [⟨"restore_dies", 0, 12, .ro, .fixed, 0, 0, 4095⟩,
   ⟨"resync_dies", 12, 12, .ro, .fixed, 0, 0, 4095⟩]⟩
/-- HRT_CFG_RD: R149 (05_planes_and_transactions.md). -/
def RegDef.HRT_CFG_RD : RegDef := ⟨.base, true, 0xf000800, 0, 1, 8, 13, 0, 1,
  [⟨"value", 0, 64, .ro, .fixed, 0, 0, 18446744073709551615⟩]⟩
/-- FAB_RGN_DEF: R150 (05_planes_and_transactions.md). -/
def RegDef.FAB_RGN_DEF : RegDef := ⟨.fabric, false, 0x20000, 0, 1, 32, 64, 0, 1,
  [⟨"die", 0, 4, .ro, .fixed, 0, 0, 15⟩,
   ⟨"first_row", 4, 4, .rw, .staged, 0, 0, 15⟩,
   ⟨"last_row", 8, 4, .rw, .staged, 0, 0, 15⟩,
   ⟨"first_col", 12, 10, .rw, .staged, 0, 0, 1023⟩,
   ⟨"width", 22, 10, .rw, .staged, 0, 0, 1023⟩,
   ⟨"vacant_ok", 32, 1, .rw, .staged, 0, 0, 1⟩,
   ⟨"defined", 33, 1, .rw, .staged, 0, 0, 1⟩]⟩
/-- FAB_RGN_CTL: R150 (05_planes_and_transactions.md). -/
def RegDef.FAB_RGN_CTL : RegDef := ⟨.fabric, false, 0x20008, 0, 1, 32, 64, 0, 1,
  [⟨"rst_len", 0, 16, .rw, .staged, 16, 2, 65535⟩,
   ⟨"rst_clk", 16, 5, .rw, .staged, 0, 0, 31⟩,
   ⟨"icp_ok", 21, 1, .rw, .staged, 0, 0, 1⟩,
   ⟨"twin_valid", 22, 1, .rw, .staged, 0, 0, 1⟩,
   ⟨"twin_die", 23, 4, .rw, .staged, 0, 0, 11⟩,
   ⟨"twin_rgn", 27, 6, .rw, .staged, 0, 0, 63⟩]⟩
/-- FAB_RGN_STAT: R150 (05_planes_and_transactions.md). -/
def RegDef.FAB_RGN_STAT : RegDef := ⟨.fabric, false, 0x20010, 0, 1, 32, 64, 0, 1,
  [⟨"state", 0, 3, .ro, .fixed, 0, 0, 7⟩,
   ⟨"clk_stalled", 3, 1, .ro, .fixed, 0, 0, 1⟩,
   ⟨"txn", 4, 4, .ro, .fixed, 0, 0, 15⟩,
   ⟨"txn_valid", 8, 1, .ro, .fixed, 0, 0, 1⟩,
   ⟨"relocated", 9, 1, .ro, .fixed, 0, 0, 1⟩,
   ⟨"placed_col", 10, 10, .ro, .fixed, 0, 0, 1023⟩,
   ⟨"dropped_rsp", 20, 16, .rc, .fixed, 0, 0, 65535⟩]⟩
/-- FAB_RGN_BUILD: R150 (05_planes_and_transactions.md). -/
def RegDef.FAB_RGN_BUILD : RegDef := ⟨.fabric, false, 0x20018, 0, 1, 32, 64, 0, 1,
  [⟨"build", 0, 64, .ro, .fixed, 0, 0, 18446744073709551615⟩]⟩
/-- FAB_ICP_CTL: R150 (05_planes_and_transactions.md). -/
def RegDef.FAB_ICP_CTL : RegDef := ⟨.fabric, false, 0x21000, 0, 1, 0, 1, 0, 1,
  [⟨"enable", 0, 1, .rw, .staged, 0, 0, 1⟩,
   ⟨"readback_ok", 1, 1, .rw, .staged, 0, 0, 1⟩,
   ⟨"peat_ok", 2, 1, .rw, .staged, 0, 0, 1⟩]⟩
/-- FAB_ICP_STAT: R150 (05_planes_and_transactions.md). -/
def RegDef.FAB_ICP_STAT : RegDef := ⟨.fabric, false, 0x21008, 0, 1, 0, 1, 0, 1,
  [⟨"state", 0, 3, .ro, .fixed, 0, 0, 7⟩,
   ⟨"err", 3, 8, .ro, .fixed, 0, 0, 255⟩,
   ⟨"busy_other", 11, 1, .ro, .fixed, 0, 0, 1⟩]⟩
/-- FAB_RGN_SP: R150 (05_planes_and_transactions.md). -/
def RegDef.FAB_RGN_SP : RegDef := ⟨.fabric, false, 0x22000, 0, 1, 16, 64, 0, 1,
  [⟨"sp", 0, 64, .rw, .staged, 0, 0, 18446744073709551615⟩]⟩
/-- FAB_RGN_AP: R150 (05_planes_and_transactions.md). -/
def RegDef.FAB_RGN_AP : RegDef := ⟨.fabric, false, 0x22008, 0, 1, 16, 64, 0, 1,
  [⟨"ap", 0, 32, .rw, .staged, 0, 0, 4294967295⟩]⟩
/-- FAB_ID: R180 (06_fabric.md). -/
def RegDef.FAB_ID : RegDef := ⟨.fabric, false, 0x0, 0, 1, 0, 1, 0, 1,
  [⟨"die", 0, 4, .ro, .fixed, 0, 0, 15⟩,
   ⟨"base", 4, 2, .ro, .fixed, 0, 0, 3⟩,
   ⟨"grade", 6, 2, .ro, .fixed, 0, 0, 3⟩]⟩
/-- FAB_STATUS: R180 (06_fabric.md). -/
def RegDef.FAB_STATUS : RegDef := ⟨.fabric, false, 0x8, 0, 1, 0, 1, 0, 1,
  [⟨"gsr", 0, 1, .ro, .fixed, 1, 0, 1⟩,
   ⟨"fenced", 1, 1, .ro, .fixed, 1, 0, 1⟩,
   ⟨"die_reset", 2, 1, .ro, .fixed, 0, 0, 1⟩,
   ⟨"clash", 3, 1, .ro, .fixed, 0, 0, 1⟩,
   ⟨"net_stopped", 4, 32, .ro, .fixed, 0, 0, 4294967295⟩,
   ⟨"pll_locked", 36, 4, .ro, .fixed, 0, 0, 15⟩,
   ⟨"spll_locked", 40, 2, .ro, .fixed, 0, 0, 3⟩]⟩
/-- FAB_CLASH: R180 (06_fabric.md). -/
def RegDef.FAB_CLASH : RegDef := ⟨.fabric, false, 0x10, 0, 1, 0, 1, 0, 1,
  [⟨"line", 0, 32, .ro, .fixed, 0, 0, 4294967295⟩,
   ⟨"count", 32, 16, .rc, .fixed, 0, 0, 65535⟩]⟩
/-- FAB_XB_SUM: R180 (06_fabric.md). -/
def RegDef.FAB_XB_SUM : RegDef := ⟨.fabric, false, 0x18, 0, 1, 8, 2, 0, 1,
  [⟨"one_spare", 0, 13, .ro, .fixed, 0, 0, 8191⟩,
   ⟨"two_spares", 13, 13, .ro, .fixed, 0, 0, 8191⟩,
   ⟨"pool_used", 26, 7, .ro, .fixed, 0, 0, 127⟩,
   ⟨"err_cycles", 33, 16, .rc, .fixed, 0, 0, 65535⟩]⟩
/-- FAB_PLL_CFG: R180 (06_fabric.md). -/
def RegDef.FAB_PLL_CFG : RegDef := ⟨.fabric, false, 0x10000, 0, 1, 16, 6, 0, 1,
  [⟨"enable", 0, 1, .rw, .staged, 0, 0, 1⟩,
   ⟨"ref_sel", 1, 2, .rw, .staged, 0, 0, 2⟩,
   ⟨"ref_idx", 3, 5, .rw, .staged, 0, 0, 31⟩,
   ⟨"mult", 8, 7, .rw, .staged, 28, 0, 127⟩,
   ⟨"div_in", 15, 6, .rw, .staged, 1, 0, 63⟩,
   ⟨"div0", 21, 8, .rw, .staged, 4, 0, 255⟩,
   ⟨"div1", 29, 8, .rw, .staged, 4, 0, 255⟩,
   ⟨"div2", 37, 8, .rw, .staged, 4, 0, 255⟩] ++
   [⟨"div3", 45, 8, .rw, .staged, 4, 0, 255⟩]⟩
/-- FAB_PLL_STAT: R180 (06_fabric.md). -/
def RegDef.FAB_PLL_STAT : RegDef := ⟨.fabric, false, 0x10008, 0, 1, 16, 6, 0, 1,
  [⟨"locked", 0, 1, .ro, .fixed, 0, 0, 1⟩,
   ⟨"losses", 1, 16, .ro, .fixed, 0, 0, 65535⟩,
   ⟨"ref_khz", 17, 24, .ro, .fixed, 0, 0, 16777215⟩,
   ⟨"ref_bad", 41, 1, .ro, .fixed, 0, 0, 1⟩]⟩
/-- FAB_GNET: R180 (06_fabric.md). -/
def RegDef.FAB_GNET : RegDef := ⟨.fabric, false, 0x10100, 0, 1, 8, 32, 0, 1,
  [⟨"src", 0, 2, .rw, .staged, 0, 0, 3⟩,
   ⟨"idx", 2, 4, .rw, .staged, 0, 0, 15⟩,
   ⟨"mon_en", 6, 1, .rw, .live, 0, 0, 1⟩]⟩
/-- CRD_CFG: R204 (07_cords_and_virven_link.md). -/
def RegDef.CRD_CFG : RegDef := ⟨.base, false, 0xa000000, 0, 1, 0, 1, 0, 1,
  [⟨"err_thresh", 0, 3, .rw, .live, 4, 2, 7⟩,
   ⟨"err_window", 3, 4, .rw, .live, 10, 8, 14⟩,
   ⟨"narrow_en", 7, 1, .rw, .live, 1, 0, 1⟩]⟩
/-- CRD_SUM: R204 (07_cords_and_virven_link.md). -/
def RegDef.CRD_SUM : RegDef := ⟨.base, false, 0xa000008, 0, 1, 0, 1, 0, 1,
  [⟨"narrowed", 0, 8, .ro, .fixed, 0, 0, 255⟩,
   ⟨"out", 8, 8, .ro, .fixed, 0, 0, 255⟩,
   ⟨"lc_narrowed", 16, 8, .ro, .fixed, 0, 0, 255⟩,
   ⟨"training", 24, 8, .ro, .fixed, 0, 0, 255⟩]⟩
/-- CRD_CORD_STAT: R204 (07_cords_and_virven_link.md). -/
def RegDef.CRD_CORD_STAT : RegDef := ⟨.base, false, 0xa001000, 0, 1, 16, 224, 0, 1,
  [⟨"state", 0, 3, .ro, .fixed, 0, 0, 7⟩,
   ⟨"spares_used", 3, 3, .ro, .fixed, 0, 0, 7⟩,
   ⟨"ck_spare", 6, 1, .ro, .fixed, 0, 0, 1⟩,
   ⟨"rx_end", 7, 1, .ro, .fixed, 0, 0, 1⟩,
   ⟨"bad_wires", 8, 7, .ro, .fixed, 0, 0, 127⟩,
   ⟨"replays", 15, 16, .rc, .fixed, 0, 0, 65535⟩,
   ⟨"crc_err", 31, 16, .rc, .fixed, 0, 0, 65535⟩,
   ⟨"cap_err", 47, 3, .ro, .fixed, 0, 0, 7⟩] ++
   [⟨"bad_conduct", 50, 8, .rc, .fixed, 0, 0, 255⟩]⟩
/-- CRD_CORD_MAP: R204 (07_cords_and_virven_link.md). -/
def RegDef.CRD_CORD_MAP : RegDef := ⟨.base, false, 0xa001008, 0, 1, 16, 224, 0, 1,
  [⟨"s0_wire", 0, 7, .ro, .fixed, 127, 0, 127⟩,
   ⟨"s1_wire", 7, 7, .ro, .fixed, 127, 0, 127⟩,
   ⟨"s2_wire", 14, 7, .ro, .fixed, 127, 0, 127⟩,
   ⟨"s3_wire", 21, 7, .ro, .fixed, 127, 0, 127⟩]⟩
/-- CRD_LC_STAT: R204 (07_cords_and_virven_link.md). -/
def RegDef.CRD_LC_STAT : RegDef := ⟨.base, false, 0xa002000, 0, 1, 16, 16, 0, 1,
  [⟨"state", 0, 3, .ro, .fixed, 0, 0, 7⟩,
   ⟨"spares_used", 3, 2, .ro, .fixed, 0, 0, 3⟩,
   ⟨"rx_end", 7, 1, .ro, .fixed, 0, 0, 1⟩,
   ⟨"bad_waves", 8, 5, .ro, .fixed, 0, 0, 31⟩,
   ⟨"replays", 15, 16, .rc, .fixed, 0, 0, 65535⟩,
   ⟨"crc_err", 31, 16, .rc, .fixed, 0, 0, 65535⟩,
   ⟨"cap_err", 47, 3, .ro, .fixed, 0, 0, 7⟩,
   ⟨"bad_conduct", 50, 8, .rc, .fixed, 0, 0, 255⟩]⟩
/-- CRD_LC_MAP: R204 (07_cords_and_virven_link.md). -/
def RegDef.CRD_LC_MAP : RegDef := ⟨.base, false, 0xa002008, 0, 1, 16, 16, 0, 1,
  [⟨"w16", 0, 5, .ro, .fixed, 31, 0, 31⟩,
   ⟨"w17", 5, 5, .ro, .fixed, 31, 0, 31⟩]⟩
/-- CRD_FAR_CFG: R204 (07_cords_and_virven_link.md). -/
def RegDef.CRD_FAR_CFG : RegDef := ⟨.base, false, 0xa003000, 0, 1, 256, 2, 0, 1,
  [⟨"enable", 0, 1, .rw, .quiesce, 0, 0, 1⟩,
   ⟨"rate", 1, 1, .rw, .quiesce, 0, 0, 1⟩,
   ⟨"pkg", 2, 2, .rw, .quiesce, 0, 0, 3⟩,
   ⟨"encrypt", 4, 1, .rw, .quiesce, 0, 0, 1⟩]⟩
/-- CRD_FAR_STAT: R204 (07_cords_and_virven_link.md). -/
def RegDef.CRD_FAR_STAT : RegDef := ⟨.base, false, 0xa003008, 0, 1, 256, 2, 0, 1,
  [⟨"state", 0, 3, .ro, .fixed, 0, 0, 7⟩,
   ⟨"lanes_up", 3, 4, .ro, .fixed, 0, 0, 15⟩,
   ⟨"rtt_ns", 7, 16, .ro, .fixed, 0, 0, 65535⟩,
   ⟨"cap_err", 23, 3, .ro, .fixed, 0, 0, 7⟩,
   ⟨"bad_pkts", 26, 16, .rc, .fixed, 0, 0, 65535⟩,
   ⟨"replays", 42, 16, .rc, .fixed, 0, 0, 65535⟩]⟩
/-- CRD_FAR_CAP: R204 (07_cords_and_virven_link.md). -/
def RegDef.CRD_FAR_CAP : RegDef := ⟨.base, false, 0xa003040, 0, 1, 256, 2, 8, 8,
  [⟨"bytes", 0, 64, .ro, .fixed, 0, 0, 18446744073709551615⟩]⟩
/-- NOC_CFG: R230 (08_network_on_chip.md). -/
def RegDef.NOC_CFG : RegDef := ⟨.base, false, 0x2000000, 0, 1, 0, 1, 0, 1,
  [⟨"thr_on", 0, 7, .rw, .live, 95, 50, 99⟩,
   ⟨"thr_off", 7, 7, .rw, .live, 90, 40, 98⟩,
   ⟨"hold_max", 14, 8, .rw, .live, 100, 10, 255⟩,
   ⟨"stats_en", 22, 1, .rw, .live, 1, 0, 1⟩]⟩
/-- NOC_STATUS: R230 (08_network_on_chip.md). -/
def RegDef.NOC_STATUS : RegDef := ⟨.base, false, 0x2000008, 0, 1, 0, 1, 0, 1,
  [⟨"epoch", 0, 1, .ro, .fixed, 0, 0, 1⟩,
   ⟨"epoch_draining", 1, 1, .ro, .fixed, 0, 0, 1⟩,
   ⟨"rt_down", 2, 32, .ro, .fixed, 0, 0, 4294967295⟩,
   ⟨"throttling", 34, 1, .ro, .fixed, 0, 0, 1⟩,
   ⟨"old_flits", 35, 20, .ro, .fixed, 0, 0, 1048575⟩]⟩
/-- NOC_RT_STAT: R230 (08_network_on_chip.md). -/
def RegDef.NOC_RT_STAT : RegDef := ⟨.base, false, 0x2000100, 0, 1, 8, 32, 0, 1,
  [⟨"state", 0, 3, .ro, .fixed, 0, 0, 7⟩,
   ⟨"dropped", 3, 16, .rc, .fixed, 0, 0, 65535⟩,
   ⟨"ecc_corr", 19, 16, .rc, .fixed, 0, 0, 65535⟩,
   ⟨"aged", 35, 16, .rc, .fixed, 0, 0, 65535⟩,
   ⟨"util", 51, 7, .ro, .fixed, 0, 0, 127⟩]⟩
/-- NOC_ROUTE: R230 (08_network_on_chip.md). -/
def RegDef.NOC_ROUTE : RegDef := ⟨.base, false, 0x2010000, 0, 1, 2048, 32, 8, 131,
  [⟨"port", 0, 4, .rw, .staged, 0, 0, 15⟩,
   ⟨"alt", 4, 4, .rw, .staged, 0, 0, 15⟩,
   ⟨"valid", 8, 1, .rw, .staged, 0, 0, 1⟩,
   ⟨"alt_valid", 9, 1, .rw, .staged, 0, 0, 1⟩]⟩
/-- NOC_INIT_CFG: R230 (08_network_on_chip.md). -/
def RegDef.NOC_INIT_CFG : RegDef := ⟨.base, false, 0x2020000, 0, 1, 256, 256, 0, 1,
  [⟨"timeout", 0, 17, .rw, .live, 20, 1, 100000⟩,
   ⟨"hist_clr", 17, 1, .wo, .live, 0, 0, 1⟩]⟩
/-- NOC_INIT_RD: R230 (08_network_on_chip.md). -/
def RegDef.NOC_INIT_RD : RegDef := ⟨.base, false, 0x2020008, 0, 1, 256, 256, 0, 1,
  [⟨"bytes", 0, 64, .ro, .fixed, 0, 0, 18446744073709551615⟩]⟩
/-- NOC_INIT_WR: R230 (08_network_on_chip.md). -/
def RegDef.NOC_INIT_WR : RegDef := ⟨.base, false, 0x2020010, 0, 1, 256, 256, 0, 1,
  [⟨"bytes", 0, 64, .ro, .fixed, 0, 0, 18446744073709551615⟩]⟩
/-- NOC_INIT_ERR: R230 (08_network_on_chip.md). -/
def RegDef.NOC_INIT_ERR : RegDef := ⟨.base, false, 0x2020018, 0, 1, 256, 256, 0, 1,
  [⟨"timeouts", 0, 12, .rc, .fixed, 0, 0, 4095⟩,
   ⟨"late", 12, 12, .rc, .fixed, 0, 0, 4095⟩,
   ⟨"noroute", 24, 12, .rc, .fixed, 0, 0, 4095⟩,
   ⟨"domoff", 36, 12, .rc, .fixed, 0, 0, 4095⟩,
   ⟨"reject", 48, 12, .rc, .fixed, 0, 0, 4095⟩]⟩
/-- NOC_INIT_HIST: R230 (08_network_on_chip.md). -/
def RegDef.NOC_INIT_HIST : RegDef := ⟨.base, false, 0x2020040, 0, 1, 256, 256, 8, 16,
  [⟨"count", 0, 48, .ro, .fixed, 0, 0, 281474976710655⟩]⟩
/-- SSW_STATUS: R259 (09_stream_switch.md). -/
def RegDef.SSW_STATUS : RegDef := ⟨.base, false, 0x1000000, 0, 1, 0, 1, 0, 1,
  [⟨"de_up", 0, 9, .ro, .fixed, 0, 0, 511⟩,
   ⟨"spare_busy", 9, 1, .ro, .fixed, 0, 0, 1⟩,
   ⟨"overbooked", 10, 1, .ro, .fixed, 0, 0, 1⟩,
   ⟨"adm_err", 11, 3, .ro, .fixed, 0, 0, 7⟩,
   ⟨"adm_slot", 14, 12, .ro, .fixed, 0, 0, 4095⟩]⟩
/-- SSW_POOL: R259 (09_stream_switch.md). -/
def RegDef.SSW_POOL : RegDef := ⟨.base, false, 0x1000008, 0, 1, 0, 1, 0, 1,
  [⟨"free", 0, 17, .ro, .fixed, 0, 0, 131071⟩,
   ⟨"allotted", 17, 17, .ro, .fixed, 0, 0, 131071⟩,
   ⟨"reserved", 34, 17, .ro, .fixed, 0, 0, 131071⟩]⟩
/-- SSW_SLOT_CFG: R259 (09_stream_switch.md). -/
def RegDef.SSW_SLOT_CFG : RegDef := ⟨.base, false, 0x1010000, 0, 1, 64, 1024, 0, 1,
  [⟨"enable", 0, 1, .rw, .staged, 0, 0, 1⟩,
   ⟨"src_type", 1, 3, .rw, .staged, 0, 0, 3⟩,
   ⟨"src_unit", 4, 3, .rw, .staged, 0, 0, 7⟩,
   ⟨"src_idx", 7, 6, .rw, .staged, 0, 0, 63⟩,
   ⟨"sink_type", 13, 3, .rw, .staged, 0, 0, 3⟩,
   ⟨"sink_die", 16, 2, .rw, .staged, 0, 0, 3⟩,
   ⟨"sink_unit", 18, 3, .rw, .staged, 0, 0, 7⟩,
   ⟨"sink_idx", 21, 6, .rw, .staged, 0, 0, 63⟩] ++
   [⟨"sw_port", 27, 3, .rw, .staged, 0, 0, 7⟩,
   ⟨"fs", 30, 8, .rw, .staged, 0, 0, 255⟩,
   ⟨"kind", 38, 3, .rw, .staged, 0, 0, 4⟩,
   ⟨"cg", 41, 8, .rw, .staged, 0, 0, 255⟩,
   ⟨"seq_stamp", 49, 1, .rw, .staged, 0, 0, 1⟩]⟩
/-- SSW_SLOT_RATE: R259 (09_stream_switch.md). -/
def RegDef.SSW_SLOT_RATE : RegDef := ⟨.base, false, 0x1010008, 0, 1, 64, 1024, 0, 1,
  [⟨"unit_bytes", 0, 19, .rw, .staged, 4800, 1, 491520⟩,
   ⟨"units", 19, 13, .rw, .staged, 1080, 1, 8191⟩,
   ⟨"lat", 32, 14, .rw, .staged, 3840, 0, 16383⟩,
   ⟨"exact", 46, 1, .rw, .staged, 1, 0, 1⟩,
   ⟨"peak", 47, 10, .rw, .staged, 0, 0, 800⟩]⟩
/-- SSW_SLOT_TWIN: R259 (09_stream_switch.md). -/
def RegDef.SSW_SLOT_TWIN : RegDef := ⟨.base, false, 0x1010010, 0, 1, 64, 1024, 0, 1,
  [⟨"twin", 0, 12, .rw, .staged, 0, 0, 4095⟩,
   ⟨"twin_valid", 12, 1, .rw, .staged, 0, 0, 1⟩,
   ⟨"copy", 13, 1, .rw, .staged, 0, 0, 1⟩,
   ⟨"skew_max", 14, 7, .rw, .staged, 64, 1, 64⟩,
   ⟨"rejoin", 21, 5, .rw, .staged, 16, 1, 31⟩,
   ⟨"loss_units", 26, 5, .rw, .staged, 8, 1, 31⟩]⟩
/-- SSW_SLOT_STAT: R259 (09_stream_switch.md). -/
def RegDef.SSW_SLOT_STAT : RegDef := ⟨.base, false, 0x1010018, 0, 1, 64, 1024, 0, 1,
  [⟨"state", 0, 3, .ro, .fixed, 0, 0, 7⟩,
   ⟨"prot", 3, 2, .ro, .fixed, 0, 0, 3⟩,
   ⟨"copy_lost", 5, 1, .ro, .fixed, 0, 0, 1⟩,
   ⟨"resv", 6, 19, .ro, .fixed, 0, 0, 524287⟩,
   ⟨"allot", 25, 16, .ro, .fixed, 0, 0, 65535⟩,
   ⟨"skew_now", 41, 7, .ro, .fixed, 0, 0, 127⟩,
   ⟨"overbooked", 48, 1, .ro, .fixed, 0, 0, 1⟩]⟩
/-- SSW_SLOT_ERR: R259 (09_stream_switch.md). -/
def RegDef.SSW_SLOT_ERR : RegDef := ⟨.base, false, 0x1010020, 0, 1, 64, 1024, 0, 1,
  [⟨"bad_units", 0, 16, .rc, .fixed, 0, 0, 65535⟩,
   ⟨"late", 16, 16, .rc, .fixed, 0, 0, 65535⟩,
   ⟨"incomplete", 32, 16, .rc, .fixed, 0, 0, 65535⟩,
   ⟨"overrun", 48, 16, .rc, .fixed, 0, 0, 65535⟩]⟩
/-- SSW_SLOT_MRG: R259 (09_stream_switch.md). -/
def RegDef.SSW_SLOT_MRG : RegDef := ⟨.base, false, 0x1010028, 0, 1, 64, 1024, 0, 1,
  [⟨"dup", 0, 16, .rc, .fixed, 0, 0, 65535⟩,
   ⟨"stale", 16, 16, .rc, .fixed, 0, 0, 65535⟩,
   ⟨"lost", 32, 16, .rc, .fixed, 0, 0, 65535⟩,
   ⟨"switched", 48, 16, .rc, .fixed, 0, 0, 65535⟩]⟩
/-- SSW_FS_CFG: R259 (09_stream_switch.md). -/
def RegDef.SSW_FS_CFG : RegDef := ⟨.base, false, 0x1020000, 0, 1, 32, 64, 0, 1,
  [⟨"enable", 0, 1, .rw, .quiesce, 0, 0, 1⟩,
   ⟨"depth", 1, 5, .rw, .quiesce, 3, 2, 16⟩,
   ⟨"stack", 6, 3, .rw, .quiesce, 0, 0, 7⟩,
   ⟨"mirrored", 9, 1, .rw, .quiesce, 0, 0, 1⟩,
   ⟨"mirror_stack", 10, 3, .rw, .quiesce, 0, 0, 7⟩,
   ⟨"key_id", 13, 7, .rw, .quiesce, 0, 0, 119⟩,
   ⟨"base", 20, 14, .rw, .quiesce, 0, 0, 12287⟩,
   ⟨"rd_cg", 34, 8, .rw, .quiesce, 0, 0, 255⟩] ++
   [⟨"line0", 42, 13, .rw, .quiesce, 42, 1, 8191⟩,
   ⟨"line_step", 55, 8, .rw, .quiesce, 1, 1, 255⟩]⟩
/-- SSW_FS_STAT: R259 (09_stream_switch.md). -/
def RegDef.SSW_FS_STAT : RegDef := ⟨.base, false, 0x1020008, 0, 1, 32, 64, 0, 1,
  [⟨"w_slot", 0, 4, .ro, .fixed, 0, 0, 15⟩,
   ⟨"r_slot", 4, 4, .ro, .fixed, 0, 0, 15⟩,
   ⟨"mirror_valid", 8, 1, .ro, .fixed, 0, 0, 1⟩,
   ⟨"mirror_rebuild", 9, 1, .ro, .fixed, 0, 0, 1⟩,
   ⟨"repeats", 10, 16, .rc, .fixed, 0, 0, 65535⟩,
   ⟨"drops", 26, 16, .rc, .fixed, 0, 0, 65535⟩,
   ⟨"redirected", 42, 12, .rc, .fixed, 0, 0, 4095⟩,
   ⟨"fs_late", 54, 10, .rc, .fixed, 0, 0, 1023⟩]⟩
/-- SSW_FSRC: R259 (09_stream_switch.md). -/
def RegDef.SSW_FSRC : RegDef := ⟨.base, false, 0x1030000, 0, 1, 512, 3, 8, 64,
  [⟨"enable", 0, 1, .rw, .staged, 0, 0, 1⟩,
   ⟨"slot", 1, 10, .rw, .staged, 0, 0, 1023⟩,
   ⟨"channel", 11, 1, .rw, .staged, 0, 0, 1⟩]⟩
/-- SSW_RESV: R259 (09_stream_switch.md). -/
def RegDef.SSW_RESV : RegDef := ⟨.base, false, 0x1040000, 0, 1, 128, 32, 8, 16,
  [⟨"resv", 0, 19, .ro, .fixed, 0, 0, 524287⟩,
   ⟨"limit", 19, 19, .ro, .fixed, 0, 0, 524287⟩,
   ⟨"overbooked", 38, 1, .ro, .fixed, 0, 0, 1⟩]⟩
/-- LN_REF: R293 (10_serial_lanes.md). -/
def RegDef.LN_REF : RegDef := ⟨.base, false, 0x4000000, 0, 1, 8, 2, 0, 1,
  [⟨"freq_khz", 0, 19, .rw, .quiesce, 156250, 100000, 325000⟩,
   ⟨"spread", 19, 1, .rw, .quiesce, 0, 0, 1⟩,
   ⟨"present", 20, 1, .ro, .fixed, 0, 0, 1⟩,
   ⟨"in_range", 21, 1, .ro, .fixed, 0, 0, 1⟩]⟩
/-- LN_CFG: R293 (10_serial_lanes.md). -/
def RegDef.LN_CFG : RegDef := ⟨.base, false, 0x4001000, 0, 1, 128, 32, 0, 1,
  [⟨"mode", 0, 3, .rw, .quiesce, 0, 0, 4⟩,
   ⟨"rate", 3, 5, .rw, .quiesce, 0, 0, 31⟩,
   ⟨"ref_sel", 8, 1, .rw, .quiesce, 0, 0, 1⟩,
   ⟨"variant", 9, 2, .rw, .quiesce, 0, 0, 3⟩,
   ⟨"pg", 11, 3, .rw, .quiesce, 0, 0, 5⟩,
   ⟨"tx_pol", 14, 1, .rw, .quiesce, 0, 0, 1⟩,
   ⟨"rx_pol", 15, 1, .rw, .quiesce, 0, 0, 1⟩,
   ⟨"loopback", 16, 2, .rw, .quiesce, 0, 0, 2⟩] ++
   [⟨"tx_en", 18, 1, .rw, .quiesce, 1, 0, 1⟩,
   ⟨"rx_en", 19, 1, .rw, .quiesce, 1, 0, 1⟩]⟩
/-- LN_STAT: R293 (10_serial_lanes.md). -/
def RegDef.LN_STAT : RegDef := ⟨.base, false, 0x4001008, 0, 1, 128, 32, 0, 1,
  [⟨"state", 0, 4, .ro, .fixed, 0, 0, 15⟩,
   ⟨"sig_det", 4, 1, .ro, .fixed, 0, 0, 1⟩,
   ⟨"cdr_lock", 5, 1, .ro, .fixed, 0, 0, 1⟩,
   ⟨"retrain", 6, 1, .ro, .fixed, 0, 0, 1⟩,
   ⟨"err", 7, 4, .ro, .fixed, 0, 0, 15⟩,
   ⟨"fails", 11, 16, .rc, .fixed, 0, 0, 65535⟩,
   ⟨"stuff_err", 27, 16, .rc, .fixed, 0, 0, 65535⟩,
   ⟨"crc_err", 43, 16, .rc, .fixed, 0, 0, 65535⟩]⟩
/-- LN_TXEQ: R293 (10_serial_lanes.md). -/
def RegDef.LN_TXEQ : RegDef := ⟨.base, false, 0x4001010, 0, 1, 128, 32, 0, 1,
  [⟨"c_m2", 0, 6, .rw, .live, 0, 0, 63⟩,
   ⟨"c_m1", 6, 6, .rw, .live, 60, 0, 63⟩,
   ⟨"c_0", 12, 6, .rw, .live, 52, 24, 63⟩,
   ⟨"c_p1", 18, 6, .rw, .live, 57, 0, 63⟩]⟩
/-- LN_RXEQ: R293 (10_serial_lanes.md). -/
def RegDef.LN_RXEQ : RegDef := ⟨.base, false, 0x4001018, 0, 1, 128, 32, 0, 1,
  [⟨"adapt", 0, 2, .rw, .live, 0, 0, 2⟩,
   ⟨"ctle", 2, 5, .rw, .live, 16, 0, 31⟩,
   ⟨"vga", 7, 5, .rw, .live, 16, 0, 31⟩,
   ⟨"dfe_taps", 12, 5, .rw, .live, 16, 0, 16⟩]⟩
/-- LN_PAT: R293 (10_serial_lanes.md). -/
def RegDef.LN_PAT : RegDef := ⟨.base, false, 0x4001020, 0, 1, 128, 32, 0, 1,
  [⟨"gen", 0, 3, .rw, .live, 0, 0, 6⟩,
   ⟨"chk", 3, 3, .rw, .live, 0, 0, 6⟩,
   ⟨"gen_inv", 6, 1, .rw, .live, 0, 0, 1⟩,
   ⟨"chk_inv", 7, 1, .rw, .live, 0, 0, 1⟩]⟩
/-- LN_PAT_USER: R293 (10_serial_lanes.md). -/
def RegDef.LN_PAT_USER : RegDef := ⟨.base, false, 0x4001028, 0, 1, 128, 32, 0, 1,
  [⟨"pattern", 0, 64, .rw, .live, 0, 0, 18446744073709551615⟩]⟩
/-- LN_CHK: R293 (10_serial_lanes.md). -/
def RegDef.LN_CHK : RegDef := ⟨.base, false, 0x4001030, 0, 1, 128, 32, 0, 1,
  [⟨"chk_lock", 0, 1, .ro, .fixed, 0, 0, 1⟩,
   ⟨"chk_errors", 1, 47, .rc, .fixed, 0, 0, 140737488355327⟩]⟩
/-- LN_CHK_BITS: R293 (10_serial_lanes.md). -/
def RegDef.LN_CHK_BITS : RegDef := ⟨.base, false, 0x4001038, 0, 1, 128, 32, 0, 1,
  [⟨"bits", 0, 64, .rc, .fixed, 0, 0, 18446744073709551615⟩]⟩
/-- LN_ERRINJ: R293 (10_serial_lanes.md). -/
def RegDef.LN_ERRINJ : RegDef := ⟨.base, false, 0x4001040, 0, 1, 128, 32, 0, 1,
  [⟨"inj_mode", 0, 2, .rw, .live, 0, 0, 3⟩,
   ⟨"burst_len", 2, 6, .rw, .live, 0, 0, 63⟩,
   ⟨"inj_n", 8, 40, .rw, .live, 1000000, 10, 1099511627775⟩,
   ⟨"go", 48, 1, .wo, .live, 0, 0, 1⟩]⟩
/-- LN_CNT: R293 (10_serial_lanes.md). -/
def RegDef.LN_CNT : RegDef := ⟨.base, false, 0x4001048, 0, 1, 128, 32, 0, 1,
  [⟨"replays_sent", 0, 16, .rc, .fixed, 0, 0, 65535⟩,
   ⟨"naks_sent", 16, 16, .rc, .fixed, 0, 0, 65535⟩,
   ⟨"bad_cap", 32, 16, .rc, .fixed, 0, 0, 65535⟩,
   ⟨"bad_conduct", 48, 16, .rc, .fixed, 0, 0, 65535⟩]⟩
/-- LN_NL_CFG: R293 (10_serial_lanes.md). -/
def RegDef.LN_NL_CFG : RegDef := ⟨.base, false, 0x4008000, 0, 1, 64, 6, 0, 1,
  [⟨"lanes", 0, 32, .rw, .quiesce, 0, 0, 4294967295⟩,
   ⟨"enable", 32, 1, .rw, .quiesce, 0, 0, 1⟩,
   ⟨"simplex", 33, 1, .rw, .quiesce, 0, 0, 1⟩,
   ⟨"user", 34, 2, .rw, .quiesce, 0, 0, 2⟩,
   ⟨"pg", 36, 3, .rw, .quiesce, 0, 0, 5⟩,
   ⟨"link_id", 39, 16, .rw, .quiesce, 0, 0, 65535⟩,
   ⟨"ack_interval", 55, 6, .rw, .live, 32, 4, 63⟩]⟩
/-- LN_NL_STAT: R293 (10_serial_lanes.md). -/
def RegDef.LN_NL_STAT : RegDef := ⟨.base, false, 0x4008008, 0, 1, 64, 6, 0, 1,
  [⟨"state", 0, 3, .ro, .fixed, 0, 0, 7⟩,
   ⟨"lanes_up", 3, 16, .ro, .fixed, 0, 0, 65535⟩,
   ⟨"xoff_rx", 19, 1, .ro, .fixed, 0, 0, 1⟩,
   ⟨"xoff_tx", 20, 1, .ro, .fixed, 0, 0, 1⟩,
   ⟨"rtt_ns", 21, 16, .ro, .fixed, 0, 0, 65535⟩,
   ⟨"restripes", 37, 16, .rc, .fixed, 0, 0, 65535⟩]⟩
/-- MP_PG_STAT: R319 (11_media_ports.md). -/
def RegDef.MP_PG_STAT : RegDef := ⟨.base, false, 0x5000000, 2097152, 6, 0, 1, 0, 1,
  [⟨"sdi_lock", 0, 8, .ro, .fixed, 0, 0, 255⟩,
   ⟨"mac_up", 8, 4, .ro, .fixed, 0, 0, 15⟩,
   ⟨"nl_up", 12, 1, .ro, .fixed, 0, 0, 1⟩,
   ⟨"fenced", 13, 1, .ro, .fixed, 0, 0, 1⟩,
   ⟨"pn_warn", 14, 4, .ro, .fixed, 0, 0, 15⟩]⟩
/-- MP_SDI_CFG: R319 (11_media_ports.md). -/
def RegDef.MP_SDI_CFG : RegDef := ⟨.base, false, 0x5001000, 2097152, 6, 64, 8, 0, 1,
  [⟨"enable", 0, 1, .rw, .staged, 0, 0, 1⟩,
   ⟨"dir", 1, 1, .rw, .staged, 0, 0, 1⟩,
   ⟨"lane", 2, 5, .rw, .staged, 0, 0, 23⟩,
   ⟨"links", 7, 2, .rw, .staged, 0, 0, 2⟩,
   ⟨"level_b", 9, 2, .rw, .staged, 0, 0, 2⟩,
   ⟨"crc_drop", 11, 1, .rw, .staged, 1, 0, 1⟩,
   ⟨"pid_check", 12, 1, .rw, .staged, 0, 0, 1⟩,
   ⟨"pid", 13, 32, .rw, .staged, 0, 0, 4294967295⟩] ++
   [⟨"cg", 45, 8, .rw, .staged, 0, 0, 255⟩]⟩
/-- MP_SDI_STAT: R319 (11_media_ports.md). -/
def RegDef.MP_SDI_STAT : RegDef := ⟨.base, false, 0x5001008, 2097152, 6, 64, 8, 0, 1,
  [⟨"locked", 0, 1, .ro, .fixed, 0, 0, 1⟩,
   ⟨"pid_valid", 1, 1, .ro, .fixed, 0, 0, 1⟩,
   ⟨"pid", 2, 32, .ro, .fixed, 0, 0, 4294967295⟩,
   ⟨"lines", 34, 13, .ro, .fixed, 0, 0, 8191⟩,
   ⟨"interlaced", 47, 1, .ro, .fixed, 0, 0, 1⟩]⟩
/-- MP_SDI_ERR: R319 (11_media_ports.md). -/
def RegDef.MP_SDI_ERR : RegDef := ⟨.base, false, 0x5001010, 2097152, 6, 64, 8, 0, 1,
  [⟨"crc_err", 0, 16, .rc, .fixed, 0, 0, 65535⟩,
   ⟨"pid_err", 16, 16, .rc, .fixed, 0, 0, 65535⟩,
   ⟨"lines_missed", 32, 16, .rc, .fixed, 0, 0, 65535⟩,
   ⟨"trs_err", 48, 16, .rc, .fixed, 0, 0, 65535⟩]⟩
/-- MP_MAC_CFG: R319 (11_media_ports.md). -/
def RegDef.MP_MAC_CFG : RegDef := ⟨.base, false, 0x5002000, 2097152, 6, 256, 4, 0, 1,
  [⟨"enable", 0, 1, .rw, .staged, 0, 0, 1⟩,
   ⟨"lane", 1, 5, .rw, .staged, 0, 0, 31⟩,
   ⟨"width", 6, 2, .rw, .staged, 0, 0, 1⟩,
   ⟨"rs_fec", 8, 1, .rw, .staged, 1, 0, 1⟩,
   ⟨"max_frame", 9, 14, .rw, .staged, 1522, 64, 9216⟩,
   ⟨"ptp_en", 23, 1, .rw, .staged, 0, 0, 1⟩,
   ⟨"one_step", 24, 1, .rw, .staged, 0, 0, 1⟩,
   ⟨"ptp_udp", 25, 1, .rw, .staged, 1, 0, 1⟩] ++
   [⟨"vid", 26, 12, .rw, .staged, 0, 0, 4094⟩]⟩
/-- MP_MAC_ADDR: R319 (11_media_ports.md). -/
def RegDef.MP_MAC_ADDR : RegDef := ⟨.base, false, 0x5002008, 2097152, 6, 256, 4, 0, 1,
  [⟨"addr", 0, 48, .rw, .staged, 0, 0, 281474976710655⟩]⟩
/-- MP_MAC_IP: R319 (11_media_ports.md). -/
def RegDef.MP_MAC_IP : RegDef := ⟨.base, false, 0x5002010, 2097152, 6, 256, 4, 0, 1,
  [⟨"ip", 0, 32, .rw, .staged, 0, 0, 4294967295⟩]⟩
/-- MP_MAC_GW: R319 (11_media_ports.md). -/
def RegDef.MP_MAC_GW : RegDef := ⟨.base, false, 0x5002018, 2097152, 6, 256, 4, 0, 1,
  [⟨"gw", 0, 48, .rw, .staged, 0, 0, 281474976710655⟩]⟩
/-- MP_MAC_CNT: R319 (11_media_ports.md). -/
def RegDef.MP_MAC_CNT : RegDef := ⟨.base, false, 0x5002020, 2097152, 6, 256, 4, 0, 1,
  [⟨"fcs_err", 0, 16, .rc, .fixed, 0, 0, 65535⟩,
   ⟨"size_err", 16, 16, .rc, .fixed, 0, 0, 65535⟩,
   ⟨"pause_rx", 32, 16, .rc, .fixed, 0, 0, 65535⟩,
   ⟨"ip_err", 48, 16, .rc, .fixed, 0, 0, 65535⟩]⟩
/-- MP_TS_ADJ: R319 (11_media_ports.md). -/
def RegDef.MP_TS_ADJ : RegDef := ⟨.base, false, 0x5002028, 2097152, 6, 256, 4, 0, 1,
  [⟨"tx", 0, 32, .rw, .live, 0, 0, 4294967295⟩,
   ⟨"rx", 32, 32, .rw, .live, 0, 0, 4294967295⟩]⟩
/-- MP_SEC_CFG: R319 (11_media_ports.md). -/
def RegDef.MP_SEC_CFG : RegDef := ⟨.base, false, 0x5003000, 2097152, 6, 512, 4, 0, 1,
  [⟨"enable", 0, 1, .rw, .staged, 0, 0, 1⟩,
   ⟨"xpn", 1, 1, .rw, .staged, 0, 0, 1⟩,
   ⟨"encrypt", 2, 1, .rw, .staged, 1, 0, 1⟩,
   ⟨"tx_an", 3, 2, .rw, .staged, 0, 0, 3⟩,
   ⟨"replay_protect", 5, 1, .rw, .staged, 1, 0, 1⟩,
   ⟨"replay_window", 6, 32, .rw, .staged, 0, 0, 4294967295⟩]⟩
/-- MP_SEC_TXPN: R319 (11_media_ports.md). -/
def RegDef.MP_SEC_TXPN : RegDef := ⟨.base, false, 0x5003008, 2097152, 6, 512, 4, 0, 1,
  [⟨"pn", 0, 64, .ro, .fixed, 0, 0, 18446744073709551615⟩]⟩
/-- MP_SEC_CNT: R319 (11_media_ports.md). -/
def RegDef.MP_SEC_CNT : RegDef := ⟨.base, false, 0x5003010, 2097152, 6, 512, 4, 0, 1,
  [⟨"untagged", 0, 16, .rc, .fixed, 0, 0, 65535⟩,
   ⟨"icv_fail", 16, 16, .rc, .fixed, 0, 0, 65535⟩,
   ⟨"late_pn", 32, 16, .rc, .fixed, 0, 0, 65535⟩,
   ⟨"no_sa", 48, 16, .rc, .fixed, 0, 0, 65535⟩]⟩
/-- MP_SEC_RXSC: R319 (11_media_ports.md). -/
def RegDef.MP_SEC_RXSC : RegDef := ⟨.base, false, 0x5003100, 2097152, 6, 512, 4, 8, 8,
  [⟨"sci", 0, 64, .rw, .staged, 0, 0, 18446744073709551615⟩]⟩
/-- MP_RXF_CFG: R319 (11_media_ports.md). -/
def RegDef.MP_RXF_CFG : RegDef := ⟨.base, false, 0x5010000, 2097152, 6, 64, 64, 0, 1,
  [⟨"enable", 0, 1, .rw, .staged, 0, 0, 1⟩,
   ⟨"type", 1, 4, .rw, .staged, 0, 0, 8⟩,
   ⟨"port", 5, 3, .rw, .staged, 0, 0, 7⟩,
   ⟨"mac_b", 8, 3, .rw, .staged, 0, 0, 7⟩,
   ⟨"merge", 11, 1, .rw, .staged, 0, 0, 1⟩,
   ⟨"cg", 12, 8, .rw, .staged, 0, 0, 255⟩,
   ⟨"n", 20, 8, .rw, .staged, 1, 1, 255⟩,
   ⟨"asm_us", 28, 14, .rw, .staged, 1000, 1, 10000⟩] ++
   [⟨"arate", 42, 1, .rw, .staged, 0, 0, 1⟩,
   ⟨"ssrc_any", 43, 1, .rw, .staged, 0, 0, 1⟩,
   ⟨"pt", 44, 7, .rw, .staged, 96, 0, 127⟩,
   ⟨"pkt_samples", 51, 12, .rw, .staged, 48, 1, 4095⟩]⟩
/-- MP_RXF_ADDR: R319 (11_media_ports.md). -/
def RegDef.MP_RXF_ADDR : RegDef := ⟨.base, false, 0x5010008, 2097152, 6, 64, 64, 0, 1,
  [⟨"dst_ip", 0, 32, .rw, .staged, 0, 0, 4294967295⟩,
   ⟨"udp", 32, 16, .rw, .staged, 0, 0, 65535⟩,
   ⟨"vid", 48, 12, .rw, .staged, 0, 0, 4095⟩]⟩
/-- MP_RXF_SRC: R319 (11_media_ports.md). -/
def RegDef.MP_RXF_SRC : RegDef := ⟨.base, false, 0x5010010, 2097152, 6, 64, 64, 0, 1,
  [⟨"src_ip", 0, 32, .rw, .staged, 0, 0, 4294967295⟩,
   ⟨"ssrc", 32, 32, .rw, .staged, 0, 0, 4294967295⟩]⟩
/-- MP_RXF_STAT: R319 (11_media_ports.md). -/
def RegDef.MP_RXF_STAT : RegDef := ⟨.base, false, 0x5010018, 2097152, 6, 64, 64, 0, 1,
  [⟨"state", 0, 2, .ro, .fixed, 0, 0, 3⟩,
   ⟨"leg_lost", 2, 1, .ro, .fixed, 0, 0, 1⟩]⟩
/-- MP_RXF_CNT: R319 (11_media_ports.md). -/
def RegDef.MP_RXF_CNT : RegDef := ⟨.base, false, 0x5010020, 2097152, 6, 64, 64, 0, 1,
  [⟨"bad_pkts", 0, 16, .rc, .fixed, 0, 0, 65535⟩,
   ⟨"dup_pkts", 16, 16, .rc, .fixed, 0, 0, 65535⟩,
   ⟨"incomplete", 32, 16, .rc, .fixed, 0, 0, 65535⟩,
   ⟨"ts_err", 48, 16, .rc, .fixed, 0, 0, 65535⟩]⟩
/-- MP_TXF_CFG: R319 (11_media_ports.md). -/
def RegDef.MP_TXF_CFG : RegDef := ⟨.base, false, 0x5020000, 2097152, 6, 64, 64, 0, 1,
  [⟨"enable", 0, 1, .rw, .staged, 0, 0, 1⟩,
   ⟨"type", 1, 4, .rw, .staged, 0, 0, 8⟩,
   ⟨"port", 5, 3, .rw, .staged, 0, 0, 7⟩,
   ⟨"mac_b", 8, 3, .rw, .staged, 0, 0, 7⟩,
   ⟨"dup", 11, 1, .rw, .staged, 0, 0, 1⟩,
   ⟨"cg", 12, 8, .rw, .staged, 0, 0, 255⟩,
   ⟨"ppl", 20, 8, .rw, .staged, 4, 1, 255⟩,
   ⟨"pkt_bytes", 28, 11, .rw, .staged, 1200, 64, 1460⟩] ++
   [⟨"tx_lines", 39, 8, .rw, .staged, 5, 1, 255⟩,
   ⟨"fill", 47, 1, .rw, .staged, 0, 0, 1⟩,
   ⟨"anc_line", 48, 13, .rw, .staged, 9, 1, 8191⟩]⟩
/-- MP_TXF_ADDR: R319 (11_media_ports.md). -/
def RegDef.MP_TXF_ADDR : RegDef := ⟨.base, false, 0x5020008, 2097152, 6, 64, 64, 0, 1,
  [⟨"dst_ip", 0, 32, .rw, .staged, 0, 0, 4294967295⟩,
   ⟨"dst_udp", 32, 16, .rw, .staged, 0, 0, 65535⟩,
   ⟨"src_udp", 48, 16, .rw, .staged, 0, 0, 65535⟩]⟩
/-- MP_TXF_ADDRB: R319 (11_media_ports.md). -/
def RegDef.MP_TXF_ADDRB : RegDef := ⟨.base, false, 0x5020010, 2097152, 6, 64, 64, 0, 1,
  [⟨"dst_ip", 0, 32, .rw, .staged, 0, 0, 4294967295⟩,
   ⟨"dst_udp", 32, 16, .rw, .staged, 0, 0, 65535⟩,
   ⟨"src_udp", 48, 16, .rw, .staged, 0, 0, 65535⟩]⟩
/-- MP_TXF_RTP: R319 (11_media_ports.md). -/
def RegDef.MP_TXF_RTP : RegDef := ⟨.base, false, 0x5020018, 2097152, 6, 64, 64, 0, 1,
  [⟨"ssrc", 0, 32, .rw, .staged, 0, 0, 4294967295⟩,
   ⟨"pt", 32, 7, .rw, .staged, 0, 0, 127⟩,
   ⟨"pkt_samples", 39, 12, .rw, .staged, 0, 0, 4095⟩]⟩
/-- MP_TXF_TIME: R319 (11_media_ports.md). -/
def RegDef.MP_TXF_TIME : RegDef := ⟨.base, false, 0x5020020, 2097152, 6, 64, 64, 0, 1,
  [⟨"tro_ns", 0, 25, .rw, .staged, 0, 0, 33554431⟩]⟩
/-- MP_TXF_CNT: R319 (11_media_ports.md). -/
def RegDef.MP_TXF_CNT : RegDef := ⟨.base, false, 0x5020028, 2097152, 6, 64, 64, 0, 1,
  [⟨"tx_missed", 0, 16, .rc, .fixed, 0, 0, 65535⟩,
   ⟨"tx_late", 16, 16, .rc, .fixed, 0, 0, 65535⟩,
   ⟨"anc_dropped", 32, 16, .rc, .fixed, 0, 0, 65535⟩,
   ⟨"pn_dropped", 48, 16, .rc, .fixed, 0, 0, 65535⟩]⟩
/-- PK_CFG: R353 (12_signal_engines.md). -/
def RegDef.PK_CFG : RegDef := ⟨.base, false, 0x6000000, 1048576, 8, 0, 1, 0, 1,
  [⟨"accept", 0, 1, .rw, .live, 1, 0, 1⟩,
   ⟨"pm_scrub", 1, 1, .rw, .live, 1, 0, 1⟩]⟩
/-- PK_ENG_RUN: R353 (12_signal_engines.md). -/
def RegDef.PK_ENG_RUN : RegDef := ⟨.base, false, 0x6000008, 1048576, 8, 0, 1, 0, 1,
  [⟨"running", 0, 32, .ro, .fixed, 0, 0, 4294967295⟩,
   ⟨"halted", 32, 32, .ro, .fixed, 0, 0, 4294967295⟩]⟩
/-- PK_ENG_POOL: R353 (12_signal_engines.md). -/
def RegDef.PK_ENG_POOL : RegDef := ⟨.base, false, 0x6000010, 1048576, 8, 0, 1, 0, 1,
  [⟨"pool", 0, 32, .ro, .fixed, 0, 0, 4294967295⟩,
   ⟨"failed", 32, 32, .ro, .fixed, 0, 0, 4294967295⟩]⟩
/-- PK_IMEM_CTL: R353 (12_signal_engines.md). -/
def RegDef.PK_IMEM_CTL : RegDef := ⟨.base, false, 0x6000018, 1048576, 8, 0, 1, 0, 1,
  [⟨"open", 0, 1, .rw, .quiesce, 0, 0, 1⟩]⟩
/-- PK_PM_ERR: R353 (12_signal_engines.md). -/
def RegDef.PK_PM_ERR : RegDef := ⟨.base, false, 0x6000020, 1048576, 8, 0, 1, 0, 1,
  [⟨"corrected", 0, 16, .rc, .fixed, 0, 0, 65535⟩,
   ⟨"uncorrectable", 16, 16, .rc, .fixed, 0, 0, 65535⟩]⟩
/-- PK_STIM: R353 (12_signal_engines.md). -/
def RegDef.PK_STIM : RegDef := ⟨.base, false, 0x6000028, 1048576, 8, 0, 1, 0, 1,
  [⟨"stim_en", 0, 32, .rw, .live, 0, 0, 4294967295⟩,
   ⟨"stim_drop", 32, 16, .rc, .fixed, 0, 0, 65535⟩]⟩
/-- PK_ENG_CFG: R353 (12_signal_engines.md). -/
def RegDef.PK_ENG_CFG : RegDef := ⟨.base, false, 0x6001000, 1048576, 8, 64, 32, 0, 1,
  [⟨"vec_line", 0, 12, .rw, .quiesce, 0, 0, 4095⟩,
   ⟨"retire", 12, 1, .rw, .live, 0, 0, 1⟩]⟩
/-- PK_ENG_STAT: R353 (12_signal_engines.md). -/
def RegDef.PK_ENG_STAT : RegDef := ⟨.base, false, 0x6001008, 1048576, 8, 64, 32, 0, 1,
  [⟨"state", 0, 3, .ro, .fixed, 0, 0, 7⟩,
   ⟨"queue", 3, 13, .ro, .fixed, 0, 0, 8191⟩,
   ⟨"exc", 16, 4, .ro, .fixed, 0, 0, 15⟩,
   ⟨"ll_open", 20, 1, .ro, .fixed, 0, 0, 1⟩,
   ⟨"in_handler", 21, 1, .ro, .fixed, 0, 0, 1⟩,
   ⟨"redirect", 22, 1, .ro, .fixed, 0, 0, 1⟩,
   ⟨"stream_pending", 23, 1, .ro, .fixed, 0, 0, 1⟩,
   ⟨"preempt_pending", 24, 1, .ro, .fixed, 0, 0, 1⟩]⟩
/-- PK_ENG_PC: R353 (12_signal_engines.md). -/
def RegDef.PK_ENG_PC : RegDef := ⟨.base, false, 0x6001010, 1048576, 8, 64, 32, 0, 1,
  [⟨"pc", 0, 18, .ro, .fixed, 0, 0, 262143⟩,
   ⟨"exc_pc", 18, 18, .ro, .fixed, 0, 0, 262143⟩]⟩
/-- PK_ENG_CNT: R353 (12_signal_engines.md). -/
def RegDef.PK_ENG_CNT : RegDef := ⟨.base, false, 0x6001018, 1048576, 8, 64, 32, 0, 1,
  [⟨"stall_cycles", 0, 32, .rc, .fixed, 0, 0, 4294967295⟩,
   ⟨"exceptions", 32, 16, .rc, .fixed, 0, 0, 65535⟩,
   ⟨"preempts", 48, 16, .rc, .fixed, 0, 0, 65535⟩]⟩
/-- PK_SRX_CFG: R353 (12_signal_engines.md). -/
def RegDef.PK_SRX_CFG : RegDef := ⟨.base, false, 0x6002000, 1048576, 8, 32, 64, 0, 1,
  [⟨"enable", 0, 1, .rw, .quiesce, 0, 0, 1⟩,
   ⟨"base", 1, 14, .rw, .quiesce, 0, 0, 16383⟩,
   ⟨"entry_lines", 15, 13, .rw, .quiesce, 76, 2, 7681⟩,
   ⟨"entries", 28, 10, .rw, .quiesce, 8, 2, 1023⟩,
   ⟨"evt", 38, 2, .rw, .live, 0, 0, 2⟩,
   ⟨"evt_eng", 40, 5, .rw, .live, 0, 0, 31⟩,
   ⟨"evt_queue", 45, 11, .rw, .live, 0, 0, 2047⟩]⟩
/-- PK_SRX_STAT: R353 (12_signal_engines.md). -/
def RegDef.PK_SRX_STAT : RegDef := ⟨.base, false, 0x6002008, 1048576, 8, 32, 64, 0, 1,
  [⟨"produced", 0, 32, .ro, .fixed, 0, 0, 4294967295⟩,
   ⟨"rx_drop", 32, 16, .rc, .fixed, 0, 0, 65535⟩,
   ⟨"rx_bad", 48, 16, .rc, .fixed, 0, 0, 65535⟩]⟩
/-- PK_STX_STAT: R353 (12_signal_engines.md). -/
def RegDef.PK_STX_STAT : RegDef := ⟨.base, false, 0x6002010, 1048576, 8, 32, 64, 0, 1,
  [⟨"sent", 0, 32, .ro, .fixed, 0, 0, 4294967295⟩,
   ⟨"refused", 32, 16, .rc, .fixed, 0, 0, 65535⟩]⟩
/-- KEN_CFG: R414 (14_kennel.md). -/
def RegDef.KEN_CFG : RegDef := ⟨.base, false, 0x0, 0, 1, 0, 1, 0, 1,
  [⟨"spill_en", 0, 1, .rw, .quiesce, 0, 0, 1⟩,
   ⟨"spill_mirror", 1, 1, .rw, .quiesce, 0, 0, 1⟩,
   ⟨"spill_base", 2, 14, .rw, .quiesce, 0, 0, 12286⟩,
   ⟨"max_reruns", 16, 2, .rw, .live, 2, 0, 3⟩]⟩
/-- KEN_STATUS: R414 (14_kennel.md). -/
def RegDef.KEN_STATUS : RegDef := ⟨.base, false, 0x8, 0, 1, 0, 1, 0, 1,
  [⟨"lane_up", 0, 9, .ro, .fixed, 0, 0, 511⟩,
   ⟨"spare_busy", 9, 1, .ro, .fixed, 0, 0, 1⟩,
   ⟨"tokens_free", 10, 17, .ro, .fixed, 0, 0, 131071⟩,
   ⟨"store_used", 27, 14, .ro, .fixed, 0, 0, 16383⟩,
   ⟨"delay_used", 41, 15, .ro, .fixed, 0, 0, 32767⟩]⟩
/-- KEN_TRACE: R414 (14_kennel.md). -/
def RegDef.KEN_TRACE : RegDef := ⟨.base, false, 0x10, 0, 1, 0, 1, 0, 1,
  [⟨"enable", 0, 1, .rw, .live, 0, 0, 1⟩,
   ⟨"all_q", 1, 1, .rw, .live, 0, 0, 1⟩,
   ⟨"kinds", 2, 6, .rw, .live, 0, 0, 63⟩,
   ⟨"trace_drop", 8, 16, .rc, .fixed, 0, 0, 65535⟩]⟩
/-- KEN_TICK: R414 (14_kennel.md). -/
def RegDef.KEN_TICK : RegDef := ⟨.base, false, 0x100, 0, 1, 8, 4, 0, 1,
  [⟨"mode", 0, 2, .rw, .staged, 1, 0, 2⟩,
   ⟨"period", 2, 12, .rw, .staged, 4, 1, 4000⟩,
   ⟨"cg", 14, 8, .rw, .staged, 0, 0, 255⟩,
   ⟨"event", 22, 3, .rw, .staged, 2, 0, 4⟩,
   ⟨"offset_ns", 25, 16, .rw, .staged, 0, 0, 65535⟩]⟩
/-- KEN_TICK_CNT: R414 (14_kennel.md). -/
def RegDef.KEN_TICK_CNT : RegDef := ⟨.base, false, 0x200, 0, 1, 8, 4, 0, 1,
  [⟨"count", 0, 32, .ro, .fixed, 0, 0, 4294967295⟩]⟩
/-- KEN_SAVE: R414 (14_kennel.md). -/
def RegDef.KEN_SAVE : RegDef := ⟨.base, false, 0x300, 0, 1, 8, 8, 0, 1,
  [⟨"base", 0, 14, .rw, .quiesce, 0, 0, 16383⟩,
   ⟨"slots", 14, 5, .rw, .quiesce, 0, 0, 31⟩,
   ⟨"slot_lines", 19, 11, .rw, .quiesce, 264, 8, 1032⟩]⟩
/-- KEN_ENG_LOAD: R414 (14_kennel.md). -/
def RegDef.KEN_ENG_LOAD : RegDef := ⟨.base, false, 0x2000, 0, 1, 16, 256, 0, 1,
  [⟨"cycles", 0, 48, .ro, .fixed, 0, 0, 281474976710655⟩]⟩
/-- KEN_ENG_DISP: R414 (14_kennel.md). -/
def RegDef.KEN_ENG_DISP : RegDef := ⟨.base, false, 0x2008, 0, 1, 16, 256, 0, 1,
  [⟨"dispatches", 0, 48, .ro, .fixed, 0, 0, 281474976710655⟩]⟩
/-- KEN_CR_BASE: R414 (14_kennel.md). -/
def RegDef.KEN_CR_BASE : RegDef := ⟨.base, false, 0x4000, 0, 1, 32, 256, 0, 1,
  [⟨"cr_base", 0, 48, .rw, .quiesce, 0, 0, 281474976710655⟩,
   ⟨"key_id", 48, 7, .rw, .quiesce, 0, 0, 119⟩,
   ⟨"size_log2", 55, 5, .rw, .quiesce, 8, 2, 16⟩]⟩
/-- KEN_CR_CFG: R414 (14_kennel.md). -/
def RegDef.KEN_CR_CFG : RegDef := ⟨.base, false, 0x4008, 0, 1, 32, 256, 0, 1,
  [⟨"enable", 0, 1, .rw, .quiesce, 0, 0, 1⟩,
   ⟨"owner", 1, 6, .rw, .quiesce, 0, 0, 63⟩,
   ⟨"notify", 7, 2, .rw, .quiesce, 0, 0, 2⟩,
   ⟨"vec", 9, 11, .rw, .quiesce, 0, 0, 2047⟩,
   ⟨"nq", 20, 11, .rw, .quiesce, 0, 0, 2047⟩]⟩
/-- KEN_CR_PROD: R414 (14_kennel.md). -/
def RegDef.KEN_CR_PROD : RegDef := ⟨.base, false, 0x4010, 0, 1, 32, 256, 0, 1,
  [⟨"prod", 0, 32, .ro, .fixed, 0, 0, 4294967295⟩]⟩
/-- KEN_CR_CONS: R414 (14_kennel.md). -/
def RegDef.KEN_CR_CONS : RegDef := ⟨.base, false, 0x4018, 0, 1, 32, 256, 0, 1,
  [⟨"cons", 0, 32, .rw, .live, 0, 0, 4294967295⟩]⟩
/-- KEN_QCFG: R414 (14_kennel.md). -/
def RegDef.KEN_QCFG : RegDef := ⟨.base, false, 0x100000, 0, 1, 64, 2048, 0, 1,
  [⟨"enable", 0, 1, .rw, .staged, 0, 0, 1⟩,
   ⟨"prio", 1, 4, .rw, .staged, 8, 0, 15⟩,
   ⟨"home", 5, 3, .rw, .staged, 0, 0, 7⟩,
   ⟨"patience", 8, 10, .rw, .staged, 64, 0, 1023⟩,
   ⟨"cross_die", 18, 1, .rw, .staged, 0, 0, 1⟩,
   ⟨"pinned", 19, 1, .rw, .staged, 0, 0, 1⟩,
   ⟨"preemptible", 20, 1, .rw, .staged, 0, 0, 1⟩,
   ⟨"preemptor", 21, 1, .rw, .staged, 0, 0, 1⟩] ++
   [⟨"tick_sel", 22, 2, .rw, .staged, 0, 0, 3⟩,
   ⟨"steal_after", 24, 10, .rw, .staged, 64, 0, 1023⟩,
   ⟨"tmpl", 34, 1, .rw, .quiesce, 0, 0, 1⟩,
   ⟨"trace", 35, 1, .rw, .live, 0, 0, 1⟩]⟩
/-- KEN_QSQ: R414 (14_kennel.md). -/
def RegDef.KEN_QSQ : RegDef := ⟨.base, false, 0x100008, 0, 1, 64, 2048, 0, 1,
  [⟨"sq_base", 0, 42, .rw, .quiesce, 0, 0, 4398046511103⟩,
   ⟨"key_id", 42, 7, .rw, .quiesce, 0, 0, 119⟩,
   ⟨"depth_log2", 49, 5, .rw, .quiesce, 4, 1, 16⟩,
   ⟨"err_ring", 54, 8, .rw, .quiesce, 0, 0, 255⟩]⟩
/-- KEN_QDB: R414 (14_kennel.md). -/
def RegDef.KEN_QDB : RegDef := ⟨.base, false, 0x100010, 0, 1, 64, 2048, 0, 1,
  [⟨"total", 0, 32, .wo, .live, 0, 0, 4294967295⟩]⟩
/-- KEN_QSTAT: R414 (14_kennel.md). -/
def RegDef.KEN_QSTAT : RegDef := ⟨.base, false, 0x100018, 0, 1, 64, 2048, 0, 1,
  [⟨"ready", 0, 17, .ro, .fixed, 0, 0, 131071⟩,
   ⟨"delayed", 17, 15, .ro, .fixed, 0, 0, 32767⟩,
   ⟨"running", 32, 9, .ro, .fixed, 0, 0, 511⟩,
   ⟨"state", 41, 2, .ro, .fixed, 0, 0, 3⟩,
   ⟨"owner", 43, 6, .ro, .fixed, 0, 0, 63⟩]⟩
/-- KEN_QPTR: R414 (14_kennel.md). -/
def RegDef.KEN_QPTR : RegDef := ⟨.base, false, 0x100020, 0, 1, 64, 2048, 0, 1,
  [⟨"head", 0, 32, .ro, .fixed, 0, 0, 4294967295⟩,
   ⟨"done", 32, 32, .ro, .fixed, 0, 0, 4294967295⟩]⟩
/-- KEN_QCNT: R414 (14_kennel.md). -/
def RegDef.KEN_QCNT : RegDef := ⟨.base, false, 0x100028, 0, 1, 64, 2048, 0, 1,
  [⟨"bad_desc", 0, 16, .rc, .fixed, 0, 0, 65535⟩,
   ⟨"bad_db", 16, 16, .rc, .fixed, 0, 0, 65535⟩,
   ⟨"missed", 32, 16, .rc, .fixed, 0, 0, 65535⟩,
   ⟨"lost", 48, 16, .rc, .fixed, 0, 0, 65535⟩]⟩
/-- KEN_QCMD: R414 (14_kennel.md). -/
def RegDef.KEN_QCMD : RegDef := ⟨.base, false, 0x100030, 0, 1, 64, 2048, 0, 1,
  [⟨"cmd", 0, 2, .wo, .live, 0, 0, 2⟩]⟩
/-- KEN_QHIST: R414 (14_kennel.md). -/
def RegDef.KEN_QHIST : RegDef := ⟨.base, false, 0x200000, 0, 1, 128, 2048, 8, 16,
  [⟨"count", 0, 48, .ro, .fixed, 0, 0, 281474976710655⟩]⟩
/-- CRY_CFG: R449 (15_memory_and_keys.md). -/
def RegDef.CRY_CFG : RegDef := ⟨.base, false, 0x3000000, 0, 1, 0, 1, 0, 1,
  [⟨"sweep_rate", 0, 8, .rw, .live, 20, 1, 200⟩]⟩
/-- CRY_STATUS: R449 (15_memory_and_keys.md). -/
def RegDef.CRY_STATUS : RegDef := ⟨.base, false, 0x3000008, 0, 1, 0, 1, 0, 1,
  [⟨"ctl_up", 0, 2, .ro, .fixed, 0, 0, 3⟩,
   ⟨"sweeping", 2, 1, .ro, .fixed, 0, 0, 1⟩,
   ⟨"reinit", 3, 1, .ro, .fixed, 0, 0, 1⟩]⟩
/-- CRY_KEYSTATE: R449 (15_memory_and_keys.md). -/
def RegDef.CRY_KEYSTATE : RegDef := ⟨.base, true, 0x3001000, 0, 1, 8, 128, 0, 1,
  [⟨"state", 0, 2, .ro, .fixed, 0, 0, 3⟩,
   ⟨"level", 2, 2, .ro, .fixed, 0, 0, 3⟩,
   ⟨"owner", 4, 6, .ro, .fixed, 0, 0, 63⟩,
   ⟨"kcv", 10, 32, .ro, .fixed, 0, 0, 4294967295⟩,
   ⟨"regions", 42, 10, .ro, .fixed, 0, 0, 1023⟩,
   ⟨"device", 52, 1, .ro, .fixed, 0, 0, 1⟩]⟩
/-- CRY_LINK: R449 (15_memory_and_keys.md). -/
def RegDef.CRY_LINK : RegDef := ⟨.base, false, 0x3002000, 0, 1, 16, 2, 0, 1,
  [⟨"key_id", 0, 7, .rw, .quiesce, 0, 0, 119⟩,
   ⟨"next_key_id", 7, 7, .rw, .live, 0, 0, 119⟩,
   ⟨"dir", 14, 1, .rw, .quiesce, 0, 0, 1⟩,
   ⟨"switch", 15, 1, .wo, .live, 0, 0, 1⟩]⟩
/-- CRY_LINK_STAT: R449 (15_memory_and_keys.md). -/
def RegDef.CRY_LINK_STAT : RegDef := ⟨.base, false, 0x3002008, 0, 1, 16, 2, 0, 1,
  [⟨"frames", 0, 64, .ro, .fixed, 0, 0, 18446744073709551615⟩]⟩
/-- HBM_CFG: R449 (15_memory_and_keys.md). -/
def RegDef.HBM_CFG : RegDef := ⟨.base, false, 0x3100000, 1048576, 2, 0, 1, 0, 1,
  [⟨"rate", 0, 2, .rw, .quiesce, 0, 0, 2⟩,
   ⟨"hot_refresh", 2, 1, .rw, .live, 1, 0, 1⟩,
   ⟨"patrol", 3, 1, .rw, .live, 1, 0, 1⟩,
   ⟨"ppr_auto", 4, 1, .rw, .live, 1, 0, 1⟩,
   ⟨"ue_thresh", 5, 4, .rw, .live, 4, 1, 15⟩]⟩
/-- HBM_STATUS: R449 (15_memory_and_keys.md). -/
def RegDef.HBM_STATUS : RegDef := ⟨.base, false, 0x3100008, 1048576, 2, 0, 1, 0, 1,
  [⟨"state", 0, 3, .ro, .fixed, 0, 0, 7⟩,
   ⟨"spare_pc", 3, 5, .ro, .fixed, 0, 0, 31⟩,
   ⟨"spare_used", 8, 1, .ro, .fixed, 0, 0, 1⟩,
   ⟨"copying", 9, 1, .ro, .fixed, 0, 0, 1⟩,
   ⟨"pc_failed", 10, 32, .ro, .fixed, 0, 0, 4294967295⟩,
   ⟨"retained", 42, 1, .ro, .fixed, 0, 0, 1⟩]⟩
/-- HBM_ERR: R449 (15_memory_and_keys.md). -/
def RegDef.HBM_ERR : RegDef := ⟨.base, false, 0x3100010, 1048576, 2, 0, 1, 0, 1,
  [⟨"corrected", 0, 16, .rc, .fixed, 0, 0, 65535⟩,
   ⟨"uncorrectable", 16, 16, .rc, .fixed, 0, 0, 65535⟩,
   ⟨"soft", 32, 16, .rc, .fixed, 0, 0, 65535⟩,
   ⟨"hard", 48, 16, .rc, .fixed, 0, 0, 65535⟩]⟩
/-- HBM_ERRADDR: R449 (15_memory_and_keys.md). -/
def RegDef.HBM_ERRADDR : RegDef := ⟨.base, false, 0x3100018, 1048576, 2, 0, 1, 0, 1,
  [⟨"offset", 0, 35, .ro, .fixed, 0, 0, 34359738367⟩,
   ⟨"pc", 35, 5, .ro, .fixed, 0, 0, 31⟩]⟩
/-- CRY_PIPE: R449 (15_memory_and_keys.md). -/
def RegDef.CRY_PIPE : RegDef := ⟨.base, false, 0x3100020, 1048576, 2, 0, 1, 0, 1,
  [⟨"up", 0, 52, .ro, .fixed, 0, 0, 4503599627370495⟩,
   ⟨"spares", 52, 3, .ro, .fixed, 0, 0, 7⟩]⟩
/-- CRY_CACHE: R449 (15_memory_and_keys.md). -/
def RegDef.CRY_CACHE : RegDef := ⟨.base, false, 0x3100028, 1048576, 2, 0, 1, 0, 1,
  [⟨"ctr_miss", 0, 32, .ro, .fixed, 0, 0, 4294967295⟩,
   ⟨"tag_miss", 32, 32, .ro, .fixed, 0, 0, 4294967295⟩]⟩
/-- CRY_CNT: R449 (15_memory_and_keys.md). -/
def RegDef.CRY_CNT : RegDef := ⟨.base, false, 0x3100030, 1048576, 2, 0, 1, 0, 1,
  [⟨"integrity", 0, 16, .rc, .fixed, 0, 0, 65535⟩,
   ⟨"minor_ovf", 16, 16, .rc, .fixed, 0, 0, 65535⟩,
   ⟨"held_writes", 32, 16, .rc, .fixed, 0, 0, 65535⟩,
   ⟨"reinits", 48, 16, .rc, .fixed, 0, 0, 65535⟩]⟩
/-- CRY_RGN: R449 (15_memory_and_keys.md). -/
def RegDef.CRY_RGN : RegDef := ⟨.base, false, 0x3101000, 1048576, 2, 32, 64, 0, 1,
  [⟨"state", 0, 3, .ro, .fixed, 0, 0, 7⟩,
   ⟨"key_id", 3, 7, .ro, .fixed, 0, 0, 127⟩,
   ⟨"durable", 10, 1, .ro, .fixed, 0, 0, 1⟩,
   ⟨"wide", 11, 1, .ro, .fixed, 0, 0, 1⟩,
   ⟨"generation", 12, 24, .ro, .fixed, 0, 0, 16777215⟩,
   ⟨"owner", 36, 6, .ro, .fixed, 0, 0, 63⟩]⟩
/-- CRY_RGN_EXT: R449 (15_memory_and_keys.md). -/
def RegDef.CRY_RGN_EXT : RegDef := ⟨.base, false, 0x3101008, 1048576, 2, 32, 64, 0, 1,
  [⟨"base", 0, 14, .ro, .fixed, 0, 0, 16383⟩,
   ⟨"size", 14, 14, .ro, .fixed, 0, 0, 16383⟩,
   ⟨"meta_base", 28, 14, .ro, .fixed, 0, 0, 16383⟩,
   ⟨"meta_units", 42, 14, .ro, .fixed, 0, 0, 16383⟩]⟩
/-- CRY_RGN_CTR: R449 (15_memory_and_keys.md). -/
def RegDef.CRY_RGN_CTR : RegDef := ⟨.base, false, 0x3101010, 1048576, 2, 32, 64, 0, 1,
  [⟨"major_hw", 0, 32, .ro, .fixed, 0, 0, 4294967295⟩,
   ⟨"sweep", 32, 23, .ro, .fixed, 0, 0, 8388607⟩]⟩
/-- HRT_ID: R474 (16_hearth_and_host.md). -/
def RegDef.HRT_ID : RegDef := ⟨.base, true, 0xf000000, 0, 1, 0, 1, 0, 1,
  [⟨"part", 0, 16, .ro, .fixed, 4758, 0, 65535⟩,
   ⟨"stepping", 16, 8, .ro, .fixed, 177, 0, 255⟩,
   ⟨"grade", 24, 2, .ro, .fixed, 0, 0, 3⟩,
   ⟨"temp", 26, 1, .ro, .fixed, 0, 0, 1⟩,
   ⟨"lid", 27, 1, .ro, .fixed, 0, 0, 1⟩,
   ⟨"hosta_split", 28, 1, .ro, .fixed, 0, 0, 1⟩,
   ⟨"hostb_en", 29, 1, .ro, .fixed, 0, 0, 1⟩]⟩
/-- HRT_SN: R474 (16_hearth_and_host.md). -/
def RegDef.HRT_SN : RegDef := ⟨.base, true, 0xf000008, 0, 1, 0, 1, 0, 1,
  [⟨"device_sn", 0, 64, .ro, .fixed, 0, 0, 18446744073709551615⟩]⟩
/-- HRT_HEARTH: R474 (16_hearth_and_host.md). -/
def RegDef.HRT_HEARTH : RegDef := ⟨.base, true, 0xf000010, 0, 1, 0, 1, 0, 1,
  [⟨"active", 0, 1, .ro, .fixed, 0, 0, 1⟩,
   ⟨"standby_ready", 1, 1, .ro, .fixed, 0, 0, 1⟩,
   ⟨"fw_staged", 2, 1, .ro, .fixed, 0, 0, 1⟩,
   ⟨"fw_switching", 3, 1, .ro, .fixed, 0, 0, 1⟩,
   ⟨"takeovers", 4, 16, .rc, .fixed, 0, 0, 65535⟩,
   ⟨"fw_active", 20, 16, .ro, .fixed, 0, 0, 65535⟩,
   ⟨"fw_standby", 36, 16, .ro, .fixed, 0, 0, 65535⟩,
   ⟨"fw_svn", 52, 7, .ro, .fixed, 0, 0, 127⟩]⟩
/-- HRT_CQ_BASE: R474 (16_hearth_and_host.md). -/
def RegDef.HRT_CQ_BASE : RegDef := ⟨.base, true, 0xf001000, 0, 1, 128, 64, 0, 1,
  [⟨"base", 12, 52, .rw, .quiesce, 0, 0, 4503599627370495⟩]⟩
/-- HRT_RQ_BASE: R474 (16_hearth_and_host.md). -/
def RegDef.HRT_RQ_BASE : RegDef := ⟨.base, true, 0xf001008, 0, 1, 128, 64, 0, 1,
  [⟨"base", 12, 52, .rw, .quiesce, 0, 0, 4503599627370495⟩]⟩
/-- HRT_CQ_CFG: R474 (16_hearth_and_host.md). -/
def RegDef.HRT_CQ_CFG : RegDef := ⟨.base, true, 0xf001010, 0, 1, 128, 64, 0, 1,
  [⟨"enable", 0, 1, .rw, .live, 0, 0, 1⟩,
   ⟨"size_log2", 1, 4, .rw, .quiesce, 6, 4, 12⟩,
   ⟨"vec", 5, 11, .rw, .quiesce, 0, 0, 2047⟩]⟩
/-- HRT_CQ_TAIL: R474 (16_hearth_and_host.md). -/
def RegDef.HRT_CQ_TAIL : RegDef := ⟨.base, true, 0xf001018, 0, 1, 128, 64, 0, 1,
  [⟨"tail", 0, 16, .rw, .live, 0, 0, 65535⟩]⟩
/-- HRT_CQ_HEAD: R474 (16_hearth_and_host.md). -/
def RegDef.HRT_CQ_HEAD : RegDef := ⟨.base, true, 0xf001020, 0, 1, 128, 64, 0, 1,
  [⟨"taken", 0, 16, .ro, .fixed, 0, 0, 65535⟩,
   ⟨"responses", 16, 16, .ro, .fixed, 0, 0, 65535⟩]⟩
/-- HRT_BAR2: R474 (16_hearth_and_host.md). -/
def RegDef.HRT_BAR2 : RegDef := ⟨.base, true, 0xf001028, 0, 1, 128, 64, 0, 1,
  [⟨"win", 0, 12, .rw, .live, 0, 0, 4095⟩,
   ⟨"key_id", 12, 7, .rw, .live, 0, 0, 127⟩]⟩
/-- HRT_FN_STAT: R474 (16_hearth_and_host.md). -/
def RegDef.HRT_FN_STAT : RegDef := ⟨.base, true, 0xf001030, 0, 1, 128, 64, 0, 1,
  [⟨"type", 0, 2, .ro, .fixed, 0, 0, 3⟩,
   ⟨"active", 2, 1, .ro, .fixed, 0, 0, 1⟩,
   ⟨"vf_denied", 3, 16, .rc, .fixed, 0, 0, 65535⟩,
   ⟨"bar_err", 19, 16, .rc, .fixed, 0, 0, 65535⟩,
   ⟨"ring_err", 35, 16, .rc, .fixed, 0, 0, 65535⟩,
   ⟨"log_lost", 51, 8, .rc, .fixed, 0, 0, 255⟩,
   ⟨"dflt_txn", 59, 4, .ro, .fixed, 0, 0, 15⟩,
   ⟨"dflt_valid", 63, 1, .ro, .fixed, 0, 0, 1⟩]⟩
/-- HRT_PART_KEY: R474 (16_hearth_and_host.md). -/
def RegDef.HRT_PART_KEY : RegDef := ⟨.base, true, 0xf004000, 0, 1, 128, 64, 0, 1,
  [⟨"key_first", 0, 7, .rw, .quiesce, 0, 0, 127⟩,
   ⟨"key_count", 7, 7, .rw, .quiesce, 0, 0, 119⟩]⟩
/-- HRT_PART_Q: R474 (16_hearth_and_host.md). -/
def RegDef.HRT_PART_Q : RegDef := ⟨.base, true, 0xf004008, 0, 1, 128, 64, 8, 4,
  [⟨"q_first", 0, 11, .rw, .quiesce, 0, 0, 2047⟩,
   ⟨"q_count", 11, 12, .rw, .quiesce, 0, 0, 2048⟩]⟩
/-- HRT_PART_SLOT: R474 (16_hearth_and_host.md). -/
def RegDef.HRT_PART_SLOT : RegDef := ⟨.base, true, 0xf004028, 0, 1, 128, 64, 8, 4,
  [⟨"s_first", 0, 10, .rw, .quiesce, 0, 0, 1023⟩,
   ⟨"s_count", 10, 11, .rw, .quiesce, 0, 0, 1024⟩]⟩
/-- FLT_STATUS: R502 (17_faults_and_repair.md). -/
def RegDef.FLT_STATUS : RegDef := ⟨.base, true, 0xc000000, 0, 1, 0, 1, 0, 1,
  [⟨"open", 0, 9, .ro, .fixed, 0, 0, 511⟩,
   ⟨"overflow", 9, 1, .ro, .fixed, 0, 0, 1⟩,
   ⟨"escalated", 10, 1, .ro, .fixed, 0, 0, 1⟩,
   ⟨"handling", 11, 3, .ro, .fixed, 0, 0, 7⟩,
   ⟨"suspended", 14, 3, .ro, .fixed, 0, 0, 7⟩,
   ⟨"seq_next", 17, 32, .ro, .fixed, 0, 0, 4294967295⟩]⟩
/-- FLT_CNT: R502 (17_faults_and_repair.md). -/
def RegDef.FLT_CNT : RegDef := ⟨.base, true, 0xc000008, 0, 1, 0, 1, 0, 1,
  [⟨"note", 0, 16, .rc, .fixed, 0, 0, 65535⟩,
   ⟨"degrade", 16, 16, .rc, .fixed, 0, 0, 65535⟩,
   ⟨"stream", 32, 16, .rc, .fixed, 0, 0, 65535⟩,
   ⟨"device", 48, 16, .rc, .fixed, 0, 0, 65535⟩]⟩
/-- FLT_OVF: R502 (17_faults_and_repair.md). -/
def RegDef.FLT_OVF : RegDef := ⟨.base, true, 0xc000010, 0, 1, 0, 1, 0, 1,
  [⟨"note", 0, 16, .rc, .fixed, 0, 0, 65535⟩,
   ⟨"degrade", 16, 16, .rc, .fixed, 0, 0, 65535⟩,
   ⟨"stream", 32, 16, .rc, .fixed, 0, 0, 65535⟩,
   ⟨"device", 48, 16, .rc, .fixed, 0, 0, 65535⟩]⟩
/-- FLT_INJECT: R502 (17_faults_and_repair.md). -/
def RegDef.FLT_INJECT : RegDef := ⟨.base, true, 0xc000018, 0, 1, 0, 1, 0, 1,
  [⟨"severity", 0, 2, .wo, .live, 0, 0, 3⟩,
   ⟨"go", 2, 1, .wo, .live, 0, 0, 1⟩]⟩
/-- FLT_REC: R502 (17_faults_and_repair.md). -/
def RegDef.FLT_REC : RegDef := ⟨.base, true, 0xc001000, 0, 1, 32, 256, 8, 4,
  [⟨"bytes", 0, 64, .ro, .fixed, 0, 0, 18446744073709551615⟩]⟩
/-- KLN_CFG: R503 (17_faults_and_repair.md). -/
def RegDef.KLN_CFG : RegDef := ⟨.base, false, 0x7000000, 0, 1, 0, 1, 0, 1,
  [⟨"enable", 0, 1, .rw, .live, 1, 0, 1⟩,
   ⟨"budget_us", 1, 8, .rw, .live, 50, 46, 200⟩,
   ⟨"period_min", 9, 6, .rw, .live, 50, 10, 60⟩,
   ⟨"gap_us", 15, 10, .rw, .live, 100, 10, 1000⟩]⟩
/-- KLN_WIN: R503 (17_faults_and_repair.md). -/
def RegDef.KLN_WIN : RegDef := ⟨.base, false, 0x7000008, 0, 1, 0, 1, 0, 1,
  [⟨"win_en", 0, 1, .rw, .live, 0, 0, 1⟩,
   ⟨"win_types", 1, 5, .rw, .live, 0, 0, 31⟩,
   ⟨"win_cg", 6, 8, .rw, .live, 0, 0, 255⟩,
   ⟨"line_first", 14, 13, .rw, .live, 1, 1, 8191⟩,
   ⟨"line_last", 27, 13, .rw, .live, 1, 1, 8191⟩]⟩
/-- KLN_STATUS: R503 (17_faults_and_repair.md). -/
def RegDef.KLN_STATUS : RegDef := ⟨.base, false, 0x7000010, 0, 1, 0, 1, 0, 1,
  [⟨"busy", 0, 1, .ro, .fixed, 0, 0, 1⟩,
   ⟨"unit", 1, 9, .ro, .fixed, 0, 0, 511⟩,
   ⟨"segment", 10, 6, .ro, .fixed, 0, 0, 63⟩,
   ⟨"overdue", 16, 16, .ro, .fixed, 0, 0, 65535⟩,
   ⟨"incomplete", 32, 16, .rc, .fixed, 0, 0, 65535⟩,
   ⟨"refused", 48, 16, .rc, .fixed, 0, 0, 65535⟩]⟩
/-- KLN_RES: R503 (17_faults_and_repair.md). -/
def RegDef.KLN_RES : RegDef := ⟨.base, false, 0x7001000, 0, 1, 16, 410, 0, 1,
  [⟨"verdict", 0, 3, .ro, .fixed, 0, 0, 7⟩,
   ⟨"segment", 3, 5, .ro, .fixed, 0, 0, 31⟩,
   ⟨"patterns", 8, 8, .ro, .fixed, 0, 0, 255⟩,
   ⟨"restore_err", 16, 1, .ro, .fixed, 0, 0, 1⟩,
   ⟨"age_min", 17, 12, .ro, .fixed, 0, 0, 4095⟩,
   ⟨"overdue", 29, 1, .ro, .fixed, 0, 0, 1⟩,
   ⟨"failed", 30, 1, .ro, .fixed, 0, 0, 1⟩]⟩
/-- KLN_SIG: R503 (17_faults_and_repair.md). -/
def RegDef.KLN_SIG : RegDef := ⟨.base, false, 0x7001008, 0, 1, 16, 410, 0, 1,
  [⟨"sig", 0, 64, .ro, .fixed, 0, 0, 18446744073709551615⟩]⟩
/-- LDG_CFG: R504 (17_faults_and_repair.md). -/
def RegDef.LDG_CFG : RegDef := ⟨.base, false, 0xb000000, 0, 1, 0, 1, 0, 1,
  [⟨"drain_us", 0, 10, .rw, .live, 100, 25, 1000⟩]⟩
/-- LDG_STATUS: R504 (17_faults_and_repair.md). -/
def RegDef.LDG_STATUS : RegDef := ⟨.base, false, 0xb000008, 0, 1, 0, 1, 0, 1,
  [⟨"auditing", 0, 1, .ro, .fixed, 0, 0, 1⟩,
   ⟨"resyncing", 1, 1, .ro, .fixed, 0, 0, 1⟩,
   ⟨"tmr_uncorr", 2, 1, .ro, .fixed, 0, 0, 1⟩,
   ⟨"tmr_corrected", 3, 16, .rc, .fixed, 0, 0, 65535⟩,
   ⟨"mismatches", 19, 16, .rc, .fixed, 0, 0, 65535⟩]⟩
/-- LDG_AUDIT: R504 (17_faults_and_repair.md). -/
def RegDef.LDG_AUDIT : RegDef := ⟨.base, false, 0xb000010, 0, 1, 0, 1, 0, 1,
  [⟨"ns", 0, 32, .ro, .fixed, 0, 0, 4294967295⟩,
   ⟨"sec", 32, 32, .ro, .fixed, 0, 0, 4294967295⟩]⟩
/-- LDG_MISMATCH: R504 (17_faults_and_repair.md). -/
def RegDef.LDG_MISMATCH : RegDef := ⟨.base, false, 0xb000018, 0, 1, 0, 1, 0, 1,
  [⟨"kind", 0, 3, .ro, .fixed, 0, 0, 7⟩,
   ⟨"instance", 3, 12, .ro, .fixed, 0, 0, 4095⟩,
   ⟨"diff", 15, 32, .ro, .fixed, 0, 0, 4294967295⟩]⟩
/-- LDG_POOL_ISS: R504 (17_faults_and_repair.md). -/
def RegDef.LDG_POOL_ISS : RegDef := ⟨.base, false, 0xb000100, 0, 1, 32, 5, 0, 1,
  [⟨"count", 0, 64, .ro, .fixed, 0, 0, 18446744073709551615⟩]⟩
/-- LDG_POOL_RET: R504 (17_faults_and_repair.md). -/
def RegDef.LDG_POOL_RET : RegDef := ⟨.base, false, 0xb000108, 0, 1, 32, 5, 0, 1,
  [⟨"count", 0, 64, .ro, .fixed, 0, 0, 18446744073709551615⟩]⟩
/-- LDG_POOL_OUT: R504 (17_faults_and_repair.md). -/
def RegDef.LDG_POOL_OUT : RegDef := ⟨.base, false, 0xb000110, 0, 1, 32, 5, 0, 1,
  [⟨"count", 0, 64, .ro, .fixed, 0, 0, 18446744073709551615⟩]⟩
/-- LDG_POOL_HELD: R504 (17_faults_and_repair.md). -/
def RegDef.LDG_POOL_HELD : RegDef := ⟨.base, false, 0xb000118, 0, 1, 32, 5, 0, 1,
  [⟨"count", 0, 32, .ro, .fixed, 0, 0, 4294967295⟩]⟩
/-- PWR_STATUS: R521 (18_power_and_ember.md). -/
def RegDef.PWR_STATUS : RegDef := ⟨.base, false, 0xd000000, 0, 1, 0, 1, 0, 1,
  [⟨"ember", 0, 2, .ro, .fixed, 0, 0, 3⟩,
   ⟨"hold_ok", 2, 1, .ro, .fixed, 0, 0, 1⟩,
   ⟨"vhold_mv", 3, 14, .ro, .fixed, 0, 0, 16383⟩,
   ⟨"charging", 17, 1, .ro, .fixed, 0, 0, 1⟩,
   ⟨"sag_pin", 18, 1, .ro, .fixed, 0, 0, 1⟩,
   ⟨"retention_lost", 19, 1, .ro, .fixed, 0, 0, 1⟩,
   ⟨"sags", 20, 16, .rc, .fixed, 0, 0, 65535⟩]⟩
/-- PWR_HOLD: R521 (18_power_and_ember.md). -/
def RegDef.PWR_HOLD : RegDef := ⟨.base, true, 0xd000008, 0, 1, 0, 1, 0, 1,
  [⟨"chg_en", 0, 1, .rw, .live, 1, 0, 1⟩,
   ⟨"chg_ma", 1, 10, .rw, .live, 400, 100, 800⟩,
   ⟨"cap_test", 11, 1, .rw, .live, 1, 0, 1⟩,
   ⟨"test_go", 12, 1, .wo, .live, 0, 0, 1⟩,
   ⟨"cap_uf", 13, 14, .ro, .fixed, 0, 0, 16383⟩]⟩
/-- PWR_EMBER: R521 (18_power_and_ember.md). -/
def RegDef.PWR_EMBER : RegDef := ⟨.base, false, 0xd000010, 0, 1, 0, 1, 0, 1,
  [⟨"seq", 0, 32, .ro, .fixed, 0, 0, 4294967295⟩,
   ⟨"us", 32, 12, .ro, .fixed, 0, 0, 4095⟩,
   ⟨"complete", 44, 1, .ro, .fixed, 0, 0, 1⟩,
   ⟨"resumed", 45, 1, .ro, .fixed, 0, 0, 1⟩]⟩
/-- PWR_GATE: R521 (18_power_and_ember.md). -/
def RegDef.PWR_GATE : RegDef := ⟨.base, false, 0xd000018, 0, 1, 0, 1, 0, 1,
  [⟨"pack_off", 0, 8, .rw, .quiesce, 0, 0, 255⟩,
   ⟨"lane_off", 8, 8, .rw, .quiesce, 0, 0, 255⟩,
   ⟨"row_off", 16, 36, .rw, .quiesce, 0, 0, 68719476735⟩,
   ⟨"hbm_sr", 52, 2, .rw, .quiesce, 0, 0, 3⟩]⟩
/-- PWR_RAIL: R521 (18_power_and_ember.md). -/
def RegDef.PWR_RAIL : RegDef := ⟨.base, false, 0xd000100, 0, 1, 8, 8, 0, 1,
  [⟨"mv", 0, 11, .ro, .fixed, 0, 0, 2047⟩,
   ⟨"valid", 11, 1, .ro, .fixed, 0, 0, 1⟩,
   ⟨"excursions", 12, 16, .rc, .fixed, 0, 0, 65535⟩]⟩
/-- EVT_TR_CFG: R551 (19_observation_and_leash.md). -/
def RegDef.EVT_TR_CFG : RegDef := ⟨.base, false, 0x8000000, 0, 1, 0, 1, 0, 1,
  [⟨"sink", 0, 3, .rw, .quiesce, 0, 0, 4⟩,
   ⟨"fwd_die", 3, 2, .rw, .quiesce, 0, 0, 3⟩,
   ⟨"link", 5, 3, .rw, .quiesce, 0, 0, 5⟩,
   ⟨"src_fault", 8, 1, .rw, .live, 1, 0, 1⟩,
   ⟨"fault_min", 9, 2, .rw, .live, 1, 0, 3⟩,
   ⟨"src_ken", 11, 1, .rw, .live, 0, 0, 1⟩,
   ⟨"src_snap", 12, 1, .rw, .live, 0, 0, 1⟩,
   ⟨"src_stim", 13, 1, .rw, .live, 0, 0, 1⟩] ++
   [⟨"sync_ms", 14, 10, .rw, .live, 100, 1, 1000⟩]⟩
/-- EVT_TR_STAT: R551 (19_observation_and_leash.md). -/
def RegDef.EVT_TR_STAT : RegDef := ⟨.base, false, 0x8000008, 0, 1, 0, 1, 0, 1,
  [⟨"fifo_level", 0, 10, .ro, .fixed, 0, 0, 1023⟩,
   ⟨"buf_full", 10, 1, .ro, .fixed, 0, 0, 1⟩,
   ⟨"wrapped", 11, 1, .ro, .fixed, 0, 0, 1⟩,
   ⟨"tseq", 12, 32, .ro, .fixed, 0, 0, 4294967295⟩]⟩
/-- EVT_TR_DROP: R551 (19_observation_and_leash.md). -/
def RegDef.EVT_TR_DROP : RegDef := ⟨.base, false, 0x8000010, 0, 1, 0, 1, 0, 1,
  [⟨"fault", 0, 16, .rc, .fixed, 0, 0, 65535⟩,
   ⟨"kennel", 16, 16, .rc, .fixed, 0, 0, 65535⟩,
   ⟨"snapshot", 32, 16, .rc, .fixed, 0, 0, 65535⟩,
   ⟨"stimulus", 48, 16, .rc, .fixed, 0, 0, 65535⟩]⟩
/-- EVT_TR_BUF: R551 (19_observation_and_leash.md). -/
def RegDef.EVT_TR_BUF : RegDef := ⟨.base, false, 0x8000018, 0, 1, 0, 1, 0, 1,
  [⟨"stack", 0, 1, .rw, .quiesce, 0, 0, 1⟩,
   ⟨"base", 1, 14, .rw, .quiesce, 0, 0, 12287⟩,
   ⟨"size", 15, 12, .rw, .quiesce, 1, 1, 4095⟩,
   ⟨"stop_full", 27, 1, .rw, .quiesce, 0, 0, 1⟩]⟩
/-- EVT_TR_WPTR: R551 (19_observation_and_leash.md). -/
def RegDef.EVT_TR_WPTR : RegDef := ⟨.base, false, 0x8000020, 0, 1, 0, 1, 0, 1,
  [⟨"wptr", 0, 36, .ro, .fixed, 0, 0, 68719476735⟩]⟩
/-- EVT_SNAP: R551 (19_observation_and_leash.md). -/
def RegDef.EVT_SNAP : RegDef := ⟨.base, false, 0x8000028, 0, 1, 0, 1, 0, 1,
  [⟨"snap_mode", 0, 2, .rw, .live, 0, 0, 2⟩,
   ⟨"snap_us", 2, 20, .rw, .live, 1000, 1, 1000000⟩,
   ⟨"cg", 22, 8, .rw, .live, 0, 0, 255⟩,
   ⟨"event", 30, 3, .rw, .live, 0, 0, 4⟩]⟩
/-- EVT_TR_DATA: R551 (19_observation_and_leash.md). -/
def RegDef.EVT_TR_DATA : RegDef := ⟨.base, false, 0x8000100, 0, 1, 8, 8, 0, 1,
  [⟨"bytes", 0, 64, .ro, .fixed, 0, 0, 18446744073709551615⟩]⟩
/-- EVT_TR_POP: R551 (19_observation_and_leash.md). -/
def RegDef.EVT_TR_POP : RegDef := ⟨.base, false, 0x8000140, 0, 1, 0, 1, 0, 1,
  [⟨"pop", 0, 1, .wo, .live, 0, 0, 1⟩]⟩
/-- EVT_SEL: R551 (19_observation_and_leash.md). -/
def RegDef.EVT_SEL : RegDef := ⟨.base, false, 0x8001000, 0, 1, 16, 256, 0, 1,
  [⟨"source", 0, 12, .rw, .live, 0, 0, 4095⟩,
   ⟨"inst", 12, 12, .rw, .live, 0, 0, 4095⟩,
   ⟨"inst_all", 24, 1, .rw, .live, 1, 0, 1⟩,
   ⟨"gate_en", 25, 1, .rw, .live, 0, 0, 1⟩,
   ⟨"cg", 26, 8, .rw, .live, 0, 0, 255⟩,
   ⟨"line_first", 34, 13, .rw, .live, 1, 1, 8191⟩,
   ⟨"line_last", 47, 13, .rw, .live, 1, 1, 8191⟩,
   ⟨"snap", 60, 1, .rw, .live, 0, 0, 1⟩] ++
   [⟨"ovf", 61, 1, .w1c, .live, 0, 0, 1⟩,
   ⟨"enable", 62, 1, .rw, .live, 0, 0, 1⟩]⟩
/-- EVT_CNT: R551 (19_observation_and_leash.md). -/
def RegDef.EVT_CNT : RegDef := ⟨.base, false, 0x8001008, 0, 1, 16, 256, 0, 1,
  [⟨"count", 0, 64, .rw, .live, 0, 0, 18446744073709551615⟩]⟩
/-- FAB_EVT_SEL: R552 (19_observation_and_leash.md). -/
def RegDef.FAB_EVT_SEL : RegDef := ⟨.fabric, false, 0x30000, 0, 1, 16, 32, 0, 1,
  [⟨"source", 0, 6, .rw, .live, 0, 0, 39⟩,
   ⟨"ev_clk", 6, 5, .rw, .live, 0, 0, 31⟩,
   ⟨"inst", 11, 6, .rw, .live, 0, 0, 63⟩,
   ⟨"snap", 17, 1, .rw, .live, 0, 0, 1⟩,
   ⟨"ovf", 18, 1, .w1c, .live, 0, 0, 1⟩,
   ⟨"enable", 19, 1, .rw, .live, 0, 0, 1⟩]⟩
/-- FAB_EVT_CNT: R552 (19_observation_and_leash.md). -/
def RegDef.FAB_EVT_CNT : RegDef := ⟨.fabric, false, 0x30008, 0, 1, 16, 32, 0, 1,
  [⟨"count", 0, 64, .rw, .live, 0, 0, 18446744073709551615⟩]⟩
/-- FAB_STIM: R552 (19_observation_and_leash.md). -/
def RegDef.FAB_STIM : RegDef := ⟨.fabric, false, 0x31000, 0, 1, 8, 8, 0, 1,
  [⟨"en", 0, 32, .rw, .live, 0, 0, 4294967295⟩,
   ⟨"stim_drop", 32, 16, .rc, .fixed, 0, 0, 65535⟩,
   ⟨"st_clk", 48, 5, .rw, .live, 0, 0, 31⟩]⟩
/-- LSH_CFG: R553 (19_observation_and_leash.md). -/
def RegDef.LSH_CFG : RegDef := ⟨.base, false, 0xe000000, 0, 1, 0, 1, 0, 1,
  [⟨"port_en", 0, 1, .rw, .live, 1, 0, 1⟩,
   ⟨"idle_s", 1, 12, .rw, .live, 60, 1, 3600⟩]⟩
/-- LSH_STAT: R553 (19_observation_and_leash.md). -/
def RegDef.LSH_STAT : RegDef := ⟨.base, false, 0xe000008, 0, 1, 0, 1, 0, 1,
  [⟨"rights", 0, 2, .ro, .fixed, 0, 0, 3⟩,
   ⟨"method", 2, 1, .ro, .fixed, 0, 0, 1⟩,
   ⟨"owner_slot", 3, 2, .ro, .fixed, 0, 0, 3⟩,
   ⟨"ctl_held", 5, 1, .ro, .fixed, 0, 0, 1⟩,
   ⟨"unlock_fail", 6, 16, .rc, .fixed, 0, 0, 65535⟩,
   ⟨"lockout_s", 22, 7, .ro, .fixed, 0, 0, 127⟩,
   ⟨"parity_err", 29, 16, .rc, .fixed, 0, 0, 65535⟩,
   ⟨"bad_pkts", 45, 16, .rc, .fixed, 0, 0, 65535⟩]⟩
/-- LSH_EXC: R553 (19_observation_and_leash.md). -/
def RegDef.LSH_EXC : RegDef := ⟨.base, false, 0xe000100, 0, 1, 8, 16, 0, 1,
  [⟨"exc", 0, 64, .ro, .fixed, 0, 0, 18446744073709551615⟩]⟩
/-- PWR_TEMP: R571 (20_electrical_and_package.md). -/
def RegDef.PWR_TEMP : RegDef := ⟨.base, false, 0xd000200, 0, 1, 8, 6, 0, 1,
  [⟨"temp", 0, 11, .ro, .fixed, 0, 0, 2047⟩,
   ⟨"valid", 11, 1, .ro, .fixed, 0, 0, 1⟩,
   ⟨"peak", 12, 11, .rc, .fixed, 0, 0, 2047⟩]⟩

/-- The definition of each register. -/
def Reg.info : Reg → RegDef
  | .HT_NOW_LO => RegDef.HT_NOW_LO
  | .HT_NOW_HI => RegDef.HT_NOW_HI
  | .HT_RATE => RegDef.HT_RATE
  | .HT_CFG => RegDef.HT_CFG
  | .HT_SERVO => RegDef.HT_SERVO
  | .HT_STATUS => RegDef.HT_STATUS
  | .HT_OFFSET => RegDef.HT_OFFSET
  | .HT_STEP => RegDef.HT_STEP
  | .HT_PPS_SEC => RegDef.HT_PPS_SEC
  | .HT_HOST_ADJ => RegDef.HT_HOST_ADJ
  | .HT_ERR => RegDef.HT_ERR
  | .HT_ALIGN => RegDef.HT_ALIGN
  | .HT_CG_CFG => RegDef.HT_CG_CFG
  | .HT_CG_SWP => RegDef.HT_CG_SWP
  | .HT_CG_USR => RegDef.HT_CG_USR
  | .HT_CG_STAT => RegDef.HT_CG_STAT
  | .HRT_MODE => RegDef.HRT_MODE
  | .HRT_MODE_TIME => RegDef.HRT_MODE_TIME
  | .HRT_RST_CAUSE => RegDef.HRT_RST_CAUSE
  | .HRT_BOOT => RegDef.HRT_BOOT
  | .CFG_FENCE_GPIO => RegDef.CFG_FENCE_GPIO
  | .CFG_FENCE_LVDS => RegDef.CFG_FENCE_LVDS
  | .CFG_FENCE_LN => RegDef.CFG_FENCE_LN
  | .CFG_FENCE_OP => RegDef.CFG_FENCE_OP
  | .CFG_LANE_EN => RegDef.CFG_LANE_EN
  | .CFG_OPT_EN => RegDef.CFG_OPT_EN
  | .HRT_CFG_STAT => RegDef.HRT_CFG_STAT
  | .HRT_CFG_ERR => RegDef.HRT_CFG_ERR
  | .HRT_CFG_ERRADDR => RegDef.HRT_CFG_ERRADDR
  | .HRT_CFG_SEC => RegDef.HRT_CFG_SEC
  | .HRT_CFG_CHAIN => RegDef.HRT_CFG_CHAIN
  | .HRT_CFG_USERID => RegDef.HRT_CFG_USERID
  | .HRT_TXN_STAT => RegDef.HRT_TXN_STAT
  | .HRT_TXN_AT => RegDef.HRT_TXN_AT
  | .HRT_COMMIT_LAST => RegDef.HRT_COMMIT_LAST
  | .HRT_COMMIT_TIME => RegDef.HRT_COMMIT_TIME
  | .HRT_SCRUB_STAT => RegDef.HRT_SCRUB_STAT
  | .HRT_SCRUB_ERR => RegDef.HRT_SCRUB_ERR
  | .HRT_CFG_RESTORE => RegDef.HRT_CFG_RESTORE
  | .HRT_CFG_RD => RegDef.HRT_CFG_RD
  | .FAB_RGN_DEF => RegDef.FAB_RGN_DEF
  | .FAB_RGN_CTL => RegDef.FAB_RGN_CTL
  | .FAB_RGN_STAT => RegDef.FAB_RGN_STAT
  | .FAB_RGN_BUILD => RegDef.FAB_RGN_BUILD
  | .FAB_ICP_CTL => RegDef.FAB_ICP_CTL
  | .FAB_ICP_STAT => RegDef.FAB_ICP_STAT
  | .FAB_RGN_SP => RegDef.FAB_RGN_SP
  | .FAB_RGN_AP => RegDef.FAB_RGN_AP
  | .FAB_ID => RegDef.FAB_ID
  | .FAB_STATUS => RegDef.FAB_STATUS
  | .FAB_CLASH => RegDef.FAB_CLASH
  | .FAB_XB_SUM => RegDef.FAB_XB_SUM
  | .FAB_PLL_CFG => RegDef.FAB_PLL_CFG
  | .FAB_PLL_STAT => RegDef.FAB_PLL_STAT
  | .FAB_GNET => RegDef.FAB_GNET
  | .CRD_CFG => RegDef.CRD_CFG
  | .CRD_SUM => RegDef.CRD_SUM
  | .CRD_CORD_STAT => RegDef.CRD_CORD_STAT
  | .CRD_CORD_MAP => RegDef.CRD_CORD_MAP
  | .CRD_LC_STAT => RegDef.CRD_LC_STAT
  | .CRD_LC_MAP => RegDef.CRD_LC_MAP
  | .CRD_FAR_CFG => RegDef.CRD_FAR_CFG
  | .CRD_FAR_STAT => RegDef.CRD_FAR_STAT
  | .CRD_FAR_CAP => RegDef.CRD_FAR_CAP
  | .NOC_CFG => RegDef.NOC_CFG
  | .NOC_STATUS => RegDef.NOC_STATUS
  | .NOC_RT_STAT => RegDef.NOC_RT_STAT
  | .NOC_ROUTE => RegDef.NOC_ROUTE
  | .NOC_INIT_CFG => RegDef.NOC_INIT_CFG
  | .NOC_INIT_RD => RegDef.NOC_INIT_RD
  | .NOC_INIT_WR => RegDef.NOC_INIT_WR
  | .NOC_INIT_ERR => RegDef.NOC_INIT_ERR
  | .NOC_INIT_HIST => RegDef.NOC_INIT_HIST
  | .SSW_STATUS => RegDef.SSW_STATUS
  | .SSW_POOL => RegDef.SSW_POOL
  | .SSW_SLOT_CFG => RegDef.SSW_SLOT_CFG
  | .SSW_SLOT_RATE => RegDef.SSW_SLOT_RATE
  | .SSW_SLOT_TWIN => RegDef.SSW_SLOT_TWIN
  | .SSW_SLOT_STAT => RegDef.SSW_SLOT_STAT
  | .SSW_SLOT_ERR => RegDef.SSW_SLOT_ERR
  | .SSW_SLOT_MRG => RegDef.SSW_SLOT_MRG
  | .SSW_FS_CFG => RegDef.SSW_FS_CFG
  | .SSW_FS_STAT => RegDef.SSW_FS_STAT
  | .SSW_FSRC => RegDef.SSW_FSRC
  | .SSW_RESV => RegDef.SSW_RESV
  | .LN_REF => RegDef.LN_REF
  | .LN_CFG => RegDef.LN_CFG
  | .LN_STAT => RegDef.LN_STAT
  | .LN_TXEQ => RegDef.LN_TXEQ
  | .LN_RXEQ => RegDef.LN_RXEQ
  | .LN_PAT => RegDef.LN_PAT
  | .LN_PAT_USER => RegDef.LN_PAT_USER
  | .LN_CHK => RegDef.LN_CHK
  | .LN_CHK_BITS => RegDef.LN_CHK_BITS
  | .LN_ERRINJ => RegDef.LN_ERRINJ
  | .LN_CNT => RegDef.LN_CNT
  | .LN_NL_CFG => RegDef.LN_NL_CFG
  | .LN_NL_STAT => RegDef.LN_NL_STAT
  | .MP_PG_STAT => RegDef.MP_PG_STAT
  | .MP_SDI_CFG => RegDef.MP_SDI_CFG
  | .MP_SDI_STAT => RegDef.MP_SDI_STAT
  | .MP_SDI_ERR => RegDef.MP_SDI_ERR
  | .MP_MAC_CFG => RegDef.MP_MAC_CFG
  | .MP_MAC_ADDR => RegDef.MP_MAC_ADDR
  | .MP_MAC_IP => RegDef.MP_MAC_IP
  | .MP_MAC_GW => RegDef.MP_MAC_GW
  | .MP_MAC_CNT => RegDef.MP_MAC_CNT
  | .MP_TS_ADJ => RegDef.MP_TS_ADJ
  | .MP_SEC_CFG => RegDef.MP_SEC_CFG
  | .MP_SEC_TXPN => RegDef.MP_SEC_TXPN
  | .MP_SEC_CNT => RegDef.MP_SEC_CNT
  | .MP_SEC_RXSC => RegDef.MP_SEC_RXSC
  | .MP_RXF_CFG => RegDef.MP_RXF_CFG
  | .MP_RXF_ADDR => RegDef.MP_RXF_ADDR
  | .MP_RXF_SRC => RegDef.MP_RXF_SRC
  | .MP_RXF_STAT => RegDef.MP_RXF_STAT
  | .MP_RXF_CNT => RegDef.MP_RXF_CNT
  | .MP_TXF_CFG => RegDef.MP_TXF_CFG
  | .MP_TXF_ADDR => RegDef.MP_TXF_ADDR
  | .MP_TXF_ADDRB => RegDef.MP_TXF_ADDRB
  | .MP_TXF_RTP => RegDef.MP_TXF_RTP
  | .MP_TXF_TIME => RegDef.MP_TXF_TIME
  | .MP_TXF_CNT => RegDef.MP_TXF_CNT
  | .PK_CFG => RegDef.PK_CFG
  | .PK_ENG_RUN => RegDef.PK_ENG_RUN
  | .PK_ENG_POOL => RegDef.PK_ENG_POOL
  | .PK_IMEM_CTL => RegDef.PK_IMEM_CTL
  | .PK_PM_ERR => RegDef.PK_PM_ERR
  | .PK_STIM => RegDef.PK_STIM
  | .PK_ENG_CFG => RegDef.PK_ENG_CFG
  | .PK_ENG_STAT => RegDef.PK_ENG_STAT
  | .PK_ENG_PC => RegDef.PK_ENG_PC
  | .PK_ENG_CNT => RegDef.PK_ENG_CNT
  | .PK_SRX_CFG => RegDef.PK_SRX_CFG
  | .PK_SRX_STAT => RegDef.PK_SRX_STAT
  | .PK_STX_STAT => RegDef.PK_STX_STAT
  | .KEN_CFG => RegDef.KEN_CFG
  | .KEN_STATUS => RegDef.KEN_STATUS
  | .KEN_TRACE => RegDef.KEN_TRACE
  | .KEN_TICK => RegDef.KEN_TICK
  | .KEN_TICK_CNT => RegDef.KEN_TICK_CNT
  | .KEN_SAVE => RegDef.KEN_SAVE
  | .KEN_ENG_LOAD => RegDef.KEN_ENG_LOAD
  | .KEN_ENG_DISP => RegDef.KEN_ENG_DISP
  | .KEN_CR_BASE => RegDef.KEN_CR_BASE
  | .KEN_CR_CFG => RegDef.KEN_CR_CFG
  | .KEN_CR_PROD => RegDef.KEN_CR_PROD
  | .KEN_CR_CONS => RegDef.KEN_CR_CONS
  | .KEN_QCFG => RegDef.KEN_QCFG
  | .KEN_QSQ => RegDef.KEN_QSQ
  | .KEN_QDB => RegDef.KEN_QDB
  | .KEN_QSTAT => RegDef.KEN_QSTAT
  | .KEN_QPTR => RegDef.KEN_QPTR
  | .KEN_QCNT => RegDef.KEN_QCNT
  | .KEN_QCMD => RegDef.KEN_QCMD
  | .KEN_QHIST => RegDef.KEN_QHIST
  | .CRY_CFG => RegDef.CRY_CFG
  | .CRY_STATUS => RegDef.CRY_STATUS
  | .CRY_KEYSTATE => RegDef.CRY_KEYSTATE
  | .CRY_LINK => RegDef.CRY_LINK
  | .CRY_LINK_STAT => RegDef.CRY_LINK_STAT
  | .HBM_CFG => RegDef.HBM_CFG
  | .HBM_STATUS => RegDef.HBM_STATUS
  | .HBM_ERR => RegDef.HBM_ERR
  | .HBM_ERRADDR => RegDef.HBM_ERRADDR
  | .CRY_PIPE => RegDef.CRY_PIPE
  | .CRY_CACHE => RegDef.CRY_CACHE
  | .CRY_CNT => RegDef.CRY_CNT
  | .CRY_RGN => RegDef.CRY_RGN
  | .CRY_RGN_EXT => RegDef.CRY_RGN_EXT
  | .CRY_RGN_CTR => RegDef.CRY_RGN_CTR
  | .HRT_ID => RegDef.HRT_ID
  | .HRT_SN => RegDef.HRT_SN
  | .HRT_HEARTH => RegDef.HRT_HEARTH
  | .HRT_CQ_BASE => RegDef.HRT_CQ_BASE
  | .HRT_RQ_BASE => RegDef.HRT_RQ_BASE
  | .HRT_CQ_CFG => RegDef.HRT_CQ_CFG
  | .HRT_CQ_TAIL => RegDef.HRT_CQ_TAIL
  | .HRT_CQ_HEAD => RegDef.HRT_CQ_HEAD
  | .HRT_BAR2 => RegDef.HRT_BAR2
  | .HRT_FN_STAT => RegDef.HRT_FN_STAT
  | .HRT_PART_KEY => RegDef.HRT_PART_KEY
  | .HRT_PART_Q => RegDef.HRT_PART_Q
  | .HRT_PART_SLOT => RegDef.HRT_PART_SLOT
  | .FLT_STATUS => RegDef.FLT_STATUS
  | .FLT_CNT => RegDef.FLT_CNT
  | .FLT_OVF => RegDef.FLT_OVF
  | .FLT_INJECT => RegDef.FLT_INJECT
  | .FLT_REC => RegDef.FLT_REC
  | .KLN_CFG => RegDef.KLN_CFG
  | .KLN_WIN => RegDef.KLN_WIN
  | .KLN_STATUS => RegDef.KLN_STATUS
  | .KLN_RES => RegDef.KLN_RES
  | .KLN_SIG => RegDef.KLN_SIG
  | .LDG_CFG => RegDef.LDG_CFG
  | .LDG_STATUS => RegDef.LDG_STATUS
  | .LDG_AUDIT => RegDef.LDG_AUDIT
  | .LDG_MISMATCH => RegDef.LDG_MISMATCH
  | .LDG_POOL_ISS => RegDef.LDG_POOL_ISS
  | .LDG_POOL_RET => RegDef.LDG_POOL_RET
  | .LDG_POOL_OUT => RegDef.LDG_POOL_OUT
  | .LDG_POOL_HELD => RegDef.LDG_POOL_HELD
  | .PWR_STATUS => RegDef.PWR_STATUS
  | .PWR_HOLD => RegDef.PWR_HOLD
  | .PWR_EMBER => RegDef.PWR_EMBER
  | .PWR_GATE => RegDef.PWR_GATE
  | .PWR_RAIL => RegDef.PWR_RAIL
  | .EVT_TR_CFG => RegDef.EVT_TR_CFG
  | .EVT_TR_STAT => RegDef.EVT_TR_STAT
  | .EVT_TR_DROP => RegDef.EVT_TR_DROP
  | .EVT_TR_BUF => RegDef.EVT_TR_BUF
  | .EVT_TR_WPTR => RegDef.EVT_TR_WPTR
  | .EVT_SNAP => RegDef.EVT_SNAP
  | .EVT_TR_DATA => RegDef.EVT_TR_DATA
  | .EVT_TR_POP => RegDef.EVT_TR_POP
  | .EVT_SEL => RegDef.EVT_SEL
  | .EVT_CNT => RegDef.EVT_CNT
  | .FAB_EVT_SEL => RegDef.FAB_EVT_SEL
  | .FAB_EVT_CNT => RegDef.FAB_EVT_CNT
  | .FAB_STIM => RegDef.FAB_STIM
  | .LSH_CFG => RegDef.LSH_CFG
  | .LSH_STAT => RegDef.LSH_STAT
  | .LSH_EXC => RegDef.LSH_EXC
  | .PWR_TEMP => RegDef.PWR_TEMP

/-- Registers in the order of the spec, part 0. -/
def regsPart0 : List Reg :=
  [.HT_NOW_LO, .HT_NOW_HI, .HT_RATE, .HT_CFG, .HT_SERVO, .HT_STATUS,
   .HT_OFFSET, .HT_STEP, .HT_PPS_SEC, .HT_HOST_ADJ, .HT_ERR, .HT_ALIGN,
   .HT_CG_CFG, .HT_CG_SWP, .HT_CG_USR, .HT_CG_STAT, .HRT_MODE, .HRT_MODE_TIME,
   .HRT_RST_CAUSE, .HRT_BOOT, .CFG_FENCE_GPIO, .CFG_FENCE_LVDS, .CFG_FENCE_LN, .CFG_FENCE_OP,
   .CFG_LANE_EN, .CFG_OPT_EN, .HRT_CFG_STAT, .HRT_CFG_ERR, .HRT_CFG_ERRADDR, .HRT_CFG_SEC,
   .HRT_CFG_CHAIN, .HRT_CFG_USERID]
/-- Registers in the order of the spec, part 1. -/
def regsPart1 : List Reg :=
  [.HRT_TXN_STAT, .HRT_TXN_AT, .HRT_COMMIT_LAST, .HRT_COMMIT_TIME, .HRT_SCRUB_STAT, .HRT_SCRUB_ERR,
   .HRT_CFG_RESTORE, .HRT_CFG_RD, .FAB_RGN_DEF, .FAB_RGN_CTL, .FAB_RGN_STAT, .FAB_RGN_BUILD,
   .FAB_ICP_CTL, .FAB_ICP_STAT, .FAB_RGN_SP, .FAB_RGN_AP, .FAB_ID, .FAB_STATUS,
   .FAB_CLASH, .FAB_XB_SUM, .FAB_PLL_CFG, .FAB_PLL_STAT, .FAB_GNET, .CRD_CFG,
   .CRD_SUM, .CRD_CORD_STAT, .CRD_CORD_MAP, .CRD_LC_STAT, .CRD_LC_MAP, .CRD_FAR_CFG,
   .CRD_FAR_STAT, .CRD_FAR_CAP]
/-- Registers in the order of the spec, part 2. -/
def regsPart2 : List Reg :=
  [.NOC_CFG, .NOC_STATUS, .NOC_RT_STAT, .NOC_ROUTE, .NOC_INIT_CFG, .NOC_INIT_RD,
   .NOC_INIT_WR, .NOC_INIT_ERR, .NOC_INIT_HIST, .SSW_STATUS, .SSW_POOL, .SSW_SLOT_CFG,
   .SSW_SLOT_RATE, .SSW_SLOT_TWIN, .SSW_SLOT_STAT, .SSW_SLOT_ERR, .SSW_SLOT_MRG, .SSW_FS_CFG,
   .SSW_FS_STAT, .SSW_FSRC, .SSW_RESV, .LN_REF, .LN_CFG, .LN_STAT,
   .LN_TXEQ, .LN_RXEQ, .LN_PAT, .LN_PAT_USER, .LN_CHK, .LN_CHK_BITS,
   .LN_ERRINJ, .LN_CNT]
/-- Registers in the order of the spec, part 3. -/
def regsPart3 : List Reg :=
  [.LN_NL_CFG, .LN_NL_STAT, .MP_PG_STAT, .MP_SDI_CFG, .MP_SDI_STAT, .MP_SDI_ERR,
   .MP_MAC_CFG, .MP_MAC_ADDR, .MP_MAC_IP, .MP_MAC_GW, .MP_MAC_CNT, .MP_TS_ADJ,
   .MP_SEC_CFG, .MP_SEC_TXPN, .MP_SEC_CNT, .MP_SEC_RXSC, .MP_RXF_CFG, .MP_RXF_ADDR,
   .MP_RXF_SRC, .MP_RXF_STAT, .MP_RXF_CNT, .MP_TXF_CFG, .MP_TXF_ADDR, .MP_TXF_ADDRB,
   .MP_TXF_RTP, .MP_TXF_TIME, .MP_TXF_CNT, .PK_CFG, .PK_ENG_RUN, .PK_ENG_POOL,
   .PK_IMEM_CTL, .PK_PM_ERR]
/-- Registers in the order of the spec, part 4. -/
def regsPart4 : List Reg :=
  [.PK_STIM, .PK_ENG_CFG, .PK_ENG_STAT, .PK_ENG_PC, .PK_ENG_CNT, .PK_SRX_CFG,
   .PK_SRX_STAT, .PK_STX_STAT, .KEN_CFG, .KEN_STATUS, .KEN_TRACE, .KEN_TICK,
   .KEN_TICK_CNT, .KEN_SAVE, .KEN_ENG_LOAD, .KEN_ENG_DISP, .KEN_CR_BASE, .KEN_CR_CFG,
   .KEN_CR_PROD, .KEN_CR_CONS, .KEN_QCFG, .KEN_QSQ, .KEN_QDB, .KEN_QSTAT,
   .KEN_QPTR, .KEN_QCNT, .KEN_QCMD, .KEN_QHIST, .CRY_CFG, .CRY_STATUS,
   .CRY_KEYSTATE, .CRY_LINK]
/-- Registers in the order of the spec, part 5. -/
def regsPart5 : List Reg :=
  [.CRY_LINK_STAT, .HBM_CFG, .HBM_STATUS, .HBM_ERR, .HBM_ERRADDR, .CRY_PIPE,
   .CRY_CACHE, .CRY_CNT, .CRY_RGN, .CRY_RGN_EXT, .CRY_RGN_CTR, .HRT_ID,
   .HRT_SN, .HRT_HEARTH, .HRT_CQ_BASE, .HRT_RQ_BASE, .HRT_CQ_CFG, .HRT_CQ_TAIL,
   .HRT_CQ_HEAD, .HRT_BAR2, .HRT_FN_STAT, .HRT_PART_KEY, .HRT_PART_Q, .HRT_PART_SLOT,
   .FLT_STATUS, .FLT_CNT, .FLT_OVF, .FLT_INJECT, .FLT_REC, .KLN_CFG,
   .KLN_WIN, .KLN_STATUS]
/-- Registers in the order of the spec, part 6. -/
def regsPart6 : List Reg :=
  [.KLN_RES, .KLN_SIG, .LDG_CFG, .LDG_STATUS, .LDG_AUDIT, .LDG_MISMATCH,
   .LDG_POOL_ISS, .LDG_POOL_RET, .LDG_POOL_OUT, .LDG_POOL_HELD, .PWR_STATUS, .PWR_HOLD,
   .PWR_EMBER, .PWR_GATE, .PWR_RAIL, .EVT_TR_CFG, .EVT_TR_STAT, .EVT_TR_DROP,
   .EVT_TR_BUF, .EVT_TR_WPTR, .EVT_SNAP, .EVT_TR_DATA, .EVT_TR_POP, .EVT_SEL,
   .EVT_CNT, .FAB_EVT_SEL, .FAB_EVT_CNT, .FAB_STIM, .LSH_CFG, .LSH_STAT,
   .LSH_EXC, .PWR_TEMP]

/-- All registers, in the order of the spec's files. -/
def allRegs : List Reg :=
  regsPart0 ++ regsPart1 ++ regsPart2 ++ regsPart3 ++ regsPart4 ++ regsPart5 ++ regsPart6

namespace F

/-- `HT_NOW_LO.frac` (R60). -/
def HT_NOW_LO_frac : Fld := ⟨0x10000000, 0xf009000000, 0, 0, 0, 0, 16, 0, 9, 256⟩
/-- `HT_NOW_LO.ns` (R60). -/
def HT_NOW_LO_ns : Fld := ⟨0x10000000, 0xf009000000, 0, 0, 0, 16, 32, 0, 9, 256⟩
/-- `HT_NOW_LO.sec16` (R60). -/
def HT_NOW_LO_sec16 : Fld := ⟨0x10000000, 0xf009000000, 0, 0, 0, 48, 16, 0, 9, 256⟩
/-- `HT_NOW_HI.sec` (R60). -/
def HT_NOW_HI_sec : Fld := ⟨0x10000000, 0xf009000008, 0, 0, 0, 0, 48, 0, 9, 256⟩
/-- `HT_RATE.rate` (R60). -/
def HT_RATE_rate : Fld := ⟨0x10000000, 0xf009000010, 0, 0, 0, 0, 44, 343597383680, 9, 256⟩
/-- `HT_CFG.src_primary` (R60). -/
def HT_CFG_src_primary : Fld := ⟨0x0, 0xf009000018, 0, 0, 0, 0, 3, 0, 9, 256⟩
/-- `HT_CFG.src_backup` (R60). -/
def HT_CFG_src_backup : Fld := ⟨0x0, 0xf009000018, 0, 0, 0, 3, 3, 0, 9, 256⟩
/-- `HT_CFG.ptp_port` (R60). -/
def HT_CFG_ptp_port : Fld := ⟨0x0, 0xf009000018, 0, 0, 0, 6, 5, 0, 9, 256⟩
/-- `HT_CFG.ptp_domain` (R60). -/
def HT_CFG_ptp_domain : Fld := ⟨0x0, 0xf009000018, 0, 0, 0, 11, 7, 127, 9, 256⟩
/-- `HT_CFG.root_spread` (R60). -/
def HT_CFG_root_spread : Fld := ⟨0x0, 0xf009000018, 0, 0, 0, 18, 1, 0, 9, 256⟩
/-- `HT_SERVO.slew_max` (R60). -/
def HT_SERVO_slew_max : Fld := ⟨0x0, 0xf009000020, 0, 0, 0, 0, 14, 100, 9, 256⟩
/-- `HT_SERVO.step_thresh` (R60). -/
def HT_SERVO_step_thresh : Fld := ⟨0x0, 0xf009000020, 0, 0, 0, 14, 20, 100, 9, 256⟩
/-- `HT_SERVO.lock_thresh` (R60). -/
def HT_SERVO_lock_thresh : Fld := ⟨0x0, 0xf009000020, 0, 0, 0, 34, 16, 100, 9, 256⟩
/-- `HT_SERVO.lock_count` (R60). -/
def HT_SERVO_lock_count : Fld := ⟨0x0, 0xf009000020, 0, 0, 0, 50, 4, 8, 9, 256⟩
/-- `HT_SERVO.loss_timeout` (R60). -/
def HT_SERVO_loss_timeout : Fld := ⟨0x0, 0xf009000020, 0, 0, 0, 54, 8, 100, 9, 256⟩
/-- `HT_STATUS.src_active` (R60). -/
def HT_STATUS_src_active : Fld := ⟨0x10000000, 0xf009000028, 0, 0, 0, 0, 3, 0, 9, 256⟩
/-- `HT_STATUS.locked` (R60). -/
def HT_STATUS_locked : Fld := ⟨0x10000000, 0xf009000028, 0, 0, 0, 3, 1, 0, 9, 256⟩
/-- `HT_STATUS.holdover` (R60). -/
def HT_STATUS_holdover : Fld := ⟨0x10000000, 0xf009000028, 0, 0, 0, 4, 1, 0, 9, 256⟩
/-- `HT_STATUS.primary_lost` (R60). -/
def HT_STATUS_primary_lost : Fld := ⟨0x10000000, 0xf009000028, 0, 0, 0, 5, 1, 0, 9, 256⟩
/-- `HT_STATUS.backup_lost` (R60). -/
def HT_STATUS_backup_lost : Fld := ⟨0x10000000, 0xf009000028, 0, 0, 0, 6, 1, 0, 9, 256⟩
/-- `HT_STATUS.step_pending` (R60). -/
def HT_STATUS_step_pending : Fld := ⟨0x10000000, 0xf009000028, 0, 0, 0, 7, 1, 0, 9, 256⟩
/-- `HT_STATUS.root_holdover` (R60). -/
def HT_STATUS_root_holdover : Fld := ⟨0x10000000, 0xf009000028, 0, 0, 0, 8, 1, 0, 9, 256⟩
/-- `HT_OFFSET.offset` (R60). -/
def HT_OFFSET_offset : Fld := ⟨0x10000000, 0xf009000030, 0, 0, 0, 0, 64, 0, 9, 256⟩
/-- `HT_STEP.step` (R60). -/
def HT_STEP_step : Fld := ⟨0x0, 0xf009000038, 0, 0, 0, 0, 64, 0, 9, 256⟩
/-- `HT_PPS_SEC.pps_sec` (R60). -/
def HT_PPS_SEC_pps_sec : Fld := ⟨0x0, 0xf009000040, 0, 0, 0, 0, 48, 0, 9, 256⟩
/-- `HT_HOST_ADJ.phase` (R60). -/
def HT_HOST_ADJ_phase : Fld := ⟨0x0, 0xf009000048, 0, 0, 0, 0, 32, 0, 9, 256⟩
/-- `HT_HOST_ADJ.freq` (R60). -/
def HT_HOST_ADJ_freq : Fld := ⟨0x0, 0xf009000048, 0, 0, 0, 32, 32, 0, 9, 256⟩
/-- `HT_ERR.dropped` (R60). -/
def HT_ERR_dropped : Fld := ⟨0x10000000, 0xf009000050, 0, 0, 0, 0, 16, 0, 9, 0⟩
/-- `HT_ERR.outliers` (R60). -/
def HT_ERR_outliers : Fld := ⟨0x10000000, 0xf009000050, 0, 0, 0, 16, 16, 0, 9, 1⟩
/-- `HT_ERR.pps_rejected` (R60). -/
def HT_ERR_pps_rejected : Fld := ⟨0x10000000, 0xf009000050, 0, 0, 0, 32, 16, 0, 9, 2⟩
/-- `HT_ALIGN.deviation` (R60). -/
def HT_ALIGN_deviation : Fld := ⟨0x10000000, 0xf009000058, 0, 0, 0, 0, 16, 0, 9, 256⟩
/-- `HT_ALIGN.invalid` (R60). -/
def HT_ALIGN_invalid : Fld := ⟨0x10000000, 0xf009000058, 0, 0, 0, 16, 1, 0, 9, 256⟩
/-- `HT_ALIGN.reloads` (R60). -/
def HT_ALIGN_reloads : Fld := ⟨0x10000000, 0xf009000058, 0, 0, 0, 17, 8, 0, 9, 256⟩
/-- `HT_CG_CFG.enable` (R60). -/
def HT_CG_CFG_enable : Fld := ⟨0x10000000, 0xf009001000, 0, 32, 0, 0, 1, 0, 9, 256⟩
/-- `HT_CG_CFG.link_all` (R60). -/
def HT_CG_CFG_link_all : Fld := ⟨0x10000000, 0xf009001000, 0, 32, 0, 1, 1, 0, 9, 256⟩
/-- `HT_CG_CFG.interlace` (R60). -/
def HT_CG_CFG_interlace : Fld := ⟨0x10000000, 0xf009001000, 0, 32, 0, 2, 1, 0, 9, 256⟩
/-- `HT_CG_CFG.period_num` (R60). -/
def HT_CG_CFG_period_num : Fld := ⟨0x10000000, 0xf009001000, 0, 32, 0, 3, 16, 1, 9, 256⟩
/-- `HT_CG_CFG.period_den` (R60). -/
def HT_CG_CFG_period_den : Fld := ⟨0x10000000, 0xf009001000, 0, 32, 0, 19, 24, 50, 9, 256⟩
/-- `HT_CG_CFG.lines` (R60). -/
def HT_CG_CFG_lines : Fld := ⟨0x10000000, 0xf009001000, 0, 32, 0, 43, 13, 1125, 9, 256⟩
/-- `HT_CG_SWP.swp_line1` (R60). -/
def HT_CG_SWP_swp_line1 : Fld := ⟨0x10000000, 0xf009001008, 0, 32, 0, 0, 13, 7, 9, 256⟩
/-- `HT_CG_SWP.swp_line2` (R60). -/
def HT_CG_SWP_swp_line2 : Fld := ⟨0x10000000, 0xf009001008, 0, 32, 0, 13, 13, 0, 9, 256⟩
/-- `HT_CG_SWP.swp_offset` (R60). -/
def HT_CG_SWP_swp_offset : Fld := ⟨0x10000000, 0xf009001008, 0, 32, 0, 26, 20, 0, 9, 256⟩
/-- `HT_CG_USR.line` (R60). -/
def HT_CG_USR_line : Fld := ⟨0x10000000, 0xf009001010, 0, 32, 0, 0, 13, 0, 9, 256⟩
/-- `HT_CG_USR.offset` (R60). -/
def HT_CG_USR_offset : Fld := ⟨0x10000000, 0xf009001010, 0, 32, 0, 13, 20, 0, 9, 256⟩
/-- `HT_CG_USR.enable` (R60). -/
def HT_CG_USR_enable : Fld := ⟨0x10000000, 0xf009001010, 0, 32, 0, 33, 1, 0, 9, 256⟩
/-- `HT_CG_STAT.frame` (R60). -/
def HT_CG_STAT_frame : Fld := ⟨0x10000000, 0xf009001018, 0, 32, 0, 0, 48, 0, 9, 256⟩
/-- `HT_CG_STAT.line` (R60). -/
def HT_CG_STAT_line : Fld := ⟨0x10000000, 0xf009001018, 0, 32, 0, 48, 13, 0, 9, 256⟩
/-- `HRT_MODE.mode` (R83). -/
def HRT_MODE_mode : Fld := ⟨0x0, 0xf00f000400, 0, 0, 0, 0, 3, 0, 15, 256⟩
/-- `HRT_MODE.return_mode` (R83). -/
def HRT_MODE_return_mode : Fld := ⟨0x0, 0xf00f000400, 0, 0, 0, 3, 3, 0, 15, 256⟩
/-- `HRT_MODE.fenced` (R83). -/
def HRT_MODE_fenced : Fld := ⟨0x0, 0xf00f000400, 0, 0, 0, 6, 1, 1, 15, 256⟩
/-- `HRT_MODE.fence_pin` (R83). -/
def HRT_MODE_fence_pin : Fld := ⟨0x0, 0xf00f000400, 0, 0, 0, 7, 1, 0, 15, 256⟩
/-- `HRT_MODE.safe_pending` (R83). -/
def HRT_MODE_safe_pending : Fld := ⟨0x0, 0xf00f000400, 0, 0, 0, 8, 1, 0, 15, 256⟩
/-- `HRT_MODE.safe_cause` (R83). -/
def HRT_MODE_safe_cause : Fld := ⟨0x0, 0xf00f000400, 0, 0, 0, 9, 4, 0, 15, 256⟩
/-- `HRT_MODE_TIME.entry_ns` (R83). -/
def HRT_MODE_TIME_entry_ns : Fld := ⟨0x0, 0xf00f000408, 0, 0, 0, 0, 32, 0, 15, 256⟩
/-- `HRT_MODE_TIME.entry_sec` (R83). -/
def HRT_MODE_TIME_entry_sec : Fld := ⟨0x0, 0xf00f000408, 0, 0, 0, 32, 32, 0, 15, 256⟩
/-- `HRT_RST_CAUSE.por` (R83). -/
def HRT_RST_CAUSE_por : Fld := ⟨0x0, 0xf00f000410, 0, 0, 0, 0, 1, 1, 15, 256⟩
/-- `HRT_RST_CAUSE.host_reset` (R83). -/
def HRT_RST_CAUSE_host_reset : Fld := ⟨0x0, 0xf00f000410, 0, 0, 0, 1, 1, 0, 15, 256⟩
/-- `HRT_RST_CAUSE.ember_cold` (R83). -/
def HRT_RST_CAUSE_ember_cold : Fld := ⟨0x0, 0xf00f000410, 0, 0, 0, 2, 1, 0, 15, 256⟩
/-- `HRT_RST_CAUSE.base_reset` (R83). -/
def HRT_RST_CAUSE_base_reset : Fld := ⟨0x0, 0xf00f000410, 0, 0, 0, 3, 4, 0, 15, 256⟩
/-- `HRT_RST_CAUSE.clock_loss` (R83). -/
def HRT_RST_CAUSE_clock_loss : Fld := ⟨0x0, 0xf00f000410, 0, 0, 0, 7, 4, 0, 15, 256⟩
/-- `HRT_RST_CAUSE.fabric_reset` (R83). -/
def HRT_RST_CAUSE_fabric_reset : Fld := ⟨0x0, 0xf00f000410, 0, 0, 0, 11, 12, 0, 15, 256⟩
/-- `HRT_BOOT.step` (R83). -/
def HRT_BOOT_step : Fld := ⟨0x0, 0xf00f000418, 0, 0, 0, 0, 4, 0, 15, 256⟩
/-- `HRT_BOOT.slot` (R83). -/
def HRT_BOOT_slot : Fld := ⟨0x0, 0xf00f000418, 0, 0, 0, 4, 1, 0, 15, 256⟩
/-- `HRT_BOOT.fallback` (R83). -/
def HRT_BOOT_fallback : Fld := ⟨0x0, 0xf00f000418, 0, 0, 0, 5, 1, 0, 15, 256⟩
/-- `HRT_BOOT.ember_restored` (R83). -/
def HRT_BOOT_ember_restored : Fld := ⟨0x0, 0xf00f000418, 0, 0, 0, 6, 1, 0, 15, 256⟩
/-- `HRT_BOOT.start_us` (R83). -/
def HRT_BOOT_start_us : Fld := ⟨0x0, 0xf00f000418, 0, 0, 0, 8, 32, 0, 15, 256⟩
/-- `CFG_FENCE_GPIO.fence_0` (R98). -/
def CFG_FENCE_GPIO_fence_0 : Fld := ⟨0x0, 0x1000000000000, 0, 8, 0, 0, 2, 0, 16, 256⟩
/-- `CFG_FENCE_GPIO.fence_1` (R98). -/
def CFG_FENCE_GPIO_fence_1 : Fld := ⟨0x0, 0x1000000000000, 0, 8, 0, 2, 2, 0, 16, 256⟩
/-- `CFG_FENCE_GPIO.fence_2` (R98). -/
def CFG_FENCE_GPIO_fence_2 : Fld := ⟨0x0, 0x1000000000000, 0, 8, 0, 4, 2, 0, 16, 256⟩
/-- `CFG_FENCE_GPIO.fence_3` (R98). -/
def CFG_FENCE_GPIO_fence_3 : Fld := ⟨0x0, 0x1000000000000, 0, 8, 0, 6, 2, 0, 16, 256⟩
/-- `CFG_FENCE_GPIO.fence_4` (R98). -/
def CFG_FENCE_GPIO_fence_4 : Fld := ⟨0x0, 0x1000000000000, 0, 8, 0, 8, 2, 0, 16, 256⟩
/-- `CFG_FENCE_GPIO.fence_5` (R98). -/
def CFG_FENCE_GPIO_fence_5 : Fld := ⟨0x0, 0x1000000000000, 0, 8, 0, 10, 2, 0, 16, 256⟩
/-- `CFG_FENCE_GPIO.fence_6` (R98). -/
def CFG_FENCE_GPIO_fence_6 : Fld := ⟨0x0, 0x1000000000000, 0, 8, 0, 12, 2, 0, 16, 256⟩
/-- `CFG_FENCE_GPIO.fence_7` (R98). -/
def CFG_FENCE_GPIO_fence_7 : Fld := ⟨0x0, 0x1000000000000, 0, 8, 0, 14, 2, 0, 16, 256⟩
/-- `CFG_FENCE_GPIO.fence_8` (R98). -/
def CFG_FENCE_GPIO_fence_8 : Fld := ⟨0x0, 0x1000000000000, 0, 8, 0, 16, 2, 0, 16, 256⟩
/-- `CFG_FENCE_GPIO.fence_9` (R98). -/
def CFG_FENCE_GPIO_fence_9 : Fld := ⟨0x0, 0x1000000000000, 0, 8, 0, 18, 2, 0, 16, 256⟩
/-- `CFG_FENCE_GPIO.fence_10` (R98). -/
def CFG_FENCE_GPIO_fence_10 : Fld := ⟨0x0, 0x1000000000000, 0, 8, 0, 20, 2, 0, 16, 256⟩
/-- `CFG_FENCE_GPIO.fence_11` (R98). -/
def CFG_FENCE_GPIO_fence_11 : Fld := ⟨0x0, 0x1000000000000, 0, 8, 0, 22, 2, 0, 16, 256⟩
/-- `CFG_FENCE_GPIO.fence_12` (R98). -/
def CFG_FENCE_GPIO_fence_12 : Fld := ⟨0x0, 0x1000000000000, 0, 8, 0, 24, 2, 0, 16, 256⟩
/-- `CFG_FENCE_GPIO.fence_13` (R98). -/
def CFG_FENCE_GPIO_fence_13 : Fld := ⟨0x0, 0x1000000000000, 0, 8, 0, 26, 2, 0, 16, 256⟩
/-- `CFG_FENCE_GPIO.fence_14` (R98). -/
def CFG_FENCE_GPIO_fence_14 : Fld := ⟨0x0, 0x1000000000000, 0, 8, 0, 28, 2, 0, 16, 256⟩
/-- `CFG_FENCE_GPIO.fence_15` (R98). -/
def CFG_FENCE_GPIO_fence_15 : Fld := ⟨0x0, 0x1000000000000, 0, 8, 0, 30, 2, 0, 16, 256⟩
/-- `CFG_FENCE_GPIO.fence_16` (R98). -/
def CFG_FENCE_GPIO_fence_16 : Fld := ⟨0x0, 0x1000000000000, 0, 8, 0, 32, 2, 0, 16, 256⟩
/-- `CFG_FENCE_GPIO.fence_17` (R98). -/
def CFG_FENCE_GPIO_fence_17 : Fld := ⟨0x0, 0x1000000000000, 0, 8, 0, 34, 2, 0, 16, 256⟩
/-- `CFG_FENCE_GPIO.fence_18` (R98). -/
def CFG_FENCE_GPIO_fence_18 : Fld := ⟨0x0, 0x1000000000000, 0, 8, 0, 36, 2, 0, 16, 256⟩
/-- `CFG_FENCE_GPIO.fence_19` (R98). -/
def CFG_FENCE_GPIO_fence_19 : Fld := ⟨0x0, 0x1000000000000, 0, 8, 0, 38, 2, 0, 16, 256⟩
/-- `CFG_FENCE_GPIO.fence_20` (R98). -/
def CFG_FENCE_GPIO_fence_20 : Fld := ⟨0x0, 0x1000000000000, 0, 8, 0, 40, 2, 0, 16, 256⟩
/-- `CFG_FENCE_GPIO.fence_21` (R98). -/
def CFG_FENCE_GPIO_fence_21 : Fld := ⟨0x0, 0x1000000000000, 0, 8, 0, 42, 2, 0, 16, 256⟩
/-- `CFG_FENCE_GPIO.fence_22` (R98). -/
def CFG_FENCE_GPIO_fence_22 : Fld := ⟨0x0, 0x1000000000000, 0, 8, 0, 44, 2, 0, 16, 256⟩
/-- `CFG_FENCE_GPIO.fence_23` (R98). -/
def CFG_FENCE_GPIO_fence_23 : Fld := ⟨0x0, 0x1000000000000, 0, 8, 0, 46, 2, 0, 16, 256⟩
/-- `CFG_FENCE_GPIO.fence_24` (R98). -/
def CFG_FENCE_GPIO_fence_24 : Fld := ⟨0x0, 0x1000000000000, 0, 8, 0, 48, 2, 0, 16, 256⟩
/-- `CFG_FENCE_GPIO.fence_25` (R98). -/
def CFG_FENCE_GPIO_fence_25 : Fld := ⟨0x0, 0x1000000000000, 0, 8, 0, 50, 2, 0, 16, 256⟩
/-- `CFG_FENCE_GPIO.fence_26` (R98). -/
def CFG_FENCE_GPIO_fence_26 : Fld := ⟨0x0, 0x1000000000000, 0, 8, 0, 52, 2, 0, 16, 256⟩
/-- `CFG_FENCE_GPIO.fence_27` (R98). -/
def CFG_FENCE_GPIO_fence_27 : Fld := ⟨0x0, 0x1000000000000, 0, 8, 0, 54, 2, 0, 16, 256⟩
/-- `CFG_FENCE_GPIO.fence_28` (R98). -/
def CFG_FENCE_GPIO_fence_28 : Fld := ⟨0x0, 0x1000000000000, 0, 8, 0, 56, 2, 0, 16, 256⟩
/-- `CFG_FENCE_GPIO.fence_29` (R98). -/
def CFG_FENCE_GPIO_fence_29 : Fld := ⟨0x0, 0x1000000000000, 0, 8, 0, 58, 2, 0, 16, 256⟩
/-- `CFG_FENCE_GPIO.fence_30` (R98). -/
def CFG_FENCE_GPIO_fence_30 : Fld := ⟨0x0, 0x1000000000000, 0, 8, 0, 60, 2, 0, 16, 256⟩
/-- `CFG_FENCE_GPIO.fence_31` (R98). -/
def CFG_FENCE_GPIO_fence_31 : Fld := ⟨0x0, 0x1000000000000, 0, 8, 0, 62, 2, 0, 16, 256⟩
/-- `CFG_FENCE_LVDS.fence` (R98). -/
def CFG_FENCE_LVDS_fence : Fld := ⟨0x0, 0x1000000000030, 0, 0, 0, 0, 32, 0, 16, 256⟩
/-- `CFG_FENCE_LN.fence` (R98). -/
def CFG_FENCE_LN_fence : Fld := ⟨0x0, 0x1000000000038, 0, 8, 0, 0, 64, 0, 16, 256⟩
/-- `CFG_FENCE_OP.fence` (R98). -/
def CFG_FENCE_OP_fence : Fld := ⟨0x0, 0x1000000000048, 0, 0, 0, 0, 32, 0, 16, 256⟩
/-- `CFG_LANE_EN.en` (R98). -/
def CFG_LANE_EN_en : Fld := ⟨0x0, 0x1000000000050, 0, 8, 0, 0, 64, 0, 16, 256⟩
/-- `CFG_OPT_EN.en` (R98). -/
def CFG_OPT_EN_en : Fld := ⟨0x0, 0x1000000000060, 0, 0, 0, 0, 32, 0, 16, 256⟩
/-- `HRT_CFG_STAT.state` (R114). -/
def HRT_CFG_STAT_state : Fld := ⟨0x0, 0xf00f000500, 0, 0, 0, 0, 3, 0, 15, 256⟩
/-- `HRT_CFG_STAT.source` (R114). -/
def HRT_CFG_STAT_source : Fld := ⟨0x0, 0xf00f000500, 0, 0, 0, 3, 3, 0, 15, 256⟩
/-- `HRT_CFG_STAT.busy` (R114). -/
def HRT_CFG_STAT_busy : Fld := ⟨0x0, 0xf00f000500, 0, 0, 0, 6, 1, 0, 15, 256⟩
/-- `HRT_CFG_STAT.bytes_in` (R114). -/
def HRT_CFG_STAT_bytes_in : Fld := ⟨0x0, 0xf00f000500, 0, 0, 0, 7, 40, 0, 15, 256⟩
/-- `HRT_CFG_STAT.extra_bytes` (R114). -/
def HRT_CFG_STAT_extra_bytes : Fld := ⟨0x0, 0xf00f000500, 0, 0, 0, 47, 16, 0, 15, 256⟩
/-- `HRT_CFG_ERR.code` (R114). -/
def HRT_CFG_ERR_code : Fld := ⟨0x0, 0xf00f000508, 0, 0, 0, 0, 8, 0, 15, 256⟩
/-- `HRT_CFG_ERR.secondary` (R114). -/
def HRT_CFG_ERR_secondary : Fld := ⟨0x0, 0xf00f000508, 0, 0, 0, 8, 8, 0, 15, 256⟩
/-- `HRT_CFG_ERR.byte_offset` (R114). -/
def HRT_CFG_ERR_byte_offset : Fld := ⟨0x0, 0xf00f000508, 0, 0, 0, 16, 32, 0, 15, 256⟩
/-- `HRT_CFG_ERRADDR.frame_addr` (R114). -/
def HRT_CFG_ERRADDR_frame_addr : Fld := ⟨0x0, 0xf00f000510, 0, 0, 0, 0, 24, 0, 15, 256⟩
/-- `HRT_CFG_ERRADDR.detail` (R114). -/
def HRT_CFG_ERRADDR_detail : Fld := ⟨0x0, 0xf00f000510, 0, 0, 0, 32, 32, 0, 15, 256⟩
/-- `HRT_CFG_SEC.key_present` (R114). -/
def HRT_CFG_SEC_key_present : Fld := ⟨0x0, 0xf00f000518, 0, 0, 0, 0, 4, 0, 15, 256⟩
/-- `HRT_CFG_SEC.key_revoked` (R114). -/
def HRT_CFG_SEC_key_revoked : Fld := ⟨0x0, 0xf00f000518, 0, 0, 0, 4, 4, 0, 15, 256⟩
/-- `HRT_CFG_SEC.bbk_valid` (R114). -/
def HRT_CFG_SEC_bbk_valid : Fld := ⟨0x0, 0xf00f000518, 0, 0, 0, 8, 1, 0, 15, 256⟩
/-- `HRT_CFG_SEC.tamper_seen` (R114). -/
def HRT_CFG_SEC_tamper_seen : Fld := ⟨0x0, 0xf00f000518, 0, 0, 0, 9, 1, 0, 15, 256⟩
/-- `HRT_CFG_SEC.bbk_allowed` (R114). -/
def HRT_CFG_SEC_bbk_allowed : Fld := ⟨0x0, 0xf00f000518, 0, 0, 0, 10, 1, 0, 15, 256⟩
/-- `HRT_CFG_SEC.sig_required` (R114). -/
def HRT_CFG_SEC_sig_required : Fld := ⟨0x0, 0xf00f000518, 0, 0, 0, 11, 1, 0, 15, 256⟩
/-- `HRT_CFG_SEC.svn_fuse` (R114). -/
def HRT_CFG_SEC_svn_fuse : Fld := ⟨0x0, 0xf00f000518, 0, 0, 0, 12, 7, 0, 15, 256⟩
/-- `HRT_CFG_SEC.slot0_valid` (R114). -/
def HRT_CFG_SEC_slot0_valid : Fld := ⟨0x0, 0xf00f000518, 0, 0, 0, 19, 1, 0, 15, 256⟩
/-- `HRT_CFG_SEC.slot1_valid` (R114). -/
def HRT_CFG_SEC_slot1_valid : Fld := ⟨0x0, 0xf00f000518, 0, 0, 0, 20, 1, 0, 15, 256⟩
/-- `HRT_CFG_SEC.boot_pref` (R114). -/
def HRT_CFG_SEC_boot_pref : Fld := ⟨0x0, 0xf00f000518, 0, 0, 0, 21, 1, 0, 15, 256⟩
/-- `HRT_CFG_SEC.slot0_svn` (R114). -/
def HRT_CFG_SEC_slot0_svn : Fld := ⟨0x0, 0xf00f000518, 0, 0, 0, 22, 7, 0, 15, 256⟩
/-- `HRT_CFG_SEC.slot1_svn` (R114). -/
def HRT_CFG_SEC_slot1_svn : Fld := ⟨0x0, 0xf00f000518, 0, 0, 0, 29, 7, 0, 15, 256⟩
/-- `HRT_CFG_SEC.slot_writing` (R114). -/
def HRT_CFG_SEC_slot_writing : Fld := ⟨0x0, 0xf00f000518, 0, 0, 0, 36, 1, 0, 15, 256⟩
/-- `HRT_CFG_CHAIN.chain_in` (R114). -/
def HRT_CFG_CHAIN_chain_in : Fld := ⟨0x0, 0xf00f000520, 0, 0, 0, 0, 1, 0, 15, 256⟩
/-- `HRT_CFG_CHAIN.chain_out_off` (R114). -/
def HRT_CFG_CHAIN_chain_out_off : Fld := ⟨0x0, 0xf00f000520, 0, 0, 0, 1, 1, 0, 15, 256⟩
/-- `HRT_CFG_CHAIN.done_pin` (R114). -/
def HRT_CFG_CHAIN_done_pin : Fld := ⟨0x0, 0xf00f000520, 0, 0, 0, 2, 1, 0, 15, 256⟩
/-- `HRT_CFG_CHAIN.released` (R114). -/
def HRT_CFG_CHAIN_released : Fld := ⟨0x0, 0xf00f000520, 0, 0, 0, 3, 1, 0, 15, 256⟩
/-- `HRT_CFG_CHAIN.remaining` (R114). -/
def HRT_CFG_CHAIN_remaining : Fld := ⟨0x0, 0xf00f000520, 0, 0, 0, 4, 4, 0, 15, 256⟩
/-- `HRT_CFG_CHAIN.forwarded` (R114). -/
def HRT_CFG_CHAIN_forwarded : Fld := ⟨0x0, 0xf00f000520, 0, 0, 0, 8, 1, 0, 15, 256⟩
/-- `HRT_CFG_CHAIN.link_error` (R114). -/
def HRT_CFG_CHAIN_link_error : Fld := ⟨0x0, 0xf00f000520, 0, 0, 0, 9, 1, 0, 15, 256⟩
/-- `HRT_CFG_CHAIN.wait_expired` (R114). -/
def HRT_CFG_CHAIN_wait_expired : Fld := ⟨0x0, 0xf00f000520, 0, 0, 0, 10, 1, 0, 15, 256⟩
/-- `HRT_CFG_CHAIN.bytes_out` (R114). -/
def HRT_CFG_CHAIN_bytes_out : Fld := ⟨0x0, 0xf00f000520, 0, 0, 0, 11, 40, 0, 15, 256⟩
/-- `HRT_CFG_USERID.user_id` (R114). -/
def HRT_CFG_USERID_user_id : Fld := ⟨0x0, 0xf00f000528, 0, 0, 0, 0, 64, 0, 15, 256⟩
/-- `HRT_TXN_STAT.state` (R149). -/
def HRT_TXN_STAT_state : Fld := ⟨0x0, 0xf00f000600, 0, 16, 0, 0, 4, 0, 15, 256⟩
/-- `HRT_TXN_STAT.owner` (R149). -/
def HRT_TXN_STAT_owner : Fld := ⟨0x0, 0xf00f000600, 0, 16, 0, 4, 8, 0, 15, 256⟩
/-- `HRT_TXN_STAT.writes` (R149). -/
def HRT_TXN_STAT_writes : Fld := ⟨0x0, 0xf00f000600, 0, 16, 0, 12, 17, 0, 15, 256⟩
/-- `HRT_TXN_STAT.streams` (R149). -/
def HRT_TXN_STAT_streams : Fld := ⟨0x0, 0xf00f000600, 0, 16, 0, 29, 5, 0, 15, 256⟩
/-- `HRT_TXN_STAT.status` (R149). -/
def HRT_TXN_STAT_status : Fld := ⟨0x0, 0xf00f000600, 0, 16, 0, 34, 8, 0, 15, 256⟩
/-- `HRT_TXN_STAT.stream_err` (R149). -/
def HRT_TXN_STAT_stream_err : Fld := ⟨0x0, 0xf00f000600, 0, 16, 0, 42, 8, 0, 15, 256⟩
/-- `HRT_TXN_STAT.base_mask` (R149). -/
def HRT_TXN_STAT_base_mask : Fld := ⟨0x0, 0xf00f000600, 0, 16, 0, 50, 4, 0, 15, 256⟩
/-- `HRT_TXN_AT.ns` (R149). -/
def HRT_TXN_AT_ns : Fld := ⟨0x0, 0xf00f000608, 0, 16, 0, 0, 32, 0, 15, 256⟩
/-- `HRT_TXN_AT.sec` (R149). -/
def HRT_TXN_AT_sec : Fld := ⟨0x0, 0xf00f000608, 0, 16, 0, 32, 32, 0, 15, 256⟩
/-- `HRT_COMMIT_LAST.txn` (R149). -/
def HRT_COMMIT_LAST_txn : Fld := ⟨0x0, 0xf00f000700, 0, 0, 0, 0, 4, 0, 15, 256⟩
/-- `HRT_COMMIT_LAST.base_mask` (R149). -/
def HRT_COMMIT_LAST_base_mask : Fld := ⟨0x0, 0xf00f000700, 0, 0, 0, 4, 4, 0, 15, 256⟩
/-- `HRT_COMMIT_LAST.fabric_mask` (R149). -/
def HRT_COMMIT_LAST_fabric_mask : Fld := ⟨0x0, 0xf00f000700, 0, 0, 0, 8, 12, 0, 15, 256⟩
/-- `HRT_COMMIT_LAST.rejoined` (R149). -/
def HRT_COMMIT_LAST_rejoined : Fld := ⟨0x0, 0xf00f000700, 0, 0, 0, 20, 1, 0, 15, 256⟩
/-- `HRT_COMMIT_TIME.ns` (R149). -/
def HRT_COMMIT_TIME_ns : Fld := ⟨0x0, 0xf00f000708, 0, 0, 0, 0, 32, 0, 15, 256⟩
/-- `HRT_COMMIT_TIME.sec` (R149). -/
def HRT_COMMIT_TIME_sec : Fld := ⟨0x0, 0xf00f000708, 0, 0, 0, 32, 32, 0, 15, 256⟩
/-- `HRT_SCRUB_STAT.last_sweep_us` (R149). -/
def HRT_SCRUB_STAT_last_sweep_us : Fld := ⟨0x0, 0xf00f000710, 0, 0, 0, 0, 14, 0, 15, 256⟩
/-- `HRT_SCRUB_STAT.corrected` (R149). -/
def HRT_SCRUB_STAT_corrected : Fld := ⟨0x0, 0xf00f000710, 0, 0, 0, 16, 16, 0, 15, 1⟩
/-- `HRT_SCRUB_STAT.uncorrectable` (R149). -/
def HRT_SCRUB_STAT_uncorrectable : Fld := ⟨0x0, 0xf00f000710, 0, 0, 0, 32, 16, 0, 15, 2⟩
/-- `HRT_SCRUB_STAT.rebuild_pending` (R149). -/
def HRT_SCRUB_STAT_rebuild_pending : Fld := ⟨0x0, 0xf00f000710, 0, 0, 0, 48, 8, 0, 15, 256⟩
/-- `HRT_SCRUB_ERR.frame_addr` (R149). -/
def HRT_SCRUB_ERR_frame_addr : Fld := ⟨0x0, 0xf00f000718, 0, 0, 0, 0, 24, 0, 15, 256⟩
/-- `HRT_SCRUB_ERR.plane` (R149). -/
def HRT_SCRUB_ERR_plane : Fld := ⟨0x0, 0xf00f000718, 0, 0, 0, 24, 1, 0, 15, 256⟩
/-- `HRT_SCRUB_ERR.action` (R149). -/
def HRT_SCRUB_ERR_action : Fld := ⟨0x0, 0xf00f000718, 0, 0, 0, 25, 2, 0, 15, 256⟩
/-- `HRT_CFG_RESTORE.restore_dies` (R149). -/
def HRT_CFG_RESTORE_restore_dies : Fld := ⟨0x0, 0xf00f000720, 0, 0, 0, 0, 12, 0, 15, 256⟩
/-- `HRT_CFG_RESTORE.resync_dies` (R149). -/
def HRT_CFG_RESTORE_resync_dies : Fld := ⟨0x0, 0xf00f000720, 0, 0, 0, 12, 12, 0, 15, 256⟩
/-- `HRT_CFG_RD.value` (R149). -/
def HRT_CFG_RD_value : Fld := ⟨0x0, 0xf00f000800, 0, 8, 0, 0, 64, 0, 15, 256⟩
/-- `FAB_RGN_DEF.die` (R150). -/
def FAB_RGN_DEF_die : Fld := ⟨0x1000000, 0xf400020000, 0, 32, 0, 0, 4, 0, 16, 256⟩
/-- `FAB_RGN_DEF.first_row` (R150). -/
def FAB_RGN_DEF_first_row : Fld := ⟨0x1000000, 0xf400020000, 0, 32, 0, 4, 4, 0, 16, 256⟩
/-- `FAB_RGN_DEF.last_row` (R150). -/
def FAB_RGN_DEF_last_row : Fld := ⟨0x1000000, 0xf400020000, 0, 32, 0, 8, 4, 0, 16, 256⟩
/-- `FAB_RGN_DEF.first_col` (R150). -/
def FAB_RGN_DEF_first_col : Fld := ⟨0x1000000, 0xf400020000, 0, 32, 0, 12, 10, 0, 16, 256⟩
/-- `FAB_RGN_DEF.width` (R150). -/
def FAB_RGN_DEF_width : Fld := ⟨0x1000000, 0xf400020000, 0, 32, 0, 22, 10, 0, 16, 256⟩
/-- `FAB_RGN_DEF.vacant_ok` (R150). -/
def FAB_RGN_DEF_vacant_ok : Fld := ⟨0x1000000, 0xf400020000, 0, 32, 0, 32, 1, 0, 16, 256⟩
/-- `FAB_RGN_DEF.defined` (R150). -/
def FAB_RGN_DEF_defined : Fld := ⟨0x1000000, 0xf400020000, 0, 32, 0, 33, 1, 0, 16, 256⟩
/-- `FAB_RGN_CTL.rst_len` (R150). -/
def FAB_RGN_CTL_rst_len : Fld := ⟨0x1000000, 0xf400020008, 0, 32, 0, 0, 16, 16, 16, 256⟩
/-- `FAB_RGN_CTL.rst_clk` (R150). -/
def FAB_RGN_CTL_rst_clk : Fld := ⟨0x1000000, 0xf400020008, 0, 32, 0, 16, 5, 0, 16, 256⟩
/-- `FAB_RGN_CTL.icp_ok` (R150). -/
def FAB_RGN_CTL_icp_ok : Fld := ⟨0x1000000, 0xf400020008, 0, 32, 0, 21, 1, 0, 16, 256⟩
/-- `FAB_RGN_CTL.twin_valid` (R150). -/
def FAB_RGN_CTL_twin_valid : Fld := ⟨0x1000000, 0xf400020008, 0, 32, 0, 22, 1, 0, 16, 256⟩
/-- `FAB_RGN_CTL.twin_die` (R150). -/
def FAB_RGN_CTL_twin_die : Fld := ⟨0x1000000, 0xf400020008, 0, 32, 0, 23, 4, 0, 16, 256⟩
/-- `FAB_RGN_CTL.twin_rgn` (R150). -/
def FAB_RGN_CTL_twin_rgn : Fld := ⟨0x1000000, 0xf400020008, 0, 32, 0, 27, 6, 0, 16, 256⟩
/-- `FAB_RGN_STAT.state` (R150). -/
def FAB_RGN_STAT_state : Fld := ⟨0x1000000, 0xf400020010, 0, 32, 0, 0, 3, 0, 16, 256⟩
/-- `FAB_RGN_STAT.clk_stalled` (R150). -/
def FAB_RGN_STAT_clk_stalled : Fld := ⟨0x1000000, 0xf400020010, 0, 32, 0, 3, 1, 0, 16, 256⟩
/-- `FAB_RGN_STAT.txn` (R150). -/
def FAB_RGN_STAT_txn : Fld := ⟨0x1000000, 0xf400020010, 0, 32, 0, 4, 4, 0, 16, 256⟩
/-- `FAB_RGN_STAT.txn_valid` (R150). -/
def FAB_RGN_STAT_txn_valid : Fld := ⟨0x1000000, 0xf400020010, 0, 32, 0, 8, 1, 0, 16, 256⟩
/-- `FAB_RGN_STAT.relocated` (R150). -/
def FAB_RGN_STAT_relocated : Fld := ⟨0x1000000, 0xf400020010, 0, 32, 0, 9, 1, 0, 16, 256⟩
/-- `FAB_RGN_STAT.placed_col` (R150). -/
def FAB_RGN_STAT_placed_col : Fld := ⟨0x1000000, 0xf400020010, 0, 32, 0, 10, 10, 0, 16, 256⟩
/-- `FAB_RGN_STAT.dropped_rsp` (R150). -/
def FAB_RGN_STAT_dropped_rsp : Fld := ⟨0x1000000, 0xf400020010, 0, 32, 0, 20, 16, 0, 16, 256⟩
/-- `FAB_RGN_BUILD.build` (R150). -/
def FAB_RGN_BUILD_build : Fld := ⟨0x1000000, 0xf400020018, 0, 32, 0, 0, 64, 0, 16, 256⟩
/-- `FAB_ICP_CTL.enable` (R150). -/
def FAB_ICP_CTL_enable : Fld := ⟨0x1000000, 0xf400021000, 0, 0, 0, 0, 1, 0, 16, 256⟩
/-- `FAB_ICP_CTL.readback_ok` (R150). -/
def FAB_ICP_CTL_readback_ok : Fld := ⟨0x1000000, 0xf400021000, 0, 0, 0, 1, 1, 0, 16, 256⟩
/-- `FAB_ICP_CTL.peat_ok` (R150). -/
def FAB_ICP_CTL_peat_ok : Fld := ⟨0x1000000, 0xf400021000, 0, 0, 0, 2, 1, 0, 16, 256⟩
/-- `FAB_ICP_STAT.state` (R150). -/
def FAB_ICP_STAT_state : Fld := ⟨0x1000000, 0xf400021008, 0, 0, 0, 0, 3, 0, 16, 256⟩
/-- `FAB_ICP_STAT.err` (R150). -/
def FAB_ICP_STAT_err : Fld := ⟨0x1000000, 0xf400021008, 0, 0, 0, 3, 8, 0, 16, 256⟩
/-- `FAB_ICP_STAT.busy_other` (R150). -/
def FAB_ICP_STAT_busy_other : Fld := ⟨0x1000000, 0xf400021008, 0, 0, 0, 11, 1, 0, 16, 256⟩
/-- `FAB_RGN_SP.sp` (R150). -/
def FAB_RGN_SP_sp : Fld := ⟨0x1000000, 0xf400022000, 0, 16, 0, 0, 64, 0, 16, 256⟩
/-- `FAB_RGN_AP.ap` (R150). -/
def FAB_RGN_AP_ap : Fld := ⟨0x1000000, 0xf400022008, 0, 16, 0, 0, 32, 0, 16, 256⟩
/-- `FAB_ID.die` (R180). -/
def FAB_ID_die : Fld := ⟨0x1000000, 0xf400000000, 0, 0, 0, 0, 4, 0, 16, 256⟩
/-- `FAB_ID.base` (R180). -/
def FAB_ID_base : Fld := ⟨0x1000000, 0xf400000000, 0, 0, 0, 4, 2, 0, 16, 256⟩
/-- `FAB_ID.grade` (R180). -/
def FAB_ID_grade : Fld := ⟨0x1000000, 0xf400000000, 0, 0, 0, 6, 2, 0, 16, 256⟩
/-- `FAB_STATUS.gsr` (R180). -/
def FAB_STATUS_gsr : Fld := ⟨0x1000000, 0xf400000008, 0, 0, 0, 0, 1, 1, 16, 256⟩
/-- `FAB_STATUS.fenced` (R180). -/
def FAB_STATUS_fenced : Fld := ⟨0x1000000, 0xf400000008, 0, 0, 0, 1, 1, 1, 16, 256⟩
/-- `FAB_STATUS.die_reset` (R180). -/
def FAB_STATUS_die_reset : Fld := ⟨0x1000000, 0xf400000008, 0, 0, 0, 2, 1, 0, 16, 256⟩
/-- `FAB_STATUS.clash` (R180). -/
def FAB_STATUS_clash : Fld := ⟨0x1000000, 0xf400000008, 0, 0, 0, 3, 1, 0, 16, 256⟩
/-- `FAB_STATUS.net_stopped` (R180). -/
def FAB_STATUS_net_stopped : Fld := ⟨0x1000000, 0xf400000008, 0, 0, 0, 4, 32, 0, 16, 256⟩
/-- `FAB_STATUS.pll_locked` (R180). -/
def FAB_STATUS_pll_locked : Fld := ⟨0x1000000, 0xf400000008, 0, 0, 0, 36, 4, 0, 16, 256⟩
/-- `FAB_STATUS.spll_locked` (R180). -/
def FAB_STATUS_spll_locked : Fld := ⟨0x1000000, 0xf400000008, 0, 0, 0, 40, 2, 0, 16, 256⟩
/-- `FAB_CLASH.line` (R180). -/
def FAB_CLASH_line : Fld := ⟨0x1000000, 0xf400000010, 0, 0, 0, 0, 32, 0, 16, 256⟩
/-- `FAB_CLASH.count` (R180). -/
def FAB_CLASH_count : Fld := ⟨0x1000000, 0xf400000010, 0, 0, 0, 32, 16, 0, 16, 256⟩
/-- `FAB_XB_SUM.one_spare` (R180). -/
def FAB_XB_SUM_one_spare : Fld := ⟨0x1000000, 0xf400000018, 0, 8, 0, 0, 13, 0, 16, 256⟩
/-- `FAB_XB_SUM.two_spares` (R180). -/
def FAB_XB_SUM_two_spares : Fld := ⟨0x1000000, 0xf400000018, 0, 8, 0, 13, 13, 0, 16, 256⟩
/-- `FAB_XB_SUM.pool_used` (R180). -/
def FAB_XB_SUM_pool_used : Fld := ⟨0x1000000, 0xf400000018, 0, 8, 0, 26, 7, 0, 16, 256⟩
/-- `FAB_XB_SUM.err_cycles` (R180). -/
def FAB_XB_SUM_err_cycles : Fld := ⟨0x1000000, 0xf400000018, 0, 8, 0, 33, 16, 0, 16, 256⟩
/-- `FAB_PLL_CFG.enable` (R180). -/
def FAB_PLL_CFG_enable : Fld := ⟨0x1000000, 0xf400010000, 0, 16, 0, 0, 1, 0, 16, 256⟩
/-- `FAB_PLL_CFG.ref_sel` (R180). -/
def FAB_PLL_CFG_ref_sel : Fld := ⟨0x1000000, 0xf400010000, 0, 16, 0, 1, 2, 0, 16, 256⟩
/-- `FAB_PLL_CFG.ref_idx` (R180). -/
def FAB_PLL_CFG_ref_idx : Fld := ⟨0x1000000, 0xf400010000, 0, 16, 0, 3, 5, 0, 16, 256⟩
/-- `FAB_PLL_CFG.mult` (R180). -/
def FAB_PLL_CFG_mult : Fld := ⟨0x1000000, 0xf400010000, 0, 16, 0, 8, 7, 28, 16, 256⟩
/-- `FAB_PLL_CFG.div_in` (R180). -/
def FAB_PLL_CFG_div_in : Fld := ⟨0x1000000, 0xf400010000, 0, 16, 0, 15, 6, 1, 16, 256⟩
/-- `FAB_PLL_CFG.div0` (R180). -/
def FAB_PLL_CFG_div0 : Fld := ⟨0x1000000, 0xf400010000, 0, 16, 0, 21, 8, 4, 16, 256⟩
/-- `FAB_PLL_CFG.div1` (R180). -/
def FAB_PLL_CFG_div1 : Fld := ⟨0x1000000, 0xf400010000, 0, 16, 0, 29, 8, 4, 16, 256⟩
/-- `FAB_PLL_CFG.div2` (R180). -/
def FAB_PLL_CFG_div2 : Fld := ⟨0x1000000, 0xf400010000, 0, 16, 0, 37, 8, 4, 16, 256⟩
/-- `FAB_PLL_CFG.div3` (R180). -/
def FAB_PLL_CFG_div3 : Fld := ⟨0x1000000, 0xf400010000, 0, 16, 0, 45, 8, 4, 16, 256⟩
/-- `FAB_PLL_STAT.locked` (R180). -/
def FAB_PLL_STAT_locked : Fld := ⟨0x1000000, 0xf400010008, 0, 16, 0, 0, 1, 0, 16, 256⟩
/-- `FAB_PLL_STAT.losses` (R180). -/
def FAB_PLL_STAT_losses : Fld := ⟨0x1000000, 0xf400010008, 0, 16, 0, 1, 16, 0, 16, 256⟩
/-- `FAB_PLL_STAT.ref_khz` (R180). -/
def FAB_PLL_STAT_ref_khz : Fld := ⟨0x1000000, 0xf400010008, 0, 16, 0, 17, 24, 0, 16, 256⟩
/-- `FAB_PLL_STAT.ref_bad` (R180). -/
def FAB_PLL_STAT_ref_bad : Fld := ⟨0x1000000, 0xf400010008, 0, 16, 0, 41, 1, 0, 16, 256⟩
/-- `FAB_GNET.src` (R180). -/
def FAB_GNET_src : Fld := ⟨0x1000000, 0xf400010100, 0, 8, 0, 0, 2, 0, 16, 256⟩
/-- `FAB_GNET.idx` (R180). -/
def FAB_GNET_idx : Fld := ⟨0x1000000, 0xf400010100, 0, 8, 0, 2, 4, 0, 16, 256⟩
/-- `FAB_GNET.mon_en` (R180). -/
def FAB_GNET_mon_en : Fld := ⟨0x1000000, 0xf400010100, 0, 8, 0, 6, 1, 0, 16, 256⟩
/-- `CRD_CFG.err_thresh` (R204). -/
def CRD_CFG_err_thresh : Fld := ⟨0x10000000, 0xf00a000000, 0, 0, 0, 0, 3, 4, 10, 256⟩
/-- `CRD_CFG.err_window` (R204). -/
def CRD_CFG_err_window : Fld := ⟨0x10000000, 0xf00a000000, 0, 0, 0, 3, 4, 10, 10, 256⟩
/-- `CRD_CFG.narrow_en` (R204). -/
def CRD_CFG_narrow_en : Fld := ⟨0x10000000, 0xf00a000000, 0, 0, 0, 7, 1, 1, 10, 256⟩
/-- `CRD_SUM.narrowed` (R204). -/
def CRD_SUM_narrowed : Fld := ⟨0x10000000, 0xf00a000008, 0, 0, 0, 0, 8, 0, 10, 256⟩
/-- `CRD_SUM.out` (R204). -/
def CRD_SUM_out : Fld := ⟨0x10000000, 0xf00a000008, 0, 0, 0, 8, 8, 0, 10, 256⟩
/-- `CRD_SUM.lc_narrowed` (R204). -/
def CRD_SUM_lc_narrowed : Fld := ⟨0x10000000, 0xf00a000008, 0, 0, 0, 16, 8, 0, 10, 256⟩
/-- `CRD_SUM.training` (R204). -/
def CRD_SUM_training : Fld := ⟨0x10000000, 0xf00a000008, 0, 0, 0, 24, 8, 0, 10, 256⟩
/-- `CRD_CORD_STAT.state` (R204). -/
def CRD_CORD_STAT_state : Fld := ⟨0x10000000, 0xf00a001000, 0, 16, 0, 0, 3, 0, 10, 256⟩
/-- `CRD_CORD_STAT.spares_used` (R204). -/
def CRD_CORD_STAT_spares_used : Fld := ⟨0x10000000, 0xf00a001000, 0, 16, 0, 3, 3, 0, 10, 256⟩
/-- `CRD_CORD_STAT.ck_spare` (R204). -/
def CRD_CORD_STAT_ck_spare : Fld := ⟨0x10000000, 0xf00a001000, 0, 16, 0, 6, 1, 0, 10, 256⟩
/-- `CRD_CORD_STAT.rx_end` (R204). -/
def CRD_CORD_STAT_rx_end : Fld := ⟨0x10000000, 0xf00a001000, 0, 16, 0, 7, 1, 0, 10, 256⟩
/-- `CRD_CORD_STAT.bad_wires` (R204). -/
def CRD_CORD_STAT_bad_wires : Fld := ⟨0x10000000, 0xf00a001000, 0, 16, 0, 8, 7, 0, 10, 256⟩
/-- `CRD_CORD_STAT.replays` (R204). -/
def CRD_CORD_STAT_replays : Fld := ⟨0x10000000, 0xf00a001000, 0, 16, 0, 15, 16, 0, 10, 0⟩
/-- `CRD_CORD_STAT.crc_err` (R204). -/
def CRD_CORD_STAT_crc_err : Fld := ⟨0x10000000, 0xf00a001000, 0, 16, 0, 31, 16, 0, 10, 1⟩
/-- `CRD_CORD_STAT.cap_err` (R204). -/
def CRD_CORD_STAT_cap_err : Fld := ⟨0x10000000, 0xf00a001000, 0, 16, 0, 47, 3, 0, 10, 256⟩
/-- `CRD_CORD_STAT.bad_conduct` (R204). -/
def CRD_CORD_STAT_bad_conduct : Fld := ⟨0x10000000, 0xf00a001000, 0, 16, 0, 50, 8, 0, 10, 2⟩
/-- `CRD_CORD_MAP.s0_wire` (R204). -/
def CRD_CORD_MAP_s0_wire : Fld := ⟨0x10000000, 0xf00a001008, 0, 16, 0, 0, 7, 127, 10, 256⟩
/-- `CRD_CORD_MAP.s1_wire` (R204). -/
def CRD_CORD_MAP_s1_wire : Fld := ⟨0x10000000, 0xf00a001008, 0, 16, 0, 7, 7, 127, 10, 256⟩
/-- `CRD_CORD_MAP.s2_wire` (R204). -/
def CRD_CORD_MAP_s2_wire : Fld := ⟨0x10000000, 0xf00a001008, 0, 16, 0, 14, 7, 127, 10, 256⟩
/-- `CRD_CORD_MAP.s3_wire` (R204). -/
def CRD_CORD_MAP_s3_wire : Fld := ⟨0x10000000, 0xf00a001008, 0, 16, 0, 21, 7, 127, 10, 256⟩
/-- `CRD_LC_STAT.state` (R204). -/
def CRD_LC_STAT_state : Fld := ⟨0x10000000, 0xf00a002000, 0, 16, 0, 0, 3, 0, 10, 256⟩
/-- `CRD_LC_STAT.spares_used` (R204). -/
def CRD_LC_STAT_spares_used : Fld := ⟨0x10000000, 0xf00a002000, 0, 16, 0, 3, 2, 0, 10, 256⟩
/-- `CRD_LC_STAT.rx_end` (R204). -/
def CRD_LC_STAT_rx_end : Fld := ⟨0x10000000, 0xf00a002000, 0, 16, 0, 7, 1, 0, 10, 256⟩
/-- `CRD_LC_STAT.bad_waves` (R204). -/
def CRD_LC_STAT_bad_waves : Fld := ⟨0x10000000, 0xf00a002000, 0, 16, 0, 8, 5, 0, 10, 256⟩
/-- `CRD_LC_STAT.replays` (R204). -/
def CRD_LC_STAT_replays : Fld := ⟨0x10000000, 0xf00a002000, 0, 16, 0, 15, 16, 0, 10, 3⟩
/-- `CRD_LC_STAT.crc_err` (R204). -/
def CRD_LC_STAT_crc_err : Fld := ⟨0x10000000, 0xf00a002000, 0, 16, 0, 31, 16, 0, 10, 4⟩
/-- `CRD_LC_STAT.cap_err` (R204). -/
def CRD_LC_STAT_cap_err : Fld := ⟨0x10000000, 0xf00a002000, 0, 16, 0, 47, 3, 0, 10, 256⟩
/-- `CRD_LC_STAT.bad_conduct` (R204). -/
def CRD_LC_STAT_bad_conduct : Fld := ⟨0x10000000, 0xf00a002000, 0, 16, 0, 50, 8, 0, 10, 5⟩
/-- `CRD_LC_MAP.w16` (R204). -/
def CRD_LC_MAP_w16 : Fld := ⟨0x10000000, 0xf00a002008, 0, 16, 0, 0, 5, 31, 10, 256⟩
/-- `CRD_LC_MAP.w17` (R204). -/
def CRD_LC_MAP_w17 : Fld := ⟨0x10000000, 0xf00a002008, 0, 16, 0, 5, 5, 31, 10, 256⟩
/-- `CRD_FAR_CFG.enable` (R204). -/
def CRD_FAR_CFG_enable : Fld := ⟨0x10000000, 0xf00a003000, 0, 256, 0, 0, 1, 0, 10, 256⟩
/-- `CRD_FAR_CFG.rate` (R204). -/
def CRD_FAR_CFG_rate : Fld := ⟨0x10000000, 0xf00a003000, 0, 256, 0, 1, 1, 0, 10, 256⟩
/-- `CRD_FAR_CFG.pkg` (R204). -/
def CRD_FAR_CFG_pkg : Fld := ⟨0x10000000, 0xf00a003000, 0, 256, 0, 2, 2, 0, 10, 256⟩
/-- `CRD_FAR_CFG.encrypt` (R204). -/
def CRD_FAR_CFG_encrypt : Fld := ⟨0x10000000, 0xf00a003000, 0, 256, 0, 4, 1, 0, 10, 256⟩
/-- `CRD_FAR_STAT.state` (R204). -/
def CRD_FAR_STAT_state : Fld := ⟨0x10000000, 0xf00a003008, 0, 256, 0, 0, 3, 0, 10, 256⟩
/-- `CRD_FAR_STAT.lanes_up` (R204). -/
def CRD_FAR_STAT_lanes_up : Fld := ⟨0x10000000, 0xf00a003008, 0, 256, 0, 3, 4, 0, 10, 256⟩
/-- `CRD_FAR_STAT.rtt_ns` (R204). -/
def CRD_FAR_STAT_rtt_ns : Fld := ⟨0x10000000, 0xf00a003008, 0, 256, 0, 7, 16, 0, 10, 256⟩
/-- `CRD_FAR_STAT.cap_err` (R204). -/
def CRD_FAR_STAT_cap_err : Fld := ⟨0x10000000, 0xf00a003008, 0, 256, 0, 23, 3, 0, 10, 256⟩
/-- `CRD_FAR_STAT.bad_pkts` (R204). -/
def CRD_FAR_STAT_bad_pkts : Fld := ⟨0x10000000, 0xf00a003008, 0, 256, 0, 26, 16, 0, 10, 6⟩
/-- `CRD_FAR_STAT.replays` (R204). -/
def CRD_FAR_STAT_replays : Fld := ⟨0x10000000, 0xf00a003008, 0, 256, 0, 42, 16, 0, 10, 7⟩
/-- `CRD_FAR_CAP.bytes` (R204). -/
def CRD_FAR_CAP_bytes : Fld := ⟨0x10000000, 0xf00a003040, 0, 256, 8, 0, 64, 0, 10, 256⟩
/-- `NOC_CFG.thr_on` (R230). -/
def NOC_CFG_thr_on : Fld := ⟨0x10000000, 0xf002000000, 0, 0, 0, 0, 7, 95, 2, 256⟩
/-- `NOC_CFG.thr_off` (R230). -/
def NOC_CFG_thr_off : Fld := ⟨0x10000000, 0xf002000000, 0, 0, 0, 7, 7, 90, 2, 256⟩
/-- `NOC_CFG.hold_max` (R230). -/
def NOC_CFG_hold_max : Fld := ⟨0x10000000, 0xf002000000, 0, 0, 0, 14, 8, 100, 2, 256⟩
/-- `NOC_CFG.stats_en` (R230). -/
def NOC_CFG_stats_en : Fld := ⟨0x10000000, 0xf002000000, 0, 0, 0, 22, 1, 1, 2, 256⟩
/-- `NOC_STATUS.epoch` (R230). -/
def NOC_STATUS_epoch : Fld := ⟨0x10000000, 0xf002000008, 0, 0, 0, 0, 1, 0, 2, 256⟩
/-- `NOC_STATUS.epoch_draining` (R230). -/
def NOC_STATUS_epoch_draining : Fld := ⟨0x10000000, 0xf002000008, 0, 0, 0, 1, 1, 0, 2, 256⟩
/-- `NOC_STATUS.rt_down` (R230). -/
def NOC_STATUS_rt_down : Fld := ⟨0x10000000, 0xf002000008, 0, 0, 0, 2, 32, 0, 2, 256⟩
/-- `NOC_STATUS.throttling` (R230). -/
def NOC_STATUS_throttling : Fld := ⟨0x10000000, 0xf002000008, 0, 0, 0, 34, 1, 0, 2, 256⟩
/-- `NOC_STATUS.old_flits` (R230). -/
def NOC_STATUS_old_flits : Fld := ⟨0x10000000, 0xf002000008, 0, 0, 0, 35, 20, 0, 2, 256⟩
/-- `NOC_RT_STAT.state` (R230). -/
def NOC_RT_STAT_state : Fld := ⟨0x10000000, 0xf002000100, 0, 8, 0, 0, 3, 0, 2, 256⟩
/-- `NOC_RT_STAT.dropped` (R230). -/
def NOC_RT_STAT_dropped : Fld := ⟨0x10000000, 0xf002000100, 0, 8, 0, 3, 16, 0, 2, 0⟩
/-- `NOC_RT_STAT.ecc_corr` (R230). -/
def NOC_RT_STAT_ecc_corr : Fld := ⟨0x10000000, 0xf002000100, 0, 8, 0, 19, 16, 0, 2, 1⟩
/-- `NOC_RT_STAT.aged` (R230). -/
def NOC_RT_STAT_aged : Fld := ⟨0x10000000, 0xf002000100, 0, 8, 0, 35, 16, 0, 2, 2⟩
/-- `NOC_RT_STAT.util` (R230). -/
def NOC_RT_STAT_util : Fld := ⟨0x10000000, 0xf002000100, 0, 8, 0, 51, 7, 0, 2, 256⟩
/-- `NOC_ROUTE.port` (R230). -/
def NOC_ROUTE_port : Fld := ⟨0x10000000, 0xf002010000, 0, 2048, 8, 0, 4, 0, 2, 256⟩
/-- `NOC_ROUTE.alt` (R230). -/
def NOC_ROUTE_alt : Fld := ⟨0x10000000, 0xf002010000, 0, 2048, 8, 4, 4, 0, 2, 256⟩
/-- `NOC_ROUTE.valid` (R230). -/
def NOC_ROUTE_valid : Fld := ⟨0x10000000, 0xf002010000, 0, 2048, 8, 8, 1, 0, 2, 256⟩
/-- `NOC_ROUTE.alt_valid` (R230). -/
def NOC_ROUTE_alt_valid : Fld := ⟨0x10000000, 0xf002010000, 0, 2048, 8, 9, 1, 0, 2, 256⟩
/-- `NOC_INIT_CFG.timeout` (R230). -/
def NOC_INIT_CFG_timeout : Fld := ⟨0x10000000, 0xf002020000, 0, 256, 0, 0, 17, 20, 2, 256⟩
/-- `NOC_INIT_CFG.hist_clr` (R230). -/
def NOC_INIT_CFG_hist_clr : Fld := ⟨0x10000000, 0xf002020000, 0, 256, 0, 17, 1, 0, 2, 256⟩
/-- `NOC_INIT_RD.bytes` (R230). -/
def NOC_INIT_RD_bytes : Fld := ⟨0x10000000, 0xf002020008, 0, 256, 0, 0, 64, 0, 2, 256⟩
/-- `NOC_INIT_WR.bytes` (R230). -/
def NOC_INIT_WR_bytes : Fld := ⟨0x10000000, 0xf002020010, 0, 256, 0, 0, 64, 0, 2, 256⟩
/-- `NOC_INIT_ERR.timeouts` (R230). -/
def NOC_INIT_ERR_timeouts : Fld := ⟨0x10000000, 0xf002020018, 0, 256, 0, 0, 12, 0, 2, 3⟩
/-- `NOC_INIT_ERR.late` (R230). -/
def NOC_INIT_ERR_late : Fld := ⟨0x10000000, 0xf002020018, 0, 256, 0, 12, 12, 0, 2, 4⟩
/-- `NOC_INIT_ERR.noroute` (R230). -/
def NOC_INIT_ERR_noroute : Fld := ⟨0x10000000, 0xf002020018, 0, 256, 0, 24, 12, 0, 2, 5⟩
/-- `NOC_INIT_ERR.domoff` (R230). -/
def NOC_INIT_ERR_domoff : Fld := ⟨0x10000000, 0xf002020018, 0, 256, 0, 36, 12, 0, 2, 6⟩
/-- `NOC_INIT_ERR.reject` (R230). -/
def NOC_INIT_ERR_reject : Fld := ⟨0x10000000, 0xf002020018, 0, 256, 0, 48, 12, 0, 2, 7⟩
/-- `NOC_INIT_HIST.count` (R230). -/
def NOC_INIT_HIST_count : Fld := ⟨0x10000000, 0xf002020040, 0, 256, 8, 0, 48, 0, 2, 256⟩
/-- `SSW_STATUS.de_up` (R259). -/
def SSW_STATUS_de_up : Fld := ⟨0x10000000, 0xf001000000, 0, 0, 0, 0, 9, 0, 1, 256⟩
/-- `SSW_STATUS.spare_busy` (R259). -/
def SSW_STATUS_spare_busy : Fld := ⟨0x10000000, 0xf001000000, 0, 0, 0, 9, 1, 0, 1, 256⟩
/-- `SSW_STATUS.overbooked` (R259). -/
def SSW_STATUS_overbooked : Fld := ⟨0x10000000, 0xf001000000, 0, 0, 0, 10, 1, 0, 1, 256⟩
/-- `SSW_STATUS.adm_err` (R259). -/
def SSW_STATUS_adm_err : Fld := ⟨0x10000000, 0xf001000000, 0, 0, 0, 11, 3, 0, 1, 256⟩
/-- `SSW_STATUS.adm_slot` (R259). -/
def SSW_STATUS_adm_slot : Fld := ⟨0x10000000, 0xf001000000, 0, 0, 0, 14, 12, 0, 1, 256⟩
/-- `SSW_POOL.free` (R259). -/
def SSW_POOL_free : Fld := ⟨0x10000000, 0xf001000008, 0, 0, 0, 0, 17, 0, 1, 256⟩
/-- `SSW_POOL.allotted` (R259). -/
def SSW_POOL_allotted : Fld := ⟨0x10000000, 0xf001000008, 0, 0, 0, 17, 17, 0, 1, 256⟩
/-- `SSW_POOL.reserved` (R259). -/
def SSW_POOL_reserved : Fld := ⟨0x10000000, 0xf001000008, 0, 0, 0, 34, 17, 0, 1, 256⟩
/-- `SSW_SLOT_CFG.enable` (R259). -/
def SSW_SLOT_CFG_enable : Fld := ⟨0x10000000, 0xf001010000, 0, 64, 0, 0, 1, 0, 1, 256⟩
/-- `SSW_SLOT_CFG.src_type` (R259). -/
def SSW_SLOT_CFG_src_type : Fld := ⟨0x10000000, 0xf001010000, 0, 64, 0, 1, 3, 0, 1, 256⟩
/-- `SSW_SLOT_CFG.src_unit` (R259). -/
def SSW_SLOT_CFG_src_unit : Fld := ⟨0x10000000, 0xf001010000, 0, 64, 0, 4, 3, 0, 1, 256⟩
/-- `SSW_SLOT_CFG.src_idx` (R259). -/
def SSW_SLOT_CFG_src_idx : Fld := ⟨0x10000000, 0xf001010000, 0, 64, 0, 7, 6, 0, 1, 256⟩
/-- `SSW_SLOT_CFG.sink_type` (R259). -/
def SSW_SLOT_CFG_sink_type : Fld := ⟨0x10000000, 0xf001010000, 0, 64, 0, 13, 3, 0, 1, 256⟩
/-- `SSW_SLOT_CFG.sink_die` (R259). -/
def SSW_SLOT_CFG_sink_die : Fld := ⟨0x10000000, 0xf001010000, 0, 64, 0, 16, 2, 0, 1, 256⟩
/-- `SSW_SLOT_CFG.sink_unit` (R259). -/
def SSW_SLOT_CFG_sink_unit : Fld := ⟨0x10000000, 0xf001010000, 0, 64, 0, 18, 3, 0, 1, 256⟩
/-- `SSW_SLOT_CFG.sink_idx` (R259). -/
def SSW_SLOT_CFG_sink_idx : Fld := ⟨0x10000000, 0xf001010000, 0, 64, 0, 21, 6, 0, 1, 256⟩
/-- `SSW_SLOT_CFG.sw_port` (R259). -/
def SSW_SLOT_CFG_sw_port : Fld := ⟨0x10000000, 0xf001010000, 0, 64, 0, 27, 3, 0, 1, 256⟩
/-- `SSW_SLOT_CFG.fs` (R259). -/
def SSW_SLOT_CFG_fs : Fld := ⟨0x10000000, 0xf001010000, 0, 64, 0, 30, 8, 0, 1, 256⟩
/-- `SSW_SLOT_CFG.kind` (R259). -/
def SSW_SLOT_CFG_kind : Fld := ⟨0x10000000, 0xf001010000, 0, 64, 0, 38, 3, 0, 1, 256⟩
/-- `SSW_SLOT_CFG.cg` (R259). -/
def SSW_SLOT_CFG_cg : Fld := ⟨0x10000000, 0xf001010000, 0, 64, 0, 41, 8, 0, 1, 256⟩
/-- `SSW_SLOT_CFG.seq_stamp` (R259). -/
def SSW_SLOT_CFG_seq_stamp : Fld := ⟨0x10000000, 0xf001010000, 0, 64, 0, 49, 1, 0, 1, 256⟩
/-- `SSW_SLOT_RATE.unit_bytes` (R259). -/
def SSW_SLOT_RATE_unit_bytes : Fld := ⟨0x10000000, 0xf001010008, 0, 64, 0, 0, 19, 4800, 1, 256⟩
/-- `SSW_SLOT_RATE.units` (R259). -/
def SSW_SLOT_RATE_units : Fld := ⟨0x10000000, 0xf001010008, 0, 64, 0, 19, 13, 1080, 1, 256⟩
/-- `SSW_SLOT_RATE.lat` (R259). -/
def SSW_SLOT_RATE_lat : Fld := ⟨0x10000000, 0xf001010008, 0, 64, 0, 32, 14, 3840, 1, 256⟩
/-- `SSW_SLOT_RATE.exact` (R259). -/
def SSW_SLOT_RATE_exact : Fld := ⟨0x10000000, 0xf001010008, 0, 64, 0, 46, 1, 1, 1, 256⟩
/-- `SSW_SLOT_RATE.peak` (R259). -/
def SSW_SLOT_RATE_peak : Fld := ⟨0x10000000, 0xf001010008, 0, 64, 0, 47, 10, 0, 1, 256⟩
/-- `SSW_SLOT_TWIN.twin` (R259). -/
def SSW_SLOT_TWIN_twin : Fld := ⟨0x10000000, 0xf001010010, 0, 64, 0, 0, 12, 0, 1, 256⟩
/-- `SSW_SLOT_TWIN.twin_valid` (R259). -/
def SSW_SLOT_TWIN_twin_valid : Fld := ⟨0x10000000, 0xf001010010, 0, 64, 0, 12, 1, 0, 1, 256⟩
/-- `SSW_SLOT_TWIN.copy` (R259). -/
def SSW_SLOT_TWIN_copy : Fld := ⟨0x10000000, 0xf001010010, 0, 64, 0, 13, 1, 0, 1, 256⟩
/-- `SSW_SLOT_TWIN.skew_max` (R259). -/
def SSW_SLOT_TWIN_skew_max : Fld := ⟨0x10000000, 0xf001010010, 0, 64, 0, 14, 7, 64, 1, 256⟩
/-- `SSW_SLOT_TWIN.rejoin` (R259). -/
def SSW_SLOT_TWIN_rejoin : Fld := ⟨0x10000000, 0xf001010010, 0, 64, 0, 21, 5, 16, 1, 256⟩
/-- `SSW_SLOT_TWIN.loss_units` (R259). -/
def SSW_SLOT_TWIN_loss_units : Fld := ⟨0x10000000, 0xf001010010, 0, 64, 0, 26, 5, 8, 1, 256⟩
/-- `SSW_SLOT_STAT.state` (R259). -/
def SSW_SLOT_STAT_state : Fld := ⟨0x10000000, 0xf001010018, 0, 64, 0, 0, 3, 0, 1, 256⟩
/-- `SSW_SLOT_STAT.prot` (R259). -/
def SSW_SLOT_STAT_prot : Fld := ⟨0x10000000, 0xf001010018, 0, 64, 0, 3, 2, 0, 1, 256⟩
/-- `SSW_SLOT_STAT.copy_lost` (R259). -/
def SSW_SLOT_STAT_copy_lost : Fld := ⟨0x10000000, 0xf001010018, 0, 64, 0, 5, 1, 0, 1, 256⟩
/-- `SSW_SLOT_STAT.resv` (R259). -/
def SSW_SLOT_STAT_resv : Fld := ⟨0x10000000, 0xf001010018, 0, 64, 0, 6, 19, 0, 1, 256⟩
/-- `SSW_SLOT_STAT.allot` (R259). -/
def SSW_SLOT_STAT_allot : Fld := ⟨0x10000000, 0xf001010018, 0, 64, 0, 25, 16, 0, 1, 256⟩
/-- `SSW_SLOT_STAT.skew_now` (R259). -/
def SSW_SLOT_STAT_skew_now : Fld := ⟨0x10000000, 0xf001010018, 0, 64, 0, 41, 7, 0, 1, 256⟩
/-- `SSW_SLOT_STAT.overbooked` (R259). -/
def SSW_SLOT_STAT_overbooked : Fld := ⟨0x10000000, 0xf001010018, 0, 64, 0, 48, 1, 0, 1, 256⟩
/-- `SSW_SLOT_ERR.bad_units` (R259). -/
def SSW_SLOT_ERR_bad_units : Fld := ⟨0x10000000, 0xf001010020, 0, 64, 0, 0, 16, 0, 1, 0⟩
/-- `SSW_SLOT_ERR.late` (R259). -/
def SSW_SLOT_ERR_late : Fld := ⟨0x10000000, 0xf001010020, 0, 64, 0, 16, 16, 0, 1, 1⟩
/-- `SSW_SLOT_ERR.incomplete` (R259). -/
def SSW_SLOT_ERR_incomplete : Fld := ⟨0x10000000, 0xf001010020, 0, 64, 0, 32, 16, 0, 1, 2⟩
/-- `SSW_SLOT_ERR.overrun` (R259). -/
def SSW_SLOT_ERR_overrun : Fld := ⟨0x10000000, 0xf001010020, 0, 64, 0, 48, 16, 0, 1, 3⟩
/-- `SSW_SLOT_MRG.dup` (R259). -/
def SSW_SLOT_MRG_dup : Fld := ⟨0x10000000, 0xf001010028, 0, 64, 0, 0, 16, 0, 1, 4⟩
/-- `SSW_SLOT_MRG.stale` (R259). -/
def SSW_SLOT_MRG_stale : Fld := ⟨0x10000000, 0xf001010028, 0, 64, 0, 16, 16, 0, 1, 5⟩
/-- `SSW_SLOT_MRG.lost` (R259). -/
def SSW_SLOT_MRG_lost : Fld := ⟨0x10000000, 0xf001010028, 0, 64, 0, 32, 16, 0, 1, 6⟩
/-- `SSW_SLOT_MRG.switched` (R259). -/
def SSW_SLOT_MRG_switched : Fld := ⟨0x10000000, 0xf001010028, 0, 64, 0, 48, 16, 0, 1, 7⟩
/-- `SSW_FS_CFG.enable` (R259). -/
def SSW_FS_CFG_enable : Fld := ⟨0x10000000, 0xf001020000, 0, 32, 0, 0, 1, 0, 1, 256⟩
/-- `SSW_FS_CFG.depth` (R259). -/
def SSW_FS_CFG_depth : Fld := ⟨0x10000000, 0xf001020000, 0, 32, 0, 1, 5, 3, 1, 256⟩
/-- `SSW_FS_CFG.stack` (R259). -/
def SSW_FS_CFG_stack : Fld := ⟨0x10000000, 0xf001020000, 0, 32, 0, 6, 3, 0, 1, 256⟩
/-- `SSW_FS_CFG.mirrored` (R259). -/
def SSW_FS_CFG_mirrored : Fld := ⟨0x10000000, 0xf001020000, 0, 32, 0, 9, 1, 0, 1, 256⟩
/-- `SSW_FS_CFG.mirror_stack` (R259). -/
def SSW_FS_CFG_mirror_stack : Fld := ⟨0x10000000, 0xf001020000, 0, 32, 0, 10, 3, 0, 1, 256⟩
/-- `SSW_FS_CFG.key_id` (R259). -/
def SSW_FS_CFG_key_id : Fld := ⟨0x10000000, 0xf001020000, 0, 32, 0, 13, 7, 0, 1, 256⟩
/-- `SSW_FS_CFG.base` (R259). -/
def SSW_FS_CFG_base : Fld := ⟨0x10000000, 0xf001020000, 0, 32, 0, 20, 14, 0, 1, 256⟩
/-- `SSW_FS_CFG.rd_cg` (R259). -/
def SSW_FS_CFG_rd_cg : Fld := ⟨0x10000000, 0xf001020000, 0, 32, 0, 34, 8, 0, 1, 256⟩
/-- `SSW_FS_CFG.line0` (R259). -/
def SSW_FS_CFG_line0 : Fld := ⟨0x10000000, 0xf001020000, 0, 32, 0, 42, 13, 42, 1, 256⟩
/-- `SSW_FS_CFG.line_step` (R259). -/
def SSW_FS_CFG_line_step : Fld := ⟨0x10000000, 0xf001020000, 0, 32, 0, 55, 8, 1, 1, 256⟩
/-- `SSW_FS_STAT.w_slot` (R259). -/
def SSW_FS_STAT_w_slot : Fld := ⟨0x10000000, 0xf001020008, 0, 32, 0, 0, 4, 0, 1, 256⟩
/-- `SSW_FS_STAT.r_slot` (R259). -/
def SSW_FS_STAT_r_slot : Fld := ⟨0x10000000, 0xf001020008, 0, 32, 0, 4, 4, 0, 1, 256⟩
/-- `SSW_FS_STAT.mirror_valid` (R259). -/
def SSW_FS_STAT_mirror_valid : Fld := ⟨0x10000000, 0xf001020008, 0, 32, 0, 8, 1, 0, 1, 256⟩
/-- `SSW_FS_STAT.mirror_rebuild` (R259). -/
def SSW_FS_STAT_mirror_rebuild : Fld := ⟨0x10000000, 0xf001020008, 0, 32, 0, 9, 1, 0, 1, 256⟩
/-- `SSW_FS_STAT.repeats` (R259). -/
def SSW_FS_STAT_repeats : Fld := ⟨0x10000000, 0xf001020008, 0, 32, 0, 10, 16, 0, 1, 8⟩
/-- `SSW_FS_STAT.drops` (R259). -/
def SSW_FS_STAT_drops : Fld := ⟨0x10000000, 0xf001020008, 0, 32, 0, 26, 16, 0, 1, 9⟩
/-- `SSW_FS_STAT.redirected` (R259). -/
def SSW_FS_STAT_redirected : Fld := ⟨0x10000000, 0xf001020008, 0, 32, 0, 42, 12, 0, 1, 10⟩
/-- `SSW_FS_STAT.fs_late` (R259). -/
def SSW_FS_STAT_fs_late : Fld := ⟨0x10000000, 0xf001020008, 0, 32, 0, 54, 10, 0, 1, 11⟩
/-- `SSW_FSRC.enable` (R259). -/
def SSW_FSRC_enable : Fld := ⟨0x10000000, 0xf001030000, 0, 512, 8, 0, 1, 0, 1, 256⟩
/-- `SSW_FSRC.slot` (R259). -/
def SSW_FSRC_slot : Fld := ⟨0x10000000, 0xf001030000, 0, 512, 8, 1, 10, 0, 1, 256⟩
/-- `SSW_FSRC.channel` (R259). -/
def SSW_FSRC_channel : Fld := ⟨0x10000000, 0xf001030000, 0, 512, 8, 11, 1, 0, 1, 256⟩
/-- `SSW_RESV.resv` (R259). -/
def SSW_RESV_resv : Fld := ⟨0x10000000, 0xf001040000, 0, 128, 8, 0, 19, 0, 1, 256⟩
/-- `SSW_RESV.limit` (R259). -/
def SSW_RESV_limit : Fld := ⟨0x10000000, 0xf001040000, 0, 128, 8, 19, 19, 0, 1, 256⟩
/-- `SSW_RESV.overbooked` (R259). -/
def SSW_RESV_overbooked : Fld := ⟨0x10000000, 0xf001040000, 0, 128, 8, 38, 1, 0, 1, 256⟩
/-- `LN_REF.freq_khz` (R293). -/
def LN_REF_freq_khz : Fld := ⟨0x10000000, 0xf004000000, 0, 8, 0, 0, 19, 156250, 4, 256⟩
/-- `LN_REF.spread` (R293). -/
def LN_REF_spread : Fld := ⟨0x10000000, 0xf004000000, 0, 8, 0, 19, 1, 0, 4, 256⟩
/-- `LN_REF.present` (R293). -/
def LN_REF_present : Fld := ⟨0x10000000, 0xf004000000, 0, 8, 0, 20, 1, 0, 4, 256⟩
/-- `LN_REF.in_range` (R293). -/
def LN_REF_in_range : Fld := ⟨0x10000000, 0xf004000000, 0, 8, 0, 21, 1, 0, 4, 256⟩
/-- `LN_CFG.mode` (R293). -/
def LN_CFG_mode : Fld := ⟨0x10000000, 0xf004001000, 0, 128, 0, 0, 3, 0, 4, 256⟩
/-- `LN_CFG.rate` (R293). -/
def LN_CFG_rate : Fld := ⟨0x10000000, 0xf004001000, 0, 128, 0, 3, 5, 0, 4, 256⟩
/-- `LN_CFG.ref_sel` (R293). -/
def LN_CFG_ref_sel : Fld := ⟨0x10000000, 0xf004001000, 0, 128, 0, 8, 1, 0, 4, 256⟩
/-- `LN_CFG.variant` (R293). -/
def LN_CFG_variant : Fld := ⟨0x10000000, 0xf004001000, 0, 128, 0, 9, 2, 0, 4, 256⟩
/-- `LN_CFG.pg` (R293). -/
def LN_CFG_pg : Fld := ⟨0x10000000, 0xf004001000, 0, 128, 0, 11, 3, 0, 4, 256⟩
/-- `LN_CFG.tx_pol` (R293). -/
def LN_CFG_tx_pol : Fld := ⟨0x10000000, 0xf004001000, 0, 128, 0, 14, 1, 0, 4, 256⟩
/-- `LN_CFG.rx_pol` (R293). -/
def LN_CFG_rx_pol : Fld := ⟨0x10000000, 0xf004001000, 0, 128, 0, 15, 1, 0, 4, 256⟩
/-- `LN_CFG.loopback` (R293). -/
def LN_CFG_loopback : Fld := ⟨0x10000000, 0xf004001000, 0, 128, 0, 16, 2, 0, 4, 256⟩
/-- `LN_CFG.tx_en` (R293). -/
def LN_CFG_tx_en : Fld := ⟨0x10000000, 0xf004001000, 0, 128, 0, 18, 1, 1, 4, 256⟩
/-- `LN_CFG.rx_en` (R293). -/
def LN_CFG_rx_en : Fld := ⟨0x10000000, 0xf004001000, 0, 128, 0, 19, 1, 1, 4, 256⟩
/-- `LN_STAT.state` (R293). -/
def LN_STAT_state : Fld := ⟨0x10000000, 0xf004001008, 0, 128, 0, 0, 4, 0, 4, 256⟩
/-- `LN_STAT.sig_det` (R293). -/
def LN_STAT_sig_det : Fld := ⟨0x10000000, 0xf004001008, 0, 128, 0, 4, 1, 0, 4, 256⟩
/-- `LN_STAT.cdr_lock` (R293). -/
def LN_STAT_cdr_lock : Fld := ⟨0x10000000, 0xf004001008, 0, 128, 0, 5, 1, 0, 4, 256⟩
/-- `LN_STAT.retrain` (R293). -/
def LN_STAT_retrain : Fld := ⟨0x10000000, 0xf004001008, 0, 128, 0, 6, 1, 0, 4, 256⟩
/-- `LN_STAT.err` (R293). -/
def LN_STAT_err : Fld := ⟨0x10000000, 0xf004001008, 0, 128, 0, 7, 4, 0, 4, 256⟩
/-- `LN_STAT.fails` (R293). -/
def LN_STAT_fails : Fld := ⟨0x10000000, 0xf004001008, 0, 128, 0, 11, 16, 0, 4, 0⟩
/-- `LN_STAT.stuff_err` (R293). -/
def LN_STAT_stuff_err : Fld := ⟨0x10000000, 0xf004001008, 0, 128, 0, 27, 16, 0, 4, 1⟩
/-- `LN_STAT.crc_err` (R293). -/
def LN_STAT_crc_err : Fld := ⟨0x10000000, 0xf004001008, 0, 128, 0, 43, 16, 0, 4, 2⟩
/-- `LN_TXEQ.c_m2` (R293). -/
def LN_TXEQ_c_m2 : Fld := ⟨0x10000000, 0xf004001010, 0, 128, 0, 0, 6, 0, 4, 256⟩
/-- `LN_TXEQ.c_m1` (R293). -/
def LN_TXEQ_c_m1 : Fld := ⟨0x10000000, 0xf004001010, 0, 128, 0, 6, 6, 60, 4, 256⟩
/-- `LN_TXEQ.c_0` (R293). -/
def LN_TXEQ_c_0 : Fld := ⟨0x10000000, 0xf004001010, 0, 128, 0, 12, 6, 52, 4, 256⟩
/-- `LN_TXEQ.c_p1` (R293). -/
def LN_TXEQ_c_p1 : Fld := ⟨0x10000000, 0xf004001010, 0, 128, 0, 18, 6, 57, 4, 256⟩
/-- `LN_RXEQ.adapt` (R293). -/
def LN_RXEQ_adapt : Fld := ⟨0x10000000, 0xf004001018, 0, 128, 0, 0, 2, 0, 4, 256⟩
/-- `LN_RXEQ.ctle` (R293). -/
def LN_RXEQ_ctle : Fld := ⟨0x10000000, 0xf004001018, 0, 128, 0, 2, 5, 16, 4, 256⟩
/-- `LN_RXEQ.vga` (R293). -/
def LN_RXEQ_vga : Fld := ⟨0x10000000, 0xf004001018, 0, 128, 0, 7, 5, 16, 4, 256⟩
/-- `LN_RXEQ.dfe_taps` (R293). -/
def LN_RXEQ_dfe_taps : Fld := ⟨0x10000000, 0xf004001018, 0, 128, 0, 12, 5, 16, 4, 256⟩
/-- `LN_PAT.gen` (R293). -/
def LN_PAT_gen : Fld := ⟨0x10000000, 0xf004001020, 0, 128, 0, 0, 3, 0, 4, 256⟩
/-- `LN_PAT.chk` (R293). -/
def LN_PAT_chk : Fld := ⟨0x10000000, 0xf004001020, 0, 128, 0, 3, 3, 0, 4, 256⟩
/-- `LN_PAT.gen_inv` (R293). -/
def LN_PAT_gen_inv : Fld := ⟨0x10000000, 0xf004001020, 0, 128, 0, 6, 1, 0, 4, 256⟩
/-- `LN_PAT.chk_inv` (R293). -/
def LN_PAT_chk_inv : Fld := ⟨0x10000000, 0xf004001020, 0, 128, 0, 7, 1, 0, 4, 256⟩
/-- `LN_PAT_USER.pattern` (R293). -/
def LN_PAT_USER_pattern : Fld := ⟨0x10000000, 0xf004001028, 0, 128, 0, 0, 64, 0, 4, 256⟩
/-- `LN_CHK.chk_lock` (R293). -/
def LN_CHK_chk_lock : Fld := ⟨0x10000000, 0xf004001030, 0, 128, 0, 0, 1, 0, 4, 256⟩
/-- `LN_CHK.chk_errors` (R293). -/
def LN_CHK_chk_errors : Fld := ⟨0x10000000, 0xf004001030, 0, 128, 0, 1, 47, 0, 4, 3⟩
/-- `LN_CHK_BITS.bits` (R293). -/
def LN_CHK_BITS_bits : Fld := ⟨0x10000000, 0xf004001038, 0, 128, 0, 0, 64, 0, 4, 4⟩
/-- `LN_ERRINJ.inj_mode` (R293). -/
def LN_ERRINJ_inj_mode : Fld := ⟨0x10000000, 0xf004001040, 0, 128, 0, 0, 2, 0, 4, 256⟩
/-- `LN_ERRINJ.burst_len` (R293). -/
def LN_ERRINJ_burst_len : Fld := ⟨0x10000000, 0xf004001040, 0, 128, 0, 2, 6, 0, 4, 256⟩
/-- `LN_ERRINJ.inj_n` (R293). -/
def LN_ERRINJ_inj_n : Fld := ⟨0x10000000, 0xf004001040, 0, 128, 0, 8, 40, 1000000, 4, 256⟩
/-- `LN_ERRINJ.go` (R293). -/
def LN_ERRINJ_go : Fld := ⟨0x10000000, 0xf004001040, 0, 128, 0, 48, 1, 0, 4, 256⟩
/-- `LN_CNT.replays_sent` (R293). -/
def LN_CNT_replays_sent : Fld := ⟨0x10000000, 0xf004001048, 0, 128, 0, 0, 16, 0, 4, 5⟩
/-- `LN_CNT.naks_sent` (R293). -/
def LN_CNT_naks_sent : Fld := ⟨0x10000000, 0xf004001048, 0, 128, 0, 16, 16, 0, 4, 6⟩
/-- `LN_CNT.bad_cap` (R293). -/
def LN_CNT_bad_cap : Fld := ⟨0x10000000, 0xf004001048, 0, 128, 0, 32, 16, 0, 4, 7⟩
/-- `LN_CNT.bad_conduct` (R293). -/
def LN_CNT_bad_conduct : Fld := ⟨0x10000000, 0xf004001048, 0, 128, 0, 48, 16, 0, 4, 8⟩
/-- `LN_NL_CFG.lanes` (R293). -/
def LN_NL_CFG_lanes : Fld := ⟨0x10000000, 0xf004008000, 0, 64, 0, 0, 32, 0, 4, 256⟩
/-- `LN_NL_CFG.enable` (R293). -/
def LN_NL_CFG_enable : Fld := ⟨0x10000000, 0xf004008000, 0, 64, 0, 32, 1, 0, 4, 256⟩
/-- `LN_NL_CFG.simplex` (R293). -/
def LN_NL_CFG_simplex : Fld := ⟨0x10000000, 0xf004008000, 0, 64, 0, 33, 1, 0, 4, 256⟩
/-- `LN_NL_CFG.user` (R293). -/
def LN_NL_CFG_user : Fld := ⟨0x10000000, 0xf004008000, 0, 64, 0, 34, 2, 0, 4, 256⟩
/-- `LN_NL_CFG.pg` (R293). -/
def LN_NL_CFG_pg : Fld := ⟨0x10000000, 0xf004008000, 0, 64, 0, 36, 3, 0, 4, 256⟩
/-- `LN_NL_CFG.link_id` (R293). -/
def LN_NL_CFG_link_id : Fld := ⟨0x10000000, 0xf004008000, 0, 64, 0, 39, 16, 0, 4, 256⟩
/-- `LN_NL_CFG.ack_interval` (R293). -/
def LN_NL_CFG_ack_interval : Fld := ⟨0x10000000, 0xf004008000, 0, 64, 0, 55, 6, 32, 4, 256⟩
/-- `LN_NL_STAT.state` (R293). -/
def LN_NL_STAT_state : Fld := ⟨0x10000000, 0xf004008008, 0, 64, 0, 0, 3, 0, 4, 256⟩
/-- `LN_NL_STAT.lanes_up` (R293). -/
def LN_NL_STAT_lanes_up : Fld := ⟨0x10000000, 0xf004008008, 0, 64, 0, 3, 16, 0, 4, 256⟩
/-- `LN_NL_STAT.xoff_rx` (R293). -/
def LN_NL_STAT_xoff_rx : Fld := ⟨0x10000000, 0xf004008008, 0, 64, 0, 19, 1, 0, 4, 256⟩
/-- `LN_NL_STAT.xoff_tx` (R293). -/
def LN_NL_STAT_xoff_tx : Fld := ⟨0x10000000, 0xf004008008, 0, 64, 0, 20, 1, 0, 4, 256⟩
/-- `LN_NL_STAT.rtt_ns` (R293). -/
def LN_NL_STAT_rtt_ns : Fld := ⟨0x10000000, 0xf004008008, 0, 64, 0, 21, 16, 0, 4, 256⟩
/-- `LN_NL_STAT.restripes` (R293). -/
def LN_NL_STAT_restripes : Fld := ⟨0x10000000, 0xf004008008, 0, 64, 0, 37, 16, 0, 4, 9⟩
/-- `MP_PG_STAT.sdi_lock` (R319). -/
def MP_PG_STAT_sdi_lock : Fld := ⟨0x10000000, 0xf005000000, 2097152, 0, 0, 0, 8, 0, 5, 256⟩
/-- `MP_PG_STAT.mac_up` (R319). -/
def MP_PG_STAT_mac_up : Fld := ⟨0x10000000, 0xf005000000, 2097152, 0, 0, 8, 4, 0, 5, 256⟩
/-- `MP_PG_STAT.nl_up` (R319). -/
def MP_PG_STAT_nl_up : Fld := ⟨0x10000000, 0xf005000000, 2097152, 0, 0, 12, 1, 0, 5, 256⟩
/-- `MP_PG_STAT.fenced` (R319). -/
def MP_PG_STAT_fenced : Fld := ⟨0x10000000, 0xf005000000, 2097152, 0, 0, 13, 1, 0, 5, 256⟩
/-- `MP_PG_STAT.pn_warn` (R319). -/
def MP_PG_STAT_pn_warn : Fld := ⟨0x10000000, 0xf005000000, 2097152, 0, 0, 14, 4, 0, 5, 256⟩
/-- `MP_SDI_CFG.enable` (R319). -/
def MP_SDI_CFG_enable : Fld := ⟨0x10000000, 0xf005001000, 2097152, 64, 0, 0, 1, 0, 5, 256⟩
/-- `MP_SDI_CFG.dir` (R319). -/
def MP_SDI_CFG_dir : Fld := ⟨0x10000000, 0xf005001000, 2097152, 64, 0, 1, 1, 0, 5, 256⟩
/-- `MP_SDI_CFG.lane` (R319). -/
def MP_SDI_CFG_lane : Fld := ⟨0x10000000, 0xf005001000, 2097152, 64, 0, 2, 5, 0, 5, 256⟩
/-- `MP_SDI_CFG.links` (R319). -/
def MP_SDI_CFG_links : Fld := ⟨0x10000000, 0xf005001000, 2097152, 64, 0, 7, 2, 0, 5, 256⟩
/-- `MP_SDI_CFG.level_b` (R319). -/
def MP_SDI_CFG_level_b : Fld := ⟨0x10000000, 0xf005001000, 2097152, 64, 0, 9, 2, 0, 5, 256⟩
/-- `MP_SDI_CFG.crc_drop` (R319). -/
def MP_SDI_CFG_crc_drop : Fld := ⟨0x10000000, 0xf005001000, 2097152, 64, 0, 11, 1, 1, 5, 256⟩
/-- `MP_SDI_CFG.pid_check` (R319). -/
def MP_SDI_CFG_pid_check : Fld := ⟨0x10000000, 0xf005001000, 2097152, 64, 0, 12, 1, 0, 5, 256⟩
/-- `MP_SDI_CFG.pid` (R319). -/
def MP_SDI_CFG_pid : Fld := ⟨0x10000000, 0xf005001000, 2097152, 64, 0, 13, 32, 0, 5, 256⟩
/-- `MP_SDI_CFG.cg` (R319). -/
def MP_SDI_CFG_cg : Fld := ⟨0x10000000, 0xf005001000, 2097152, 64, 0, 45, 8, 0, 5, 256⟩
/-- `MP_SDI_STAT.locked` (R319). -/
def MP_SDI_STAT_locked : Fld := ⟨0x10000000, 0xf005001008, 2097152, 64, 0, 0, 1, 0, 5, 256⟩
/-- `MP_SDI_STAT.pid_valid` (R319). -/
def MP_SDI_STAT_pid_valid : Fld := ⟨0x10000000, 0xf005001008, 2097152, 64, 0, 1, 1, 0, 5, 256⟩
/-- `MP_SDI_STAT.pid` (R319). -/
def MP_SDI_STAT_pid : Fld := ⟨0x10000000, 0xf005001008, 2097152, 64, 0, 2, 32, 0, 5, 256⟩
/-- `MP_SDI_STAT.lines` (R319). -/
def MP_SDI_STAT_lines : Fld := ⟨0x10000000, 0xf005001008, 2097152, 64, 0, 34, 13, 0, 5, 256⟩
/-- `MP_SDI_STAT.interlaced` (R319). -/
def MP_SDI_STAT_interlaced : Fld := ⟨0x10000000, 0xf005001008, 2097152, 64, 0, 47, 1, 0, 5, 256⟩
/-- `MP_SDI_ERR.crc_err` (R319). -/
def MP_SDI_ERR_crc_err : Fld := ⟨0x10000000, 0xf005001010, 2097152, 64, 0, 0, 16, 0, 5, 0⟩
/-- `MP_SDI_ERR.pid_err` (R319). -/
def MP_SDI_ERR_pid_err : Fld := ⟨0x10000000, 0xf005001010, 2097152, 64, 0, 16, 16, 0, 5, 1⟩
/-- `MP_SDI_ERR.lines_missed` (R319). -/
def MP_SDI_ERR_lines_missed : Fld := ⟨0x10000000, 0xf005001010, 2097152, 64, 0, 32, 16, 0, 5, 2⟩
/-- `MP_SDI_ERR.trs_err` (R319). -/
def MP_SDI_ERR_trs_err : Fld := ⟨0x10000000, 0xf005001010, 2097152, 64, 0, 48, 16, 0, 5, 3⟩
/-- `MP_MAC_CFG.enable` (R319). -/
def MP_MAC_CFG_enable : Fld := ⟨0x10000000, 0xf005002000, 2097152, 256, 0, 0, 1, 0, 5, 256⟩
/-- `MP_MAC_CFG.lane` (R319). -/
def MP_MAC_CFG_lane : Fld := ⟨0x10000000, 0xf005002000, 2097152, 256, 0, 1, 5, 0, 5, 256⟩
/-- `MP_MAC_CFG.width` (R319). -/
def MP_MAC_CFG_width : Fld := ⟨0x10000000, 0xf005002000, 2097152, 256, 0, 6, 2, 0, 5, 256⟩
/-- `MP_MAC_CFG.rs_fec` (R319). -/
def MP_MAC_CFG_rs_fec : Fld := ⟨0x10000000, 0xf005002000, 2097152, 256, 0, 8, 1, 1, 5, 256⟩
/-- `MP_MAC_CFG.max_frame` (R319). -/
def MP_MAC_CFG_max_frame : Fld := ⟨0x10000000, 0xf005002000, 2097152, 256, 0, 9, 14, 1522, 5, 256⟩
/-- `MP_MAC_CFG.ptp_en` (R319). -/
def MP_MAC_CFG_ptp_en : Fld := ⟨0x10000000, 0xf005002000, 2097152, 256, 0, 23, 1, 0, 5, 256⟩
/-- `MP_MAC_CFG.one_step` (R319). -/
def MP_MAC_CFG_one_step : Fld := ⟨0x10000000, 0xf005002000, 2097152, 256, 0, 24, 1, 0, 5, 256⟩
/-- `MP_MAC_CFG.ptp_udp` (R319). -/
def MP_MAC_CFG_ptp_udp : Fld := ⟨0x10000000, 0xf005002000, 2097152, 256, 0, 25, 1, 1, 5, 256⟩
/-- `MP_MAC_CFG.vid` (R319). -/
def MP_MAC_CFG_vid : Fld := ⟨0x10000000, 0xf005002000, 2097152, 256, 0, 26, 12, 0, 5, 256⟩
/-- `MP_MAC_ADDR.addr` (R319). -/
def MP_MAC_ADDR_addr : Fld := ⟨0x10000000, 0xf005002008, 2097152, 256, 0, 0, 48, 0, 5, 256⟩
/-- `MP_MAC_IP.ip` (R319). -/
def MP_MAC_IP_ip : Fld := ⟨0x10000000, 0xf005002010, 2097152, 256, 0, 0, 32, 0, 5, 256⟩
/-- `MP_MAC_GW.gw` (R319). -/
def MP_MAC_GW_gw : Fld := ⟨0x10000000, 0xf005002018, 2097152, 256, 0, 0, 48, 0, 5, 256⟩
/-- `MP_MAC_CNT.fcs_err` (R319). -/
def MP_MAC_CNT_fcs_err : Fld := ⟨0x10000000, 0xf005002020, 2097152, 256, 0, 0, 16, 0, 5, 4⟩
/-- `MP_MAC_CNT.size_err` (R319). -/
def MP_MAC_CNT_size_err : Fld := ⟨0x10000000, 0xf005002020, 2097152, 256, 0, 16, 16, 0, 5, 5⟩
/-- `MP_MAC_CNT.pause_rx` (R319). -/
def MP_MAC_CNT_pause_rx : Fld := ⟨0x10000000, 0xf005002020, 2097152, 256, 0, 32, 16, 0, 5, 6⟩
/-- `MP_MAC_CNT.ip_err` (R319). -/
def MP_MAC_CNT_ip_err : Fld := ⟨0x10000000, 0xf005002020, 2097152, 256, 0, 48, 16, 0, 5, 7⟩
/-- `MP_TS_ADJ.tx` (R319). -/
def MP_TS_ADJ_tx : Fld := ⟨0x10000000, 0xf005002028, 2097152, 256, 0, 0, 32, 0, 5, 256⟩
/-- `MP_TS_ADJ.rx` (R319). -/
def MP_TS_ADJ_rx : Fld := ⟨0x10000000, 0xf005002028, 2097152, 256, 0, 32, 32, 0, 5, 256⟩
/-- `MP_SEC_CFG.enable` (R319). -/
def MP_SEC_CFG_enable : Fld := ⟨0x10000000, 0xf005003000, 2097152, 512, 0, 0, 1, 0, 5, 256⟩
/-- `MP_SEC_CFG.xpn` (R319). -/
def MP_SEC_CFG_xpn : Fld := ⟨0x10000000, 0xf005003000, 2097152, 512, 0, 1, 1, 0, 5, 256⟩
/-- `MP_SEC_CFG.encrypt` (R319). -/
def MP_SEC_CFG_encrypt : Fld := ⟨0x10000000, 0xf005003000, 2097152, 512, 0, 2, 1, 1, 5, 256⟩
/-- `MP_SEC_CFG.tx_an` (R319). -/
def MP_SEC_CFG_tx_an : Fld := ⟨0x10000000, 0xf005003000, 2097152, 512, 0, 3, 2, 0, 5, 256⟩
/-- `MP_SEC_CFG.replay_protect` (R319). -/
def MP_SEC_CFG_replay_protect : Fld := ⟨0x10000000, 0xf005003000, 2097152, 512, 0, 5, 1, 1, 5, 256⟩
/-- `MP_SEC_CFG.replay_window` (R319). -/
def MP_SEC_CFG_replay_window : Fld := ⟨0x10000000, 0xf005003000, 2097152, 512, 0, 6, 32, 0, 5, 256⟩
/-- `MP_SEC_TXPN.pn` (R319). -/
def MP_SEC_TXPN_pn : Fld := ⟨0x10000000, 0xf005003008, 2097152, 512, 0, 0, 64, 0, 5, 256⟩
/-- `MP_SEC_CNT.untagged` (R319). -/
def MP_SEC_CNT_untagged : Fld := ⟨0x10000000, 0xf005003010, 2097152, 512, 0, 0, 16, 0, 5, 8⟩
/-- `MP_SEC_CNT.icv_fail` (R319). -/
def MP_SEC_CNT_icv_fail : Fld := ⟨0x10000000, 0xf005003010, 2097152, 512, 0, 16, 16, 0, 5, 9⟩
/-- `MP_SEC_CNT.late_pn` (R319). -/
def MP_SEC_CNT_late_pn : Fld := ⟨0x10000000, 0xf005003010, 2097152, 512, 0, 32, 16, 0, 5, 10⟩
/-- `MP_SEC_CNT.no_sa` (R319). -/
def MP_SEC_CNT_no_sa : Fld := ⟨0x10000000, 0xf005003010, 2097152, 512, 0, 48, 16, 0, 5, 11⟩
/-- `MP_SEC_RXSC.sci` (R319). -/
def MP_SEC_RXSC_sci : Fld := ⟨0x10000000, 0xf005003100, 2097152, 512, 8, 0, 64, 0, 5, 256⟩
/-- `MP_RXF_CFG.enable` (R319). -/
def MP_RXF_CFG_enable : Fld := ⟨0x10000000, 0xf005010000, 2097152, 64, 0, 0, 1, 0, 5, 256⟩
/-- `MP_RXF_CFG.type` (R319). -/
def MP_RXF_CFG_type : Fld := ⟨0x10000000, 0xf005010000, 2097152, 64, 0, 1, 4, 0, 5, 256⟩
/-- `MP_RXF_CFG.port` (R319). -/
def MP_RXF_CFG_port : Fld := ⟨0x10000000, 0xf005010000, 2097152, 64, 0, 5, 3, 0, 5, 256⟩
/-- `MP_RXF_CFG.mac_b` (R319). -/
def MP_RXF_CFG_mac_b : Fld := ⟨0x10000000, 0xf005010000, 2097152, 64, 0, 8, 3, 0, 5, 256⟩
/-- `MP_RXF_CFG.merge` (R319). -/
def MP_RXF_CFG_merge : Fld := ⟨0x10000000, 0xf005010000, 2097152, 64, 0, 11, 1, 0, 5, 256⟩
/-- `MP_RXF_CFG.cg` (R319). -/
def MP_RXF_CFG_cg : Fld := ⟨0x10000000, 0xf005010000, 2097152, 64, 0, 12, 8, 0, 5, 256⟩
/-- `MP_RXF_CFG.n` (R319). -/
def MP_RXF_CFG_n : Fld := ⟨0x10000000, 0xf005010000, 2097152, 64, 0, 20, 8, 1, 5, 256⟩
/-- `MP_RXF_CFG.asm_us` (R319). -/
def MP_RXF_CFG_asm_us : Fld := ⟨0x10000000, 0xf005010000, 2097152, 64, 0, 28, 14, 1000, 5, 256⟩
/-- `MP_RXF_CFG.arate` (R319). -/
def MP_RXF_CFG_arate : Fld := ⟨0x10000000, 0xf005010000, 2097152, 64, 0, 42, 1, 0, 5, 256⟩
/-- `MP_RXF_CFG.ssrc_any` (R319). -/
def MP_RXF_CFG_ssrc_any : Fld := ⟨0x10000000, 0xf005010000, 2097152, 64, 0, 43, 1, 0, 5, 256⟩
/-- `MP_RXF_CFG.pt` (R319). -/
def MP_RXF_CFG_pt : Fld := ⟨0x10000000, 0xf005010000, 2097152, 64, 0, 44, 7, 96, 5, 256⟩
/-- `MP_RXF_CFG.pkt_samples` (R319). -/
def MP_RXF_CFG_pkt_samples : Fld := ⟨0x10000000, 0xf005010000, 2097152, 64, 0, 51, 12, 48, 5, 256⟩
/-- `MP_RXF_ADDR.dst_ip` (R319). -/
def MP_RXF_ADDR_dst_ip : Fld := ⟨0x10000000, 0xf005010008, 2097152, 64, 0, 0, 32, 0, 5, 256⟩
/-- `MP_RXF_ADDR.udp` (R319). -/
def MP_RXF_ADDR_udp : Fld := ⟨0x10000000, 0xf005010008, 2097152, 64, 0, 32, 16, 0, 5, 256⟩
/-- `MP_RXF_ADDR.vid` (R319). -/
def MP_RXF_ADDR_vid : Fld := ⟨0x10000000, 0xf005010008, 2097152, 64, 0, 48, 12, 0, 5, 256⟩
/-- `MP_RXF_SRC.src_ip` (R319). -/
def MP_RXF_SRC_src_ip : Fld := ⟨0x10000000, 0xf005010010, 2097152, 64, 0, 0, 32, 0, 5, 256⟩
/-- `MP_RXF_SRC.ssrc` (R319). -/
def MP_RXF_SRC_ssrc : Fld := ⟨0x10000000, 0xf005010010, 2097152, 64, 0, 32, 32, 0, 5, 256⟩
/-- `MP_RXF_STAT.state` (R319). -/
def MP_RXF_STAT_state : Fld := ⟨0x10000000, 0xf005010018, 2097152, 64, 0, 0, 2, 0, 5, 256⟩
/-- `MP_RXF_STAT.leg_lost` (R319). -/
def MP_RXF_STAT_leg_lost : Fld := ⟨0x10000000, 0xf005010018, 2097152, 64, 0, 2, 1, 0, 5, 256⟩
/-- `MP_RXF_CNT.bad_pkts` (R319). -/
def MP_RXF_CNT_bad_pkts : Fld := ⟨0x10000000, 0xf005010020, 2097152, 64, 0, 0, 16, 0, 5, 12⟩
/-- `MP_RXF_CNT.dup_pkts` (R319). -/
def MP_RXF_CNT_dup_pkts : Fld := ⟨0x10000000, 0xf005010020, 2097152, 64, 0, 16, 16, 0, 5, 13⟩
/-- `MP_RXF_CNT.incomplete` (R319). -/
def MP_RXF_CNT_incomplete : Fld := ⟨0x10000000, 0xf005010020, 2097152, 64, 0, 32, 16, 0, 5, 14⟩
/-- `MP_RXF_CNT.ts_err` (R319). -/
def MP_RXF_CNT_ts_err : Fld := ⟨0x10000000, 0xf005010020, 2097152, 64, 0, 48, 16, 0, 5, 15⟩
/-- `MP_TXF_CFG.enable` (R319). -/
def MP_TXF_CFG_enable : Fld := ⟨0x10000000, 0xf005020000, 2097152, 64, 0, 0, 1, 0, 5, 256⟩
/-- `MP_TXF_CFG.type` (R319). -/
def MP_TXF_CFG_type : Fld := ⟨0x10000000, 0xf005020000, 2097152, 64, 0, 1, 4, 0, 5, 256⟩
/-- `MP_TXF_CFG.port` (R319). -/
def MP_TXF_CFG_port : Fld := ⟨0x10000000, 0xf005020000, 2097152, 64, 0, 5, 3, 0, 5, 256⟩
/-- `MP_TXF_CFG.mac_b` (R319). -/
def MP_TXF_CFG_mac_b : Fld := ⟨0x10000000, 0xf005020000, 2097152, 64, 0, 8, 3, 0, 5, 256⟩
/-- `MP_TXF_CFG.dup` (R319). -/
def MP_TXF_CFG_dup : Fld := ⟨0x10000000, 0xf005020000, 2097152, 64, 0, 11, 1, 0, 5, 256⟩
/-- `MP_TXF_CFG.cg` (R319). -/
def MP_TXF_CFG_cg : Fld := ⟨0x10000000, 0xf005020000, 2097152, 64, 0, 12, 8, 0, 5, 256⟩
/-- `MP_TXF_CFG.ppl` (R319). -/
def MP_TXF_CFG_ppl : Fld := ⟨0x10000000, 0xf005020000, 2097152, 64, 0, 20, 8, 4, 5, 256⟩
/-- `MP_TXF_CFG.pkt_bytes` (R319). -/
def MP_TXF_CFG_pkt_bytes : Fld := ⟨0x10000000, 0xf005020000, 2097152, 64, 0, 28, 11, 1200, 5, 256⟩
/-- `MP_TXF_CFG.tx_lines` (R319). -/
def MP_TXF_CFG_tx_lines : Fld := ⟨0x10000000, 0xf005020000, 2097152, 64, 0, 39, 8, 5, 5, 256⟩
/-- `MP_TXF_CFG.fill` (R319). -/
def MP_TXF_CFG_fill : Fld := ⟨0x10000000, 0xf005020000, 2097152, 64, 0, 47, 1, 0, 5, 256⟩
/-- `MP_TXF_CFG.anc_line` (R319). -/
def MP_TXF_CFG_anc_line : Fld := ⟨0x10000000, 0xf005020000, 2097152, 64, 0, 48, 13, 9, 5, 256⟩
/-- `MP_TXF_ADDR.dst_ip` (R319). -/
def MP_TXF_ADDR_dst_ip : Fld := ⟨0x10000000, 0xf005020008, 2097152, 64, 0, 0, 32, 0, 5, 256⟩
/-- `MP_TXF_ADDR.dst_udp` (R319). -/
def MP_TXF_ADDR_dst_udp : Fld := ⟨0x10000000, 0xf005020008, 2097152, 64, 0, 32, 16, 0, 5, 256⟩
/-- `MP_TXF_ADDR.src_udp` (R319). -/
def MP_TXF_ADDR_src_udp : Fld := ⟨0x10000000, 0xf005020008, 2097152, 64, 0, 48, 16, 0, 5, 256⟩
/-- `MP_TXF_ADDRB.dst_ip` (R319). -/
def MP_TXF_ADDRB_dst_ip : Fld := ⟨0x10000000, 0xf005020010, 2097152, 64, 0, 0, 32, 0, 5, 256⟩
/-- `MP_TXF_ADDRB.dst_udp` (R319). -/
def MP_TXF_ADDRB_dst_udp : Fld := ⟨0x10000000, 0xf005020010, 2097152, 64, 0, 32, 16, 0, 5, 256⟩
/-- `MP_TXF_ADDRB.src_udp` (R319). -/
def MP_TXF_ADDRB_src_udp : Fld := ⟨0x10000000, 0xf005020010, 2097152, 64, 0, 48, 16, 0, 5, 256⟩
/-- `MP_TXF_RTP.ssrc` (R319). -/
def MP_TXF_RTP_ssrc : Fld := ⟨0x10000000, 0xf005020018, 2097152, 64, 0, 0, 32, 0, 5, 256⟩
/-- `MP_TXF_RTP.pt` (R319). -/
def MP_TXF_RTP_pt : Fld := ⟨0x10000000, 0xf005020018, 2097152, 64, 0, 32, 7, 0, 5, 256⟩
/-- `MP_TXF_RTP.pkt_samples` (R319). -/
def MP_TXF_RTP_pkt_samples : Fld := ⟨0x10000000, 0xf005020018, 2097152, 64, 0, 39, 12, 0, 5, 256⟩
/-- `MP_TXF_TIME.tro_ns` (R319). -/
def MP_TXF_TIME_tro_ns : Fld := ⟨0x10000000, 0xf005020020, 2097152, 64, 0, 0, 25, 0, 5, 256⟩
/-- `MP_TXF_CNT.tx_missed` (R319). -/
def MP_TXF_CNT_tx_missed : Fld := ⟨0x10000000, 0xf005020028, 2097152, 64, 0, 0, 16, 0, 5, 16⟩
/-- `MP_TXF_CNT.tx_late` (R319). -/
def MP_TXF_CNT_tx_late : Fld := ⟨0x10000000, 0xf005020028, 2097152, 64, 0, 16, 16, 0, 5, 17⟩
/-- `MP_TXF_CNT.anc_dropped` (R319). -/
def MP_TXF_CNT_anc_dropped : Fld := ⟨0x10000000, 0xf005020028, 2097152, 64, 0, 32, 16, 0, 5, 18⟩
/-- `MP_TXF_CNT.pn_dropped` (R319). -/
def MP_TXF_CNT_pn_dropped : Fld := ⟨0x10000000, 0xf005020028, 2097152, 64, 0, 48, 16, 0, 5, 19⟩
/-- `PK_CFG.accept` (R353). -/
def PK_CFG_accept : Fld := ⟨0x10000000, 0xf006000000, 1048576, 0, 0, 0, 1, 1, 6, 256⟩
/-- `PK_CFG.pm_scrub` (R353). -/
def PK_CFG_pm_scrub : Fld := ⟨0x10000000, 0xf006000000, 1048576, 0, 0, 1, 1, 1, 6, 256⟩
/-- `PK_ENG_RUN.running` (R353). -/
def PK_ENG_RUN_running : Fld := ⟨0x10000000, 0xf006000008, 1048576, 0, 0, 0, 32, 0, 6, 256⟩
/-- `PK_ENG_RUN.halted` (R353). -/
def PK_ENG_RUN_halted : Fld := ⟨0x10000000, 0xf006000008, 1048576, 0, 0, 32, 32, 0, 6, 256⟩
/-- `PK_ENG_POOL.pool` (R353). -/
def PK_ENG_POOL_pool : Fld := ⟨0x10000000, 0xf006000010, 1048576, 0, 0, 0, 32, 0, 6, 256⟩
/-- `PK_ENG_POOL.failed` (R353). -/
def PK_ENG_POOL_failed : Fld := ⟨0x10000000, 0xf006000010, 1048576, 0, 0, 32, 32, 0, 6, 256⟩
/-- `PK_IMEM_CTL.open` (R353). -/
def PK_IMEM_CTL_open : Fld := ⟨0x10000000, 0xf006000018, 1048576, 0, 0, 0, 1, 0, 6, 256⟩
/-- `PK_PM_ERR.corrected` (R353). -/
def PK_PM_ERR_corrected : Fld := ⟨0x10000000, 0xf006000020, 1048576, 0, 0, 0, 16, 0, 6, 0⟩
/-- `PK_PM_ERR.uncorrectable` (R353). -/
def PK_PM_ERR_uncorrectable : Fld := ⟨0x10000000, 0xf006000020, 1048576, 0, 0, 16, 16, 0, 6, 1⟩
/-- `PK_STIM.stim_en` (R353). -/
def PK_STIM_stim_en : Fld := ⟨0x10000000, 0xf006000028, 1048576, 0, 0, 0, 32, 0, 6, 256⟩
/-- `PK_STIM.stim_drop` (R353). -/
def PK_STIM_stim_drop : Fld := ⟨0x10000000, 0xf006000028, 1048576, 0, 0, 32, 16, 0, 6, 2⟩
/-- `PK_ENG_CFG.vec_line` (R353). -/
def PK_ENG_CFG_vec_line : Fld := ⟨0x10000000, 0xf006001000, 1048576, 64, 0, 0, 12, 0, 6, 256⟩
/-- `PK_ENG_CFG.retire` (R353). -/
def PK_ENG_CFG_retire : Fld := ⟨0x10000000, 0xf006001000, 1048576, 64, 0, 12, 1, 0, 6, 256⟩
/-- `PK_ENG_STAT.state` (R353). -/
def PK_ENG_STAT_state : Fld := ⟨0x10000000, 0xf006001008, 1048576, 64, 0, 0, 3, 0, 6, 256⟩
/-- `PK_ENG_STAT.queue` (R353). -/
def PK_ENG_STAT_queue : Fld := ⟨0x10000000, 0xf006001008, 1048576, 64, 0, 3, 13, 0, 6, 256⟩
/-- `PK_ENG_STAT.exc` (R353). -/
def PK_ENG_STAT_exc : Fld := ⟨0x10000000, 0xf006001008, 1048576, 64, 0, 16, 4, 0, 6, 256⟩
/-- `PK_ENG_STAT.ll_open` (R353). -/
def PK_ENG_STAT_ll_open : Fld := ⟨0x10000000, 0xf006001008, 1048576, 64, 0, 20, 1, 0, 6, 256⟩
/-- `PK_ENG_STAT.in_handler` (R353). -/
def PK_ENG_STAT_in_handler : Fld := ⟨0x10000000, 0xf006001008, 1048576, 64, 0, 21, 1, 0, 6, 256⟩
/-- `PK_ENG_STAT.redirect` (R353). -/
def PK_ENG_STAT_redirect : Fld := ⟨0x10000000, 0xf006001008, 1048576, 64, 0, 22, 1, 0, 6, 256⟩
/-- `PK_ENG_STAT.stream_pending` (R353). -/
def PK_ENG_STAT_stream_pending : Fld := ⟨0x10000000, 0xf006001008, 1048576, 64, 0, 23, 1, 0, 6, 256⟩
/-- `PK_ENG_STAT.preempt_pending` (R353). -/
def PK_ENG_STAT_preempt_pending : Fld := ⟨0x10000000, 0xf006001008, 1048576, 64, 0, 24, 1, 0, 6, 256⟩
/-- `PK_ENG_PC.pc` (R353). -/
def PK_ENG_PC_pc : Fld := ⟨0x10000000, 0xf006001010, 1048576, 64, 0, 0, 18, 0, 6, 256⟩
/-- `PK_ENG_PC.exc_pc` (R353). -/
def PK_ENG_PC_exc_pc : Fld := ⟨0x10000000, 0xf006001010, 1048576, 64, 0, 18, 18, 0, 6, 256⟩
/-- `PK_ENG_CNT.stall_cycles` (R353). -/
def PK_ENG_CNT_stall_cycles : Fld := ⟨0x10000000, 0xf006001018, 1048576, 64, 0, 0, 32, 0, 6, 3⟩
/-- `PK_ENG_CNT.exceptions` (R353). -/
def PK_ENG_CNT_exceptions : Fld := ⟨0x10000000, 0xf006001018, 1048576, 64, 0, 32, 16, 0, 6, 4⟩
/-- `PK_ENG_CNT.preempts` (R353). -/
def PK_ENG_CNT_preempts : Fld := ⟨0x10000000, 0xf006001018, 1048576, 64, 0, 48, 16, 0, 6, 5⟩
/-- `PK_SRX_CFG.enable` (R353). -/
def PK_SRX_CFG_enable : Fld := ⟨0x10000000, 0xf006002000, 1048576, 32, 0, 0, 1, 0, 6, 256⟩
/-- `PK_SRX_CFG.base` (R353). -/
def PK_SRX_CFG_base : Fld := ⟨0x10000000, 0xf006002000, 1048576, 32, 0, 1, 14, 0, 6, 256⟩
/-- `PK_SRX_CFG.entry_lines` (R353). -/
def PK_SRX_CFG_entry_lines : Fld := ⟨0x10000000, 0xf006002000, 1048576, 32, 0, 15, 13, 76, 6, 256⟩
/-- `PK_SRX_CFG.entries` (R353). -/
def PK_SRX_CFG_entries : Fld := ⟨0x10000000, 0xf006002000, 1048576, 32, 0, 28, 10, 8, 6, 256⟩
/-- `PK_SRX_CFG.evt` (R353). -/
def PK_SRX_CFG_evt : Fld := ⟨0x10000000, 0xf006002000, 1048576, 32, 0, 38, 2, 0, 6, 256⟩
/-- `PK_SRX_CFG.evt_eng` (R353). -/
def PK_SRX_CFG_evt_eng : Fld := ⟨0x10000000, 0xf006002000, 1048576, 32, 0, 40, 5, 0, 6, 256⟩
/-- `PK_SRX_CFG.evt_queue` (R353). -/
def PK_SRX_CFG_evt_queue : Fld := ⟨0x10000000, 0xf006002000, 1048576, 32, 0, 45, 11, 0, 6, 256⟩
/-- `PK_SRX_STAT.produced` (R353). -/
def PK_SRX_STAT_produced : Fld := ⟨0x10000000, 0xf006002008, 1048576, 32, 0, 0, 32, 0, 6, 256⟩
/-- `PK_SRX_STAT.rx_drop` (R353). -/
def PK_SRX_STAT_rx_drop : Fld := ⟨0x10000000, 0xf006002008, 1048576, 32, 0, 32, 16, 0, 6, 6⟩
/-- `PK_SRX_STAT.rx_bad` (R353). -/
def PK_SRX_STAT_rx_bad : Fld := ⟨0x10000000, 0xf006002008, 1048576, 32, 0, 48, 16, 0, 6, 7⟩
/-- `PK_STX_STAT.sent` (R353). -/
def PK_STX_STAT_sent : Fld := ⟨0x10000000, 0xf006002010, 1048576, 32, 0, 0, 32, 0, 6, 256⟩
/-- `PK_STX_STAT.refused` (R353). -/
def PK_STX_STAT_refused : Fld := ⟨0x10000000, 0xf006002010, 1048576, 32, 0, 32, 16, 0, 6, 8⟩
/-- `KEN_CFG.spill_en` (R414). -/
def KEN_CFG_spill_en : Fld := ⟨0x10000000, 0xf000000000, 0, 0, 0, 0, 1, 0, 0, 256⟩
/-- `KEN_CFG.spill_mirror` (R414). -/
def KEN_CFG_spill_mirror : Fld := ⟨0x10000000, 0xf000000000, 0, 0, 0, 1, 1, 0, 0, 256⟩
/-- `KEN_CFG.spill_base` (R414). -/
def KEN_CFG_spill_base : Fld := ⟨0x10000000, 0xf000000000, 0, 0, 0, 2, 14, 0, 0, 256⟩
/-- `KEN_CFG.max_reruns` (R414). -/
def KEN_CFG_max_reruns : Fld := ⟨0x10000000, 0xf000000000, 0, 0, 0, 16, 2, 2, 0, 256⟩
/-- `KEN_STATUS.lane_up` (R414). -/
def KEN_STATUS_lane_up : Fld := ⟨0x10000000, 0xf000000008, 0, 0, 0, 0, 9, 0, 0, 256⟩
/-- `KEN_STATUS.spare_busy` (R414). -/
def KEN_STATUS_spare_busy : Fld := ⟨0x10000000, 0xf000000008, 0, 0, 0, 9, 1, 0, 0, 256⟩
/-- `KEN_STATUS.tokens_free` (R414). -/
def KEN_STATUS_tokens_free : Fld := ⟨0x10000000, 0xf000000008, 0, 0, 0, 10, 17, 0, 0, 256⟩
/-- `KEN_STATUS.store_used` (R414). -/
def KEN_STATUS_store_used : Fld := ⟨0x10000000, 0xf000000008, 0, 0, 0, 27, 14, 0, 0, 256⟩
/-- `KEN_STATUS.delay_used` (R414). -/
def KEN_STATUS_delay_used : Fld := ⟨0x10000000, 0xf000000008, 0, 0, 0, 41, 15, 0, 0, 256⟩
/-- `KEN_TRACE.enable` (R414). -/
def KEN_TRACE_enable : Fld := ⟨0x10000000, 0xf000000010, 0, 0, 0, 0, 1, 0, 0, 256⟩
/-- `KEN_TRACE.all_q` (R414). -/
def KEN_TRACE_all_q : Fld := ⟨0x10000000, 0xf000000010, 0, 0, 0, 1, 1, 0, 0, 256⟩
/-- `KEN_TRACE.kinds` (R414). -/
def KEN_TRACE_kinds : Fld := ⟨0x10000000, 0xf000000010, 0, 0, 0, 2, 6, 0, 0, 256⟩
/-- `KEN_TRACE.trace_drop` (R414). -/
def KEN_TRACE_trace_drop : Fld := ⟨0x10000000, 0xf000000010, 0, 0, 0, 8, 16, 0, 0, 0⟩
/-- `KEN_TICK.mode` (R414). -/
def KEN_TICK_mode : Fld := ⟨0x10000000, 0xf000000100, 0, 8, 0, 0, 2, 1, 0, 256⟩
/-- `KEN_TICK.period` (R414). -/
def KEN_TICK_period : Fld := ⟨0x10000000, 0xf000000100, 0, 8, 0, 2, 12, 4, 0, 256⟩
/-- `KEN_TICK.cg` (R414). -/
def KEN_TICK_cg : Fld := ⟨0x10000000, 0xf000000100, 0, 8, 0, 14, 8, 0, 0, 256⟩
/-- `KEN_TICK.event` (R414). -/
def KEN_TICK_event : Fld := ⟨0x10000000, 0xf000000100, 0, 8, 0, 22, 3, 2, 0, 256⟩
/-- `KEN_TICK.offset_ns` (R414). -/
def KEN_TICK_offset_ns : Fld := ⟨0x10000000, 0xf000000100, 0, 8, 0, 25, 16, 0, 0, 256⟩
/-- `KEN_TICK_CNT.count` (R414). -/
def KEN_TICK_CNT_count : Fld := ⟨0x10000000, 0xf000000200, 0, 8, 0, 0, 32, 0, 0, 256⟩
/-- `KEN_SAVE.base` (R414). -/
def KEN_SAVE_base : Fld := ⟨0x10000000, 0xf000000300, 0, 8, 0, 0, 14, 0, 0, 256⟩
/-- `KEN_SAVE.slots` (R414). -/
def KEN_SAVE_slots : Fld := ⟨0x10000000, 0xf000000300, 0, 8, 0, 14, 5, 0, 0, 256⟩
/-- `KEN_SAVE.slot_lines` (R414). -/
def KEN_SAVE_slot_lines : Fld := ⟨0x10000000, 0xf000000300, 0, 8, 0, 19, 11, 264, 0, 256⟩
/-- `KEN_ENG_LOAD.cycles` (R414). -/
def KEN_ENG_LOAD_cycles : Fld := ⟨0x10000000, 0xf000002000, 0, 16, 0, 0, 48, 0, 0, 256⟩
/-- `KEN_ENG_DISP.dispatches` (R414). -/
def KEN_ENG_DISP_dispatches : Fld := ⟨0x10000000, 0xf000002008, 0, 16, 0, 0, 48, 0, 0, 256⟩
/-- `KEN_CR_BASE.cr_base` (R414). -/
def KEN_CR_BASE_cr_base : Fld := ⟨0x10000000, 0xf000004000, 0, 32, 0, 0, 48, 0, 0, 256⟩
/-- `KEN_CR_BASE.key_id` (R414). -/
def KEN_CR_BASE_key_id : Fld := ⟨0x10000000, 0xf000004000, 0, 32, 0, 48, 7, 0, 0, 256⟩
/-- `KEN_CR_BASE.size_log2` (R414). -/
def KEN_CR_BASE_size_log2 : Fld := ⟨0x10000000, 0xf000004000, 0, 32, 0, 55, 5, 8, 0, 256⟩
/-- `KEN_CR_CFG.enable` (R414). -/
def KEN_CR_CFG_enable : Fld := ⟨0x10000000, 0xf000004008, 0, 32, 0, 0, 1, 0, 0, 256⟩
/-- `KEN_CR_CFG.owner` (R414). -/
def KEN_CR_CFG_owner : Fld := ⟨0x10000000, 0xf000004008, 0, 32, 0, 1, 6, 0, 0, 256⟩
/-- `KEN_CR_CFG.notify` (R414). -/
def KEN_CR_CFG_notify : Fld := ⟨0x10000000, 0xf000004008, 0, 32, 0, 7, 2, 0, 0, 256⟩
/-- `KEN_CR_CFG.vec` (R414). -/
def KEN_CR_CFG_vec : Fld := ⟨0x10000000, 0xf000004008, 0, 32, 0, 9, 11, 0, 0, 256⟩
/-- `KEN_CR_CFG.nq` (R414). -/
def KEN_CR_CFG_nq : Fld := ⟨0x10000000, 0xf000004008, 0, 32, 0, 20, 11, 0, 0, 256⟩
/-- `KEN_CR_PROD.prod` (R414). -/
def KEN_CR_PROD_prod : Fld := ⟨0x10000000, 0xf000004010, 0, 32, 0, 0, 32, 0, 0, 256⟩
/-- `KEN_CR_CONS.cons` (R414). -/
def KEN_CR_CONS_cons : Fld := ⟨0x10000000, 0xf000004018, 0, 32, 0, 0, 32, 0, 0, 256⟩
/-- `KEN_QCFG.enable` (R414). -/
def KEN_QCFG_enable : Fld := ⟨0x10000000, 0xf000100000, 0, 64, 0, 0, 1, 0, 0, 256⟩
/-- `KEN_QCFG.prio` (R414). -/
def KEN_QCFG_prio : Fld := ⟨0x10000000, 0xf000100000, 0, 64, 0, 1, 4, 8, 0, 256⟩
/-- `KEN_QCFG.home` (R414). -/
def KEN_QCFG_home : Fld := ⟨0x10000000, 0xf000100000, 0, 64, 0, 5, 3, 0, 0, 256⟩
/-- `KEN_QCFG.patience` (R414). -/
def KEN_QCFG_patience : Fld := ⟨0x10000000, 0xf000100000, 0, 64, 0, 8, 10, 64, 0, 256⟩
/-- `KEN_QCFG.cross_die` (R414). -/
def KEN_QCFG_cross_die : Fld := ⟨0x10000000, 0xf000100000, 0, 64, 0, 18, 1, 0, 0, 256⟩
/-- `KEN_QCFG.pinned` (R414). -/
def KEN_QCFG_pinned : Fld := ⟨0x10000000, 0xf000100000, 0, 64, 0, 19, 1, 0, 0, 256⟩
/-- `KEN_QCFG.preemptible` (R414). -/
def KEN_QCFG_preemptible : Fld := ⟨0x10000000, 0xf000100000, 0, 64, 0, 20, 1, 0, 0, 256⟩
/-- `KEN_QCFG.preemptor` (R414). -/
def KEN_QCFG_preemptor : Fld := ⟨0x10000000, 0xf000100000, 0, 64, 0, 21, 1, 0, 0, 256⟩
/-- `KEN_QCFG.tick_sel` (R414). -/
def KEN_QCFG_tick_sel : Fld := ⟨0x10000000, 0xf000100000, 0, 64, 0, 22, 2, 0, 0, 256⟩
/-- `KEN_QCFG.steal_after` (R414). -/
def KEN_QCFG_steal_after : Fld := ⟨0x10000000, 0xf000100000, 0, 64, 0, 24, 10, 64, 0, 256⟩
/-- `KEN_QCFG.tmpl` (R414). -/
def KEN_QCFG_tmpl : Fld := ⟨0x10000000, 0xf000100000, 0, 64, 0, 34, 1, 0, 0, 256⟩
/-- `KEN_QCFG.trace` (R414). -/
def KEN_QCFG_trace : Fld := ⟨0x10000000, 0xf000100000, 0, 64, 0, 35, 1, 0, 0, 256⟩
/-- `KEN_QSQ.sq_base` (R414). -/
def KEN_QSQ_sq_base : Fld := ⟨0x10000000, 0xf000100008, 0, 64, 0, 0, 42, 0, 0, 256⟩
/-- `KEN_QSQ.key_id` (R414). -/
def KEN_QSQ_key_id : Fld := ⟨0x10000000, 0xf000100008, 0, 64, 0, 42, 7, 0, 0, 256⟩
/-- `KEN_QSQ.depth_log2` (R414). -/
def KEN_QSQ_depth_log2 : Fld := ⟨0x10000000, 0xf000100008, 0, 64, 0, 49, 5, 4, 0, 256⟩
/-- `KEN_QSQ.err_ring` (R414). -/
def KEN_QSQ_err_ring : Fld := ⟨0x10000000, 0xf000100008, 0, 64, 0, 54, 8, 0, 0, 256⟩
/-- `KEN_QDB.total` (R414). -/
def KEN_QDB_total : Fld := ⟨0x10000000, 0xf000100010, 0, 64, 0, 0, 32, 0, 0, 256⟩
/-- `KEN_QSTAT.ready` (R414). -/
def KEN_QSTAT_ready : Fld := ⟨0x10000000, 0xf000100018, 0, 64, 0, 0, 17, 0, 0, 256⟩
/-- `KEN_QSTAT.delayed` (R414). -/
def KEN_QSTAT_delayed : Fld := ⟨0x10000000, 0xf000100018, 0, 64, 0, 17, 15, 0, 0, 256⟩
/-- `KEN_QSTAT.running` (R414). -/
def KEN_QSTAT_running : Fld := ⟨0x10000000, 0xf000100018, 0, 64, 0, 32, 9, 0, 0, 256⟩
/-- `KEN_QSTAT.state` (R414). -/
def KEN_QSTAT_state : Fld := ⟨0x10000000, 0xf000100018, 0, 64, 0, 41, 2, 0, 0, 256⟩
/-- `KEN_QSTAT.owner` (R414). -/
def KEN_QSTAT_owner : Fld := ⟨0x10000000, 0xf000100018, 0, 64, 0, 43, 6, 0, 0, 256⟩
/-- `KEN_QPTR.head` (R414). -/
def KEN_QPTR_head : Fld := ⟨0x10000000, 0xf000100020, 0, 64, 0, 0, 32, 0, 0, 256⟩
/-- `KEN_QPTR.done` (R414). -/
def KEN_QPTR_done : Fld := ⟨0x10000000, 0xf000100020, 0, 64, 0, 32, 32, 0, 0, 256⟩
/-- `KEN_QCNT.bad_desc` (R414). -/
def KEN_QCNT_bad_desc : Fld := ⟨0x10000000, 0xf000100028, 0, 64, 0, 0, 16, 0, 0, 1⟩
/-- `KEN_QCNT.bad_db` (R414). -/
def KEN_QCNT_bad_db : Fld := ⟨0x10000000, 0xf000100028, 0, 64, 0, 16, 16, 0, 0, 2⟩
/-- `KEN_QCNT.missed` (R414). -/
def KEN_QCNT_missed : Fld := ⟨0x10000000, 0xf000100028, 0, 64, 0, 32, 16, 0, 0, 3⟩
/-- `KEN_QCNT.lost` (R414). -/
def KEN_QCNT_lost : Fld := ⟨0x10000000, 0xf000100028, 0, 64, 0, 48, 16, 0, 0, 4⟩
/-- `KEN_QCMD.cmd` (R414). -/
def KEN_QCMD_cmd : Fld := ⟨0x10000000, 0xf000100030, 0, 64, 0, 0, 2, 0, 0, 256⟩
/-- `KEN_QHIST.count` (R414). -/
def KEN_QHIST_count : Fld := ⟨0x10000000, 0xf000200000, 0, 128, 8, 0, 48, 0, 0, 256⟩
/-- `CRY_CFG.sweep_rate` (R449). -/
def CRY_CFG_sweep_rate : Fld := ⟨0x10000000, 0xf003000000, 0, 0, 0, 0, 8, 20, 3, 256⟩
/-- `CRY_STATUS.ctl_up` (R449). -/
def CRY_STATUS_ctl_up : Fld := ⟨0x10000000, 0xf003000008, 0, 0, 0, 0, 2, 0, 3, 256⟩
/-- `CRY_STATUS.sweeping` (R449). -/
def CRY_STATUS_sweeping : Fld := ⟨0x10000000, 0xf003000008, 0, 0, 0, 2, 1, 0, 3, 256⟩
/-- `CRY_STATUS.reinit` (R449). -/
def CRY_STATUS_reinit : Fld := ⟨0x10000000, 0xf003000008, 0, 0, 0, 3, 1, 0, 3, 256⟩
/-- `CRY_KEYSTATE.state` (R449). -/
def CRY_KEYSTATE_state : Fld := ⟨0x0, 0xf003001000, 0, 8, 0, 0, 2, 0, 3, 256⟩
/-- `CRY_KEYSTATE.level` (R449). -/
def CRY_KEYSTATE_level : Fld := ⟨0x0, 0xf003001000, 0, 8, 0, 2, 2, 0, 3, 256⟩
/-- `CRY_KEYSTATE.owner` (R449). -/
def CRY_KEYSTATE_owner : Fld := ⟨0x0, 0xf003001000, 0, 8, 0, 4, 6, 0, 3, 256⟩
/-- `CRY_KEYSTATE.kcv` (R449). -/
def CRY_KEYSTATE_kcv : Fld := ⟨0x0, 0xf003001000, 0, 8, 0, 10, 32, 0, 3, 256⟩
/-- `CRY_KEYSTATE.regions` (R449). -/
def CRY_KEYSTATE_regions : Fld := ⟨0x0, 0xf003001000, 0, 8, 0, 42, 10, 0, 3, 256⟩
/-- `CRY_KEYSTATE.device` (R449). -/
def CRY_KEYSTATE_device : Fld := ⟨0x0, 0xf003001000, 0, 8, 0, 52, 1, 0, 3, 256⟩
/-- `CRY_LINK.key_id` (R449). -/
def CRY_LINK_key_id : Fld := ⟨0x10000000, 0xf003002000, 0, 16, 0, 0, 7, 0, 3, 256⟩
/-- `CRY_LINK.next_key_id` (R449). -/
def CRY_LINK_next_key_id : Fld := ⟨0x10000000, 0xf003002000, 0, 16, 0, 7, 7, 0, 3, 256⟩
/-- `CRY_LINK.dir` (R449). -/
def CRY_LINK_dir : Fld := ⟨0x10000000, 0xf003002000, 0, 16, 0, 14, 1, 0, 3, 256⟩
/-- `CRY_LINK.switch` (R449). -/
def CRY_LINK_switch : Fld := ⟨0x10000000, 0xf003002000, 0, 16, 0, 15, 1, 0, 3, 256⟩
/-- `CRY_LINK_STAT.frames` (R449). -/
def CRY_LINK_STAT_frames : Fld := ⟨0x10000000, 0xf003002008, 0, 16, 0, 0, 64, 0, 3, 256⟩
/-- `HBM_CFG.rate` (R449). -/
def HBM_CFG_rate : Fld := ⟨0x10000000, 0xf003100000, 1048576, 0, 0, 0, 2, 0, 3, 256⟩
/-- `HBM_CFG.hot_refresh` (R449). -/
def HBM_CFG_hot_refresh : Fld := ⟨0x10000000, 0xf003100000, 1048576, 0, 0, 2, 1, 1, 3, 256⟩
/-- `HBM_CFG.patrol` (R449). -/
def HBM_CFG_patrol : Fld := ⟨0x10000000, 0xf003100000, 1048576, 0, 0, 3, 1, 1, 3, 256⟩
/-- `HBM_CFG.ppr_auto` (R449). -/
def HBM_CFG_ppr_auto : Fld := ⟨0x10000000, 0xf003100000, 1048576, 0, 0, 4, 1, 1, 3, 256⟩
/-- `HBM_CFG.ue_thresh` (R449). -/
def HBM_CFG_ue_thresh : Fld := ⟨0x10000000, 0xf003100000, 1048576, 0, 0, 5, 4, 4, 3, 256⟩
/-- `HBM_STATUS.state` (R449). -/
def HBM_STATUS_state : Fld := ⟨0x10000000, 0xf003100008, 1048576, 0, 0, 0, 3, 0, 3, 256⟩
/-- `HBM_STATUS.spare_pc` (R449). -/
def HBM_STATUS_spare_pc : Fld := ⟨0x10000000, 0xf003100008, 1048576, 0, 0, 3, 5, 0, 3, 256⟩
/-- `HBM_STATUS.spare_used` (R449). -/
def HBM_STATUS_spare_used : Fld := ⟨0x10000000, 0xf003100008, 1048576, 0, 0, 8, 1, 0, 3, 256⟩
/-- `HBM_STATUS.copying` (R449). -/
def HBM_STATUS_copying : Fld := ⟨0x10000000, 0xf003100008, 1048576, 0, 0, 9, 1, 0, 3, 256⟩
/-- `HBM_STATUS.pc_failed` (R449). -/
def HBM_STATUS_pc_failed : Fld := ⟨0x10000000, 0xf003100008, 1048576, 0, 0, 10, 32, 0, 3, 256⟩
/-- `HBM_STATUS.retained` (R449). -/
def HBM_STATUS_retained : Fld := ⟨0x10000000, 0xf003100008, 1048576, 0, 0, 42, 1, 0, 3, 256⟩
/-- `HBM_ERR.corrected` (R449). -/
def HBM_ERR_corrected : Fld := ⟨0x10000000, 0xf003100010, 1048576, 0, 0, 0, 16, 0, 3, 0⟩
/-- `HBM_ERR.uncorrectable` (R449). -/
def HBM_ERR_uncorrectable : Fld := ⟨0x10000000, 0xf003100010, 1048576, 0, 0, 16, 16, 0, 3, 1⟩
/-- `HBM_ERR.soft` (R449). -/
def HBM_ERR_soft : Fld := ⟨0x10000000, 0xf003100010, 1048576, 0, 0, 32, 16, 0, 3, 2⟩
/-- `HBM_ERR.hard` (R449). -/
def HBM_ERR_hard : Fld := ⟨0x10000000, 0xf003100010, 1048576, 0, 0, 48, 16, 0, 3, 3⟩
/-- `HBM_ERRADDR.offset` (R449). -/
def HBM_ERRADDR_offset : Fld := ⟨0x10000000, 0xf003100018, 1048576, 0, 0, 0, 35, 0, 3, 256⟩
/-- `HBM_ERRADDR.pc` (R449). -/
def HBM_ERRADDR_pc : Fld := ⟨0x10000000, 0xf003100018, 1048576, 0, 0, 35, 5, 0, 3, 256⟩
/-- `CRY_PIPE.up` (R449). -/
def CRY_PIPE_up : Fld := ⟨0x10000000, 0xf003100020, 1048576, 0, 0, 0, 52, 0, 3, 256⟩
/-- `CRY_PIPE.spares` (R449). -/
def CRY_PIPE_spares : Fld := ⟨0x10000000, 0xf003100020, 1048576, 0, 0, 52, 3, 0, 3, 256⟩
/-- `CRY_CACHE.ctr_miss` (R449). -/
def CRY_CACHE_ctr_miss : Fld := ⟨0x10000000, 0xf003100028, 1048576, 0, 0, 0, 32, 0, 3, 256⟩
/-- `CRY_CACHE.tag_miss` (R449). -/
def CRY_CACHE_tag_miss : Fld := ⟨0x10000000, 0xf003100028, 1048576, 0, 0, 32, 32, 0, 3, 256⟩
/-- `CRY_CNT.integrity` (R449). -/
def CRY_CNT_integrity : Fld := ⟨0x10000000, 0xf003100030, 1048576, 0, 0, 0, 16, 0, 3, 4⟩
/-- `CRY_CNT.minor_ovf` (R449). -/
def CRY_CNT_minor_ovf : Fld := ⟨0x10000000, 0xf003100030, 1048576, 0, 0, 16, 16, 0, 3, 5⟩
/-- `CRY_CNT.held_writes` (R449). -/
def CRY_CNT_held_writes : Fld := ⟨0x10000000, 0xf003100030, 1048576, 0, 0, 32, 16, 0, 3, 6⟩
/-- `CRY_CNT.reinits` (R449). -/
def CRY_CNT_reinits : Fld := ⟨0x10000000, 0xf003100030, 1048576, 0, 0, 48, 16, 0, 3, 7⟩
/-- `CRY_RGN.state` (R449). -/
def CRY_RGN_state : Fld := ⟨0x10000000, 0xf003101000, 1048576, 32, 0, 0, 3, 0, 3, 256⟩
/-- `CRY_RGN.key_id` (R449). -/
def CRY_RGN_key_id : Fld := ⟨0x10000000, 0xf003101000, 1048576, 32, 0, 3, 7, 0, 3, 256⟩
/-- `CRY_RGN.durable` (R449). -/
def CRY_RGN_durable : Fld := ⟨0x10000000, 0xf003101000, 1048576, 32, 0, 10, 1, 0, 3, 256⟩
/-- `CRY_RGN.wide` (R449). -/
def CRY_RGN_wide : Fld := ⟨0x10000000, 0xf003101000, 1048576, 32, 0, 11, 1, 0, 3, 256⟩
/-- `CRY_RGN.generation` (R449). -/
def CRY_RGN_generation : Fld := ⟨0x10000000, 0xf003101000, 1048576, 32, 0, 12, 24, 0, 3, 256⟩
/-- `CRY_RGN.owner` (R449). -/
def CRY_RGN_owner : Fld := ⟨0x10000000, 0xf003101000, 1048576, 32, 0, 36, 6, 0, 3, 256⟩
/-- `CRY_RGN_EXT.base` (R449). -/
def CRY_RGN_EXT_base : Fld := ⟨0x10000000, 0xf003101008, 1048576, 32, 0, 0, 14, 0, 3, 256⟩
/-- `CRY_RGN_EXT.size` (R449). -/
def CRY_RGN_EXT_size : Fld := ⟨0x10000000, 0xf003101008, 1048576, 32, 0, 14, 14, 0, 3, 256⟩
/-- `CRY_RGN_EXT.meta_base` (R449). -/
def CRY_RGN_EXT_meta_base : Fld := ⟨0x10000000, 0xf003101008, 1048576, 32, 0, 28, 14, 0, 3, 256⟩
/-- `CRY_RGN_EXT.meta_units` (R449). -/
def CRY_RGN_EXT_meta_units : Fld := ⟨0x10000000, 0xf003101008, 1048576, 32, 0, 42, 14, 0, 3, 256⟩
/-- `CRY_RGN_CTR.major_hw` (R449). -/
def CRY_RGN_CTR_major_hw : Fld := ⟨0x10000000, 0xf003101010, 1048576, 32, 0, 0, 32, 0, 3, 256⟩
/-- `CRY_RGN_CTR.sweep` (R449). -/
def CRY_RGN_CTR_sweep : Fld := ⟨0x10000000, 0xf003101010, 1048576, 32, 0, 32, 23, 0, 3, 256⟩
/-- `HRT_ID.part` (R474). -/
def HRT_ID_part : Fld := ⟨0x0, 0xf00f000000, 0, 0, 0, 0, 16, 4758, 15, 256⟩
/-- `HRT_ID.stepping` (R474). -/
def HRT_ID_stepping : Fld := ⟨0x0, 0xf00f000000, 0, 0, 0, 16, 8, 177, 15, 256⟩
/-- `HRT_ID.grade` (R474). -/
def HRT_ID_grade : Fld := ⟨0x0, 0xf00f000000, 0, 0, 0, 24, 2, 0, 15, 256⟩
/-- `HRT_ID.temp` (R474). -/
def HRT_ID_temp : Fld := ⟨0x0, 0xf00f000000, 0, 0, 0, 26, 1, 0, 15, 256⟩
/-- `HRT_ID.lid` (R474). -/
def HRT_ID_lid : Fld := ⟨0x0, 0xf00f000000, 0, 0, 0, 27, 1, 0, 15, 256⟩
/-- `HRT_ID.hosta_split` (R474). -/
def HRT_ID_hosta_split : Fld := ⟨0x0, 0xf00f000000, 0, 0, 0, 28, 1, 0, 15, 256⟩
/-- `HRT_ID.hostb_en` (R474). -/
def HRT_ID_hostb_en : Fld := ⟨0x0, 0xf00f000000, 0, 0, 0, 29, 1, 0, 15, 256⟩
/-- `HRT_SN.device_sn` (R474). -/
def HRT_SN_device_sn : Fld := ⟨0x0, 0xf00f000008, 0, 0, 0, 0, 64, 0, 15, 256⟩
/-- `HRT_HEARTH.active` (R474). -/
def HRT_HEARTH_active : Fld := ⟨0x0, 0xf00f000010, 0, 0, 0, 0, 1, 0, 15, 256⟩
/-- `HRT_HEARTH.standby_ready` (R474). -/
def HRT_HEARTH_standby_ready : Fld := ⟨0x0, 0xf00f000010, 0, 0, 0, 1, 1, 0, 15, 256⟩
/-- `HRT_HEARTH.fw_staged` (R474). -/
def HRT_HEARTH_fw_staged : Fld := ⟨0x0, 0xf00f000010, 0, 0, 0, 2, 1, 0, 15, 256⟩
/-- `HRT_HEARTH.fw_switching` (R474). -/
def HRT_HEARTH_fw_switching : Fld := ⟨0x0, 0xf00f000010, 0, 0, 0, 3, 1, 0, 15, 256⟩
/-- `HRT_HEARTH.takeovers` (R474). -/
def HRT_HEARTH_takeovers : Fld := ⟨0x0, 0xf00f000010, 0, 0, 0, 4, 16, 0, 15, 0⟩
/-- `HRT_HEARTH.fw_active` (R474). -/
def HRT_HEARTH_fw_active : Fld := ⟨0x0, 0xf00f000010, 0, 0, 0, 20, 16, 0, 15, 256⟩
/-- `HRT_HEARTH.fw_standby` (R474). -/
def HRT_HEARTH_fw_standby : Fld := ⟨0x0, 0xf00f000010, 0, 0, 0, 36, 16, 0, 15, 256⟩
/-- `HRT_HEARTH.fw_svn` (R474). -/
def HRT_HEARTH_fw_svn : Fld := ⟨0x0, 0xf00f000010, 0, 0, 0, 52, 7, 0, 15, 256⟩
/-- `HRT_CQ_BASE.base` (R474). -/
def HRT_CQ_BASE_base : Fld := ⟨0x0, 0xf00f001000, 0, 128, 0, 12, 52, 0, 15, 256⟩
/-- `HRT_RQ_BASE.base` (R474). -/
def HRT_RQ_BASE_base : Fld := ⟨0x0, 0xf00f001008, 0, 128, 0, 12, 52, 0, 15, 256⟩
/-- `HRT_CQ_CFG.enable` (R474). -/
def HRT_CQ_CFG_enable : Fld := ⟨0x0, 0xf00f001010, 0, 128, 0, 0, 1, 0, 15, 256⟩
/-- `HRT_CQ_CFG.size_log2` (R474). -/
def HRT_CQ_CFG_size_log2 : Fld := ⟨0x0, 0xf00f001010, 0, 128, 0, 1, 4, 6, 15, 256⟩
/-- `HRT_CQ_CFG.vec` (R474). -/
def HRT_CQ_CFG_vec : Fld := ⟨0x0, 0xf00f001010, 0, 128, 0, 5, 11, 0, 15, 256⟩
/-- `HRT_CQ_TAIL.tail` (R474). -/
def HRT_CQ_TAIL_tail : Fld := ⟨0x0, 0xf00f001018, 0, 128, 0, 0, 16, 0, 15, 256⟩
/-- `HRT_CQ_HEAD.taken` (R474). -/
def HRT_CQ_HEAD_taken : Fld := ⟨0x0, 0xf00f001020, 0, 128, 0, 0, 16, 0, 15, 256⟩
/-- `HRT_CQ_HEAD.responses` (R474). -/
def HRT_CQ_HEAD_responses : Fld := ⟨0x0, 0xf00f001020, 0, 128, 0, 16, 16, 0, 15, 256⟩
/-- `HRT_BAR2.win` (R474). -/
def HRT_BAR2_win : Fld := ⟨0x0, 0xf00f001028, 0, 128, 0, 0, 12, 0, 15, 256⟩
/-- `HRT_BAR2.key_id` (R474). -/
def HRT_BAR2_key_id : Fld := ⟨0x0, 0xf00f001028, 0, 128, 0, 12, 7, 0, 15, 256⟩
/-- `HRT_FN_STAT.type` (R474). -/
def HRT_FN_STAT_type : Fld := ⟨0x0, 0xf00f001030, 0, 128, 0, 0, 2, 0, 15, 256⟩
/-- `HRT_FN_STAT.active` (R474). -/
def HRT_FN_STAT_active : Fld := ⟨0x0, 0xf00f001030, 0, 128, 0, 2, 1, 0, 15, 256⟩
/-- `HRT_FN_STAT.vf_denied` (R474). -/
def HRT_FN_STAT_vf_denied : Fld := ⟨0x0, 0xf00f001030, 0, 128, 0, 3, 16, 0, 15, 3⟩
/-- `HRT_FN_STAT.bar_err` (R474). -/
def HRT_FN_STAT_bar_err : Fld := ⟨0x0, 0xf00f001030, 0, 128, 0, 19, 16, 0, 15, 4⟩
/-- `HRT_FN_STAT.ring_err` (R474). -/
def HRT_FN_STAT_ring_err : Fld := ⟨0x0, 0xf00f001030, 0, 128, 0, 35, 16, 0, 15, 5⟩
/-- `HRT_FN_STAT.log_lost` (R474). -/
def HRT_FN_STAT_log_lost : Fld := ⟨0x0, 0xf00f001030, 0, 128, 0, 51, 8, 0, 15, 6⟩
/-- `HRT_FN_STAT.dflt_txn` (R474). -/
def HRT_FN_STAT_dflt_txn : Fld := ⟨0x0, 0xf00f001030, 0, 128, 0, 59, 4, 0, 15, 256⟩
/-- `HRT_FN_STAT.dflt_valid` (R474). -/
def HRT_FN_STAT_dflt_valid : Fld := ⟨0x0, 0xf00f001030, 0, 128, 0, 63, 1, 0, 15, 256⟩
/-- `HRT_PART_KEY.key_first` (R474). -/
def HRT_PART_KEY_key_first : Fld := ⟨0x0, 0xf00f004000, 0, 128, 0, 0, 7, 0, 15, 256⟩
/-- `HRT_PART_KEY.key_count` (R474). -/
def HRT_PART_KEY_key_count : Fld := ⟨0x0, 0xf00f004000, 0, 128, 0, 7, 7, 0, 15, 256⟩
/-- `HRT_PART_Q.q_first` (R474). -/
def HRT_PART_Q_q_first : Fld := ⟨0x0, 0xf00f004008, 0, 128, 8, 0, 11, 0, 15, 256⟩
/-- `HRT_PART_Q.q_count` (R474). -/
def HRT_PART_Q_q_count : Fld := ⟨0x0, 0xf00f004008, 0, 128, 8, 11, 12, 0, 15, 256⟩
/-- `HRT_PART_SLOT.s_first` (R474). -/
def HRT_PART_SLOT_s_first : Fld := ⟨0x0, 0xf00f004028, 0, 128, 8, 0, 10, 0, 15, 256⟩
/-- `HRT_PART_SLOT.s_count` (R474). -/
def HRT_PART_SLOT_s_count : Fld := ⟨0x0, 0xf00f004028, 0, 128, 8, 10, 11, 0, 15, 256⟩
/-- `FLT_STATUS.open` (R502). -/
def FLT_STATUS_open : Fld := ⟨0x0, 0xf00c000000, 0, 0, 0, 0, 9, 0, 12, 256⟩
/-- `FLT_STATUS.overflow` (R502). -/
def FLT_STATUS_overflow : Fld := ⟨0x0, 0xf00c000000, 0, 0, 0, 9, 1, 0, 12, 256⟩
/-- `FLT_STATUS.escalated` (R502). -/
def FLT_STATUS_escalated : Fld := ⟨0x0, 0xf00c000000, 0, 0, 0, 10, 1, 0, 12, 256⟩
/-- `FLT_STATUS.handling` (R502). -/
def FLT_STATUS_handling : Fld := ⟨0x0, 0xf00c000000, 0, 0, 0, 11, 3, 0, 12, 256⟩
/-- `FLT_STATUS.suspended` (R502). -/
def FLT_STATUS_suspended : Fld := ⟨0x0, 0xf00c000000, 0, 0, 0, 14, 3, 0, 12, 256⟩
/-- `FLT_STATUS.seq_next` (R502). -/
def FLT_STATUS_seq_next : Fld := ⟨0x0, 0xf00c000000, 0, 0, 0, 17, 32, 0, 12, 256⟩
/-- `FLT_CNT.note` (R502). -/
def FLT_CNT_note : Fld := ⟨0x0, 0xf00c000008, 0, 0, 0, 0, 16, 0, 12, 0⟩
/-- `FLT_CNT.degrade` (R502). -/
def FLT_CNT_degrade : Fld := ⟨0x0, 0xf00c000008, 0, 0, 0, 16, 16, 0, 12, 1⟩
/-- `FLT_CNT.stream` (R502). -/
def FLT_CNT_stream : Fld := ⟨0x0, 0xf00c000008, 0, 0, 0, 32, 16, 0, 12, 2⟩
/-- `FLT_CNT.device` (R502). -/
def FLT_CNT_device : Fld := ⟨0x0, 0xf00c000008, 0, 0, 0, 48, 16, 0, 12, 3⟩
/-- `FLT_OVF.note` (R502). -/
def FLT_OVF_note : Fld := ⟨0x0, 0xf00c000010, 0, 0, 0, 0, 16, 0, 12, 4⟩
/-- `FLT_OVF.degrade` (R502). -/
def FLT_OVF_degrade : Fld := ⟨0x0, 0xf00c000010, 0, 0, 0, 16, 16, 0, 12, 5⟩
/-- `FLT_OVF.stream` (R502). -/
def FLT_OVF_stream : Fld := ⟨0x0, 0xf00c000010, 0, 0, 0, 32, 16, 0, 12, 6⟩
/-- `FLT_OVF.device` (R502). -/
def FLT_OVF_device : Fld := ⟨0x0, 0xf00c000010, 0, 0, 0, 48, 16, 0, 12, 7⟩
/-- `FLT_INJECT.severity` (R502). -/
def FLT_INJECT_severity : Fld := ⟨0x0, 0xf00c000018, 0, 0, 0, 0, 2, 0, 12, 256⟩
/-- `FLT_INJECT.go` (R502). -/
def FLT_INJECT_go : Fld := ⟨0x0, 0xf00c000018, 0, 0, 0, 2, 1, 0, 12, 256⟩
/-- `FLT_REC.bytes` (R502). -/
def FLT_REC_bytes : Fld := ⟨0x0, 0xf00c001000, 0, 32, 8, 0, 64, 0, 12, 256⟩
/-- `KLN_CFG.enable` (R503). -/
def KLN_CFG_enable : Fld := ⟨0x10000000, 0xf007000000, 0, 0, 0, 0, 1, 1, 7, 256⟩
/-- `KLN_CFG.budget_us` (R503). -/
def KLN_CFG_budget_us : Fld := ⟨0x10000000, 0xf007000000, 0, 0, 0, 1, 8, 50, 7, 256⟩
/-- `KLN_CFG.period_min` (R503). -/
def KLN_CFG_period_min : Fld := ⟨0x10000000, 0xf007000000, 0, 0, 0, 9, 6, 50, 7, 256⟩
/-- `KLN_CFG.gap_us` (R503). -/
def KLN_CFG_gap_us : Fld := ⟨0x10000000, 0xf007000000, 0, 0, 0, 15, 10, 100, 7, 256⟩
/-- `KLN_WIN.win_en` (R503). -/
def KLN_WIN_win_en : Fld := ⟨0x10000000, 0xf007000008, 0, 0, 0, 0, 1, 0, 7, 256⟩
/-- `KLN_WIN.win_types` (R503). -/
def KLN_WIN_win_types : Fld := ⟨0x10000000, 0xf007000008, 0, 0, 0, 1, 5, 0, 7, 256⟩
/-- `KLN_WIN.win_cg` (R503). -/
def KLN_WIN_win_cg : Fld := ⟨0x10000000, 0xf007000008, 0, 0, 0, 6, 8, 0, 7, 256⟩
/-- `KLN_WIN.line_first` (R503). -/
def KLN_WIN_line_first : Fld := ⟨0x10000000, 0xf007000008, 0, 0, 0, 14, 13, 1, 7, 256⟩
/-- `KLN_WIN.line_last` (R503). -/
def KLN_WIN_line_last : Fld := ⟨0x10000000, 0xf007000008, 0, 0, 0, 27, 13, 1, 7, 256⟩
/-- `KLN_STATUS.busy` (R503). -/
def KLN_STATUS_busy : Fld := ⟨0x10000000, 0xf007000010, 0, 0, 0, 0, 1, 0, 7, 256⟩
/-- `KLN_STATUS.unit` (R503). -/
def KLN_STATUS_unit : Fld := ⟨0x10000000, 0xf007000010, 0, 0, 0, 1, 9, 0, 7, 256⟩
/-- `KLN_STATUS.segment` (R503). -/
def KLN_STATUS_segment : Fld := ⟨0x10000000, 0xf007000010, 0, 0, 0, 10, 6, 0, 7, 256⟩
/-- `KLN_STATUS.overdue` (R503). -/
def KLN_STATUS_overdue : Fld := ⟨0x10000000, 0xf007000010, 0, 0, 0, 16, 16, 0, 7, 256⟩
/-- `KLN_STATUS.incomplete` (R503). -/
def KLN_STATUS_incomplete : Fld := ⟨0x10000000, 0xf007000010, 0, 0, 0, 32, 16, 0, 7, 0⟩
/-- `KLN_STATUS.refused` (R503). -/
def KLN_STATUS_refused : Fld := ⟨0x10000000, 0xf007000010, 0, 0, 0, 48, 16, 0, 7, 1⟩
/-- `KLN_RES.verdict` (R503). -/
def KLN_RES_verdict : Fld := ⟨0x10000000, 0xf007001000, 0, 16, 0, 0, 3, 0, 7, 256⟩
/-- `KLN_RES.segment` (R503). -/
def KLN_RES_segment : Fld := ⟨0x10000000, 0xf007001000, 0, 16, 0, 3, 5, 0, 7, 256⟩
/-- `KLN_RES.patterns` (R503). -/
def KLN_RES_patterns : Fld := ⟨0x10000000, 0xf007001000, 0, 16, 0, 8, 8, 0, 7, 256⟩
/-- `KLN_RES.restore_err` (R503). -/
def KLN_RES_restore_err : Fld := ⟨0x10000000, 0xf007001000, 0, 16, 0, 16, 1, 0, 7, 256⟩
/-- `KLN_RES.age_min` (R503). -/
def KLN_RES_age_min : Fld := ⟨0x10000000, 0xf007001000, 0, 16, 0, 17, 12, 0, 7, 256⟩
/-- `KLN_RES.overdue` (R503). -/
def KLN_RES_overdue : Fld := ⟨0x10000000, 0xf007001000, 0, 16, 0, 29, 1, 0, 7, 256⟩
/-- `KLN_RES.failed` (R503). -/
def KLN_RES_failed : Fld := ⟨0x10000000, 0xf007001000, 0, 16, 0, 30, 1, 0, 7, 256⟩
/-- `KLN_SIG.sig` (R503). -/
def KLN_SIG_sig : Fld := ⟨0x10000000, 0xf007001008, 0, 16, 0, 0, 64, 0, 7, 256⟩
/-- `LDG_CFG.drain_us` (R504). -/
def LDG_CFG_drain_us : Fld := ⟨0x10000000, 0xf00b000000, 0, 0, 0, 0, 10, 100, 11, 256⟩
/-- `LDG_STATUS.auditing` (R504). -/
def LDG_STATUS_auditing : Fld := ⟨0x10000000, 0xf00b000008, 0, 0, 0, 0, 1, 0, 11, 256⟩
/-- `LDG_STATUS.resyncing` (R504). -/
def LDG_STATUS_resyncing : Fld := ⟨0x10000000, 0xf00b000008, 0, 0, 0, 1, 1, 0, 11, 256⟩
/-- `LDG_STATUS.tmr_uncorr` (R504). -/
def LDG_STATUS_tmr_uncorr : Fld := ⟨0x10000000, 0xf00b000008, 0, 0, 0, 2, 1, 0, 11, 256⟩
/-- `LDG_STATUS.tmr_corrected` (R504). -/
def LDG_STATUS_tmr_corrected : Fld := ⟨0x10000000, 0xf00b000008, 0, 0, 0, 3, 16, 0, 11, 0⟩
/-- `LDG_STATUS.mismatches` (R504). -/
def LDG_STATUS_mismatches : Fld := ⟨0x10000000, 0xf00b000008, 0, 0, 0, 19, 16, 0, 11, 1⟩
/-- `LDG_AUDIT.ns` (R504). -/
def LDG_AUDIT_ns : Fld := ⟨0x10000000, 0xf00b000010, 0, 0, 0, 0, 32, 0, 11, 256⟩
/-- `LDG_AUDIT.sec` (R504). -/
def LDG_AUDIT_sec : Fld := ⟨0x10000000, 0xf00b000010, 0, 0, 0, 32, 32, 0, 11, 256⟩
/-- `LDG_MISMATCH.kind` (R504). -/
def LDG_MISMATCH_kind : Fld := ⟨0x10000000, 0xf00b000018, 0, 0, 0, 0, 3, 0, 11, 256⟩
/-- `LDG_MISMATCH.instance` (R504). -/
def LDG_MISMATCH_instance : Fld := ⟨0x10000000, 0xf00b000018, 0, 0, 0, 3, 12, 0, 11, 256⟩
/-- `LDG_MISMATCH.diff` (R504). -/
def LDG_MISMATCH_diff : Fld := ⟨0x10000000, 0xf00b000018, 0, 0, 0, 15, 32, 0, 11, 256⟩
/-- `LDG_POOL_ISS.count` (R504). -/
def LDG_POOL_ISS_count : Fld := ⟨0x10000000, 0xf00b000100, 0, 32, 0, 0, 64, 0, 11, 256⟩
/-- `LDG_POOL_RET.count` (R504). -/
def LDG_POOL_RET_count : Fld := ⟨0x10000000, 0xf00b000108, 0, 32, 0, 0, 64, 0, 11, 256⟩
/-- `LDG_POOL_OUT.count` (R504). -/
def LDG_POOL_OUT_count : Fld := ⟨0x10000000, 0xf00b000110, 0, 32, 0, 0, 64, 0, 11, 256⟩
/-- `LDG_POOL_HELD.count` (R504). -/
def LDG_POOL_HELD_count : Fld := ⟨0x10000000, 0xf00b000118, 0, 32, 0, 0, 32, 0, 11, 256⟩
/-- `PWR_STATUS.ember` (R521). -/
def PWR_STATUS_ember : Fld := ⟨0x10000000, 0xf00d000000, 0, 0, 0, 0, 2, 0, 13, 256⟩
/-- `PWR_STATUS.hold_ok` (R521). -/
def PWR_STATUS_hold_ok : Fld := ⟨0x10000000, 0xf00d000000, 0, 0, 0, 2, 1, 0, 13, 256⟩
/-- `PWR_STATUS.vhold_mv` (R521). -/
def PWR_STATUS_vhold_mv : Fld := ⟨0x10000000, 0xf00d000000, 0, 0, 0, 3, 14, 0, 13, 256⟩
/-- `PWR_STATUS.charging` (R521). -/
def PWR_STATUS_charging : Fld := ⟨0x10000000, 0xf00d000000, 0, 0, 0, 17, 1, 0, 13, 256⟩
/-- `PWR_STATUS.sag_pin` (R521). -/
def PWR_STATUS_sag_pin : Fld := ⟨0x10000000, 0xf00d000000, 0, 0, 0, 18, 1, 0, 13, 256⟩
/-- `PWR_STATUS.retention_lost` (R521). -/
def PWR_STATUS_retention_lost : Fld := ⟨0x10000000, 0xf00d000000, 0, 0, 0, 19, 1, 0, 13, 256⟩
/-- `PWR_STATUS.sags` (R521). -/
def PWR_STATUS_sags : Fld := ⟨0x10000000, 0xf00d000000, 0, 0, 0, 20, 16, 0, 13, 0⟩
/-- `PWR_HOLD.chg_en` (R521). -/
def PWR_HOLD_chg_en : Fld := ⟨0x0, 0xf00d000008, 0, 0, 0, 0, 1, 1, 13, 256⟩
/-- `PWR_HOLD.chg_ma` (R521). -/
def PWR_HOLD_chg_ma : Fld := ⟨0x0, 0xf00d000008, 0, 0, 0, 1, 10, 400, 13, 256⟩
/-- `PWR_HOLD.cap_test` (R521). -/
def PWR_HOLD_cap_test : Fld := ⟨0x0, 0xf00d000008, 0, 0, 0, 11, 1, 1, 13, 256⟩
/-- `PWR_HOLD.test_go` (R521). -/
def PWR_HOLD_test_go : Fld := ⟨0x0, 0xf00d000008, 0, 0, 0, 12, 1, 0, 13, 256⟩
/-- `PWR_HOLD.cap_uf` (R521). -/
def PWR_HOLD_cap_uf : Fld := ⟨0x0, 0xf00d000008, 0, 0, 0, 13, 14, 0, 13, 256⟩
/-- `PWR_EMBER.seq` (R521). -/
def PWR_EMBER_seq : Fld := ⟨0x10000000, 0xf00d000010, 0, 0, 0, 0, 32, 0, 13, 256⟩
/-- `PWR_EMBER.us` (R521). -/
def PWR_EMBER_us : Fld := ⟨0x10000000, 0xf00d000010, 0, 0, 0, 32, 12, 0, 13, 256⟩
/-- `PWR_EMBER.complete` (R521). -/
def PWR_EMBER_complete : Fld := ⟨0x10000000, 0xf00d000010, 0, 0, 0, 44, 1, 0, 13, 256⟩
/-- `PWR_EMBER.resumed` (R521). -/
def PWR_EMBER_resumed : Fld := ⟨0x10000000, 0xf00d000010, 0, 0, 0, 45, 1, 0, 13, 256⟩
/-- `PWR_GATE.pack_off` (R521). -/
def PWR_GATE_pack_off : Fld := ⟨0x10000000, 0xf00d000018, 0, 0, 0, 0, 8, 0, 13, 256⟩
/-- `PWR_GATE.lane_off` (R521). -/
def PWR_GATE_lane_off : Fld := ⟨0x10000000, 0xf00d000018, 0, 0, 0, 8, 8, 0, 13, 256⟩
/-- `PWR_GATE.row_off` (R521). -/
def PWR_GATE_row_off : Fld := ⟨0x10000000, 0xf00d000018, 0, 0, 0, 16, 36, 0, 13, 256⟩
/-- `PWR_GATE.hbm_sr` (R521). -/
def PWR_GATE_hbm_sr : Fld := ⟨0x10000000, 0xf00d000018, 0, 0, 0, 52, 2, 0, 13, 256⟩
/-- `PWR_RAIL.mv` (R521). -/
def PWR_RAIL_mv : Fld := ⟨0x10000000, 0xf00d000100, 0, 8, 0, 0, 11, 0, 13, 256⟩
/-- `PWR_RAIL.valid` (R521). -/
def PWR_RAIL_valid : Fld := ⟨0x10000000, 0xf00d000100, 0, 8, 0, 11, 1, 0, 13, 256⟩
/-- `PWR_RAIL.excursions` (R521). -/
def PWR_RAIL_excursions : Fld := ⟨0x10000000, 0xf00d000100, 0, 8, 0, 12, 16, 0, 13, 1⟩
/-- `EVT_TR_CFG.sink` (R551). -/
def EVT_TR_CFG_sink : Fld := ⟨0x10000000, 0xf008000000, 0, 0, 0, 0, 3, 0, 8, 256⟩
/-- `EVT_TR_CFG.fwd_die` (R551). -/
def EVT_TR_CFG_fwd_die : Fld := ⟨0x10000000, 0xf008000000, 0, 0, 0, 3, 2, 0, 8, 256⟩
/-- `EVT_TR_CFG.link` (R551). -/
def EVT_TR_CFG_link : Fld := ⟨0x10000000, 0xf008000000, 0, 0, 0, 5, 3, 0, 8, 256⟩
/-- `EVT_TR_CFG.src_fault` (R551). -/
def EVT_TR_CFG_src_fault : Fld := ⟨0x10000000, 0xf008000000, 0, 0, 0, 8, 1, 1, 8, 256⟩
/-- `EVT_TR_CFG.fault_min` (R551). -/
def EVT_TR_CFG_fault_min : Fld := ⟨0x10000000, 0xf008000000, 0, 0, 0, 9, 2, 1, 8, 256⟩
/-- `EVT_TR_CFG.src_ken` (R551). -/
def EVT_TR_CFG_src_ken : Fld := ⟨0x10000000, 0xf008000000, 0, 0, 0, 11, 1, 0, 8, 256⟩
/-- `EVT_TR_CFG.src_snap` (R551). -/
def EVT_TR_CFG_src_snap : Fld := ⟨0x10000000, 0xf008000000, 0, 0, 0, 12, 1, 0, 8, 256⟩
/-- `EVT_TR_CFG.src_stim` (R551). -/
def EVT_TR_CFG_src_stim : Fld := ⟨0x10000000, 0xf008000000, 0, 0, 0, 13, 1, 0, 8, 256⟩
/-- `EVT_TR_CFG.sync_ms` (R551). -/
def EVT_TR_CFG_sync_ms : Fld := ⟨0x10000000, 0xf008000000, 0, 0, 0, 14, 10, 100, 8, 256⟩
/-- `EVT_TR_STAT.fifo_level` (R551). -/
def EVT_TR_STAT_fifo_level : Fld := ⟨0x10000000, 0xf008000008, 0, 0, 0, 0, 10, 0, 8, 256⟩
/-- `EVT_TR_STAT.buf_full` (R551). -/
def EVT_TR_STAT_buf_full : Fld := ⟨0x10000000, 0xf008000008, 0, 0, 0, 10, 1, 0, 8, 256⟩
/-- `EVT_TR_STAT.wrapped` (R551). -/
def EVT_TR_STAT_wrapped : Fld := ⟨0x10000000, 0xf008000008, 0, 0, 0, 11, 1, 0, 8, 256⟩
/-- `EVT_TR_STAT.tseq` (R551). -/
def EVT_TR_STAT_tseq : Fld := ⟨0x10000000, 0xf008000008, 0, 0, 0, 12, 32, 0, 8, 256⟩
/-- `EVT_TR_DROP.fault` (R551). -/
def EVT_TR_DROP_fault : Fld := ⟨0x10000000, 0xf008000010, 0, 0, 0, 0, 16, 0, 8, 0⟩
/-- `EVT_TR_DROP.kennel` (R551). -/
def EVT_TR_DROP_kennel : Fld := ⟨0x10000000, 0xf008000010, 0, 0, 0, 16, 16, 0, 8, 1⟩
/-- `EVT_TR_DROP.snapshot` (R551). -/
def EVT_TR_DROP_snapshot : Fld := ⟨0x10000000, 0xf008000010, 0, 0, 0, 32, 16, 0, 8, 2⟩
/-- `EVT_TR_DROP.stimulus` (R551). -/
def EVT_TR_DROP_stimulus : Fld := ⟨0x10000000, 0xf008000010, 0, 0, 0, 48, 16, 0, 8, 3⟩
/-- `EVT_TR_BUF.stack` (R551). -/
def EVT_TR_BUF_stack : Fld := ⟨0x10000000, 0xf008000018, 0, 0, 0, 0, 1, 0, 8, 256⟩
/-- `EVT_TR_BUF.base` (R551). -/
def EVT_TR_BUF_base : Fld := ⟨0x10000000, 0xf008000018, 0, 0, 0, 1, 14, 0, 8, 256⟩
/-- `EVT_TR_BUF.size` (R551). -/
def EVT_TR_BUF_size : Fld := ⟨0x10000000, 0xf008000018, 0, 0, 0, 15, 12, 1, 8, 256⟩
/-- `EVT_TR_BUF.stop_full` (R551). -/
def EVT_TR_BUF_stop_full : Fld := ⟨0x10000000, 0xf008000018, 0, 0, 0, 27, 1, 0, 8, 256⟩
/-- `EVT_TR_WPTR.wptr` (R551). -/
def EVT_TR_WPTR_wptr : Fld := ⟨0x10000000, 0xf008000020, 0, 0, 0, 0, 36, 0, 8, 256⟩
/-- `EVT_SNAP.snap_mode` (R551). -/
def EVT_SNAP_snap_mode : Fld := ⟨0x10000000, 0xf008000028, 0, 0, 0, 0, 2, 0, 8, 256⟩
/-- `EVT_SNAP.snap_us` (R551). -/
def EVT_SNAP_snap_us : Fld := ⟨0x10000000, 0xf008000028, 0, 0, 0, 2, 20, 1000, 8, 256⟩
/-- `EVT_SNAP.cg` (R551). -/
def EVT_SNAP_cg : Fld := ⟨0x10000000, 0xf008000028, 0, 0, 0, 22, 8, 0, 8, 256⟩
/-- `EVT_SNAP.event` (R551). -/
def EVT_SNAP_event : Fld := ⟨0x10000000, 0xf008000028, 0, 0, 0, 30, 3, 0, 8, 256⟩
/-- `EVT_TR_DATA.bytes` (R551). -/
def EVT_TR_DATA_bytes : Fld := ⟨0x10000000, 0xf008000100, 0, 8, 0, 0, 64, 0, 8, 256⟩
/-- `EVT_TR_POP.pop` (R551). -/
def EVT_TR_POP_pop : Fld := ⟨0x10000000, 0xf008000140, 0, 0, 0, 0, 1, 0, 8, 256⟩
/-- `EVT_SEL.source` (R551). -/
def EVT_SEL_source : Fld := ⟨0x10000000, 0xf008001000, 0, 16, 0, 0, 12, 0, 8, 256⟩
/-- `EVT_SEL.inst` (R551). -/
def EVT_SEL_inst : Fld := ⟨0x10000000, 0xf008001000, 0, 16, 0, 12, 12, 0, 8, 256⟩
/-- `EVT_SEL.inst_all` (R551). -/
def EVT_SEL_inst_all : Fld := ⟨0x10000000, 0xf008001000, 0, 16, 0, 24, 1, 1, 8, 256⟩
/-- `EVT_SEL.gate_en` (R551). -/
def EVT_SEL_gate_en : Fld := ⟨0x10000000, 0xf008001000, 0, 16, 0, 25, 1, 0, 8, 256⟩
/-- `EVT_SEL.cg` (R551). -/
def EVT_SEL_cg : Fld := ⟨0x10000000, 0xf008001000, 0, 16, 0, 26, 8, 0, 8, 256⟩
/-- `EVT_SEL.line_first` (R551). -/
def EVT_SEL_line_first : Fld := ⟨0x10000000, 0xf008001000, 0, 16, 0, 34, 13, 1, 8, 256⟩
/-- `EVT_SEL.line_last` (R551). -/
def EVT_SEL_line_last : Fld := ⟨0x10000000, 0xf008001000, 0, 16, 0, 47, 13, 1, 8, 256⟩
/-- `EVT_SEL.snap` (R551). -/
def EVT_SEL_snap : Fld := ⟨0x10000000, 0xf008001000, 0, 16, 0, 60, 1, 0, 8, 256⟩
/-- `EVT_SEL.ovf` (R551). -/
def EVT_SEL_ovf : Fld := ⟨0x10000000, 0xf008001000, 0, 16, 0, 61, 1, 0, 8, 256⟩
/-- `EVT_SEL.enable` (R551). -/
def EVT_SEL_enable : Fld := ⟨0x10000000, 0xf008001000, 0, 16, 0, 62, 1, 0, 8, 256⟩
/-- `EVT_CNT.count` (R551). -/
def EVT_CNT_count : Fld := ⟨0x10000000, 0xf008001008, 0, 16, 0, 0, 64, 0, 8, 256⟩
/-- `FAB_EVT_SEL.source` (R552). -/
def FAB_EVT_SEL_source : Fld := ⟨0x1000000, 0xf400030000, 0, 16, 0, 0, 6, 0, 16, 256⟩
/-- `FAB_EVT_SEL.ev_clk` (R552). -/
def FAB_EVT_SEL_ev_clk : Fld := ⟨0x1000000, 0xf400030000, 0, 16, 0, 6, 5, 0, 16, 256⟩
/-- `FAB_EVT_SEL.inst` (R552). -/
def FAB_EVT_SEL_inst : Fld := ⟨0x1000000, 0xf400030000, 0, 16, 0, 11, 6, 0, 16, 256⟩
/-- `FAB_EVT_SEL.snap` (R552). -/
def FAB_EVT_SEL_snap : Fld := ⟨0x1000000, 0xf400030000, 0, 16, 0, 17, 1, 0, 16, 256⟩
/-- `FAB_EVT_SEL.ovf` (R552). -/
def FAB_EVT_SEL_ovf : Fld := ⟨0x1000000, 0xf400030000, 0, 16, 0, 18, 1, 0, 16, 256⟩
/-- `FAB_EVT_SEL.enable` (R552). -/
def FAB_EVT_SEL_enable : Fld := ⟨0x1000000, 0xf400030000, 0, 16, 0, 19, 1, 0, 16, 256⟩
/-- `FAB_EVT_CNT.count` (R552). -/
def FAB_EVT_CNT_count : Fld := ⟨0x1000000, 0xf400030008, 0, 16, 0, 0, 64, 0, 16, 256⟩
/-- `FAB_STIM.en` (R552). -/
def FAB_STIM_en : Fld := ⟨0x1000000, 0xf400031000, 0, 8, 0, 0, 32, 0, 16, 256⟩
/-- `FAB_STIM.stim_drop` (R552). -/
def FAB_STIM_stim_drop : Fld := ⟨0x1000000, 0xf400031000, 0, 8, 0, 32, 16, 0, 16, 256⟩
/-- `FAB_STIM.st_clk` (R552). -/
def FAB_STIM_st_clk : Fld := ⟨0x1000000, 0xf400031000, 0, 8, 0, 48, 5, 0, 16, 256⟩
/-- `LSH_CFG.port_en` (R553). -/
def LSH_CFG_port_en : Fld := ⟨0x10000000, 0xf00e000000, 0, 0, 0, 0, 1, 1, 14, 256⟩
/-- `LSH_CFG.idle_s` (R553). -/
def LSH_CFG_idle_s : Fld := ⟨0x10000000, 0xf00e000000, 0, 0, 0, 1, 12, 60, 14, 256⟩
/-- `LSH_STAT.rights` (R553). -/
def LSH_STAT_rights : Fld := ⟨0x10000000, 0xf00e000008, 0, 0, 0, 0, 2, 0, 14, 256⟩
/-- `LSH_STAT.method` (R553). -/
def LSH_STAT_method : Fld := ⟨0x10000000, 0xf00e000008, 0, 0, 0, 2, 1, 0, 14, 256⟩
/-- `LSH_STAT.owner_slot` (R553). -/
def LSH_STAT_owner_slot : Fld := ⟨0x10000000, 0xf00e000008, 0, 0, 0, 3, 2, 0, 14, 256⟩
/-- `LSH_STAT.ctl_held` (R553). -/
def LSH_STAT_ctl_held : Fld := ⟨0x10000000, 0xf00e000008, 0, 0, 0, 5, 1, 0, 14, 256⟩
/-- `LSH_STAT.unlock_fail` (R553). -/
def LSH_STAT_unlock_fail : Fld := ⟨0x10000000, 0xf00e000008, 0, 0, 0, 6, 16, 0, 14, 0⟩
/-- `LSH_STAT.lockout_s` (R553). -/
def LSH_STAT_lockout_s : Fld := ⟨0x10000000, 0xf00e000008, 0, 0, 0, 22, 7, 0, 14, 256⟩
/-- `LSH_STAT.parity_err` (R553). -/
def LSH_STAT_parity_err : Fld := ⟨0x10000000, 0xf00e000008, 0, 0, 0, 29, 16, 0, 14, 1⟩
/-- `LSH_STAT.bad_pkts` (R553). -/
def LSH_STAT_bad_pkts : Fld := ⟨0x10000000, 0xf00e000008, 0, 0, 0, 45, 16, 0, 14, 2⟩
/-- `LSH_EXC.exc` (R553). -/
def LSH_EXC_exc : Fld := ⟨0x10000000, 0xf00e000100, 0, 8, 0, 0, 64, 0, 14, 256⟩
/-- `PWR_TEMP.temp` (R571). -/
def PWR_TEMP_temp : Fld := ⟨0x10000000, 0xf00d000200, 0, 8, 0, 0, 11, 0, 13, 256⟩
/-- `PWR_TEMP.valid` (R571). -/
def PWR_TEMP_valid : Fld := ⟨0x10000000, 0xf00d000200, 0, 8, 0, 11, 1, 0, 13, 256⟩
/-- `PWR_TEMP.peak` (R571). -/
def PWR_TEMP_peak : Fld := ⟨0x10000000, 0xf00d000200, 0, 8, 0, 12, 11, 0, 13, 256⟩

end F

end Sys2Proof.Machine
end

