-- ==== Sys2Proof/Machine/Tbl.lean ====
section
/-! DEFINITION. Sparse tables: sorted lists of (key, value) pairs in one canonical form. Registers, memories and every other
numbered resource of the device are held in them. -/

namespace Sys2Proof.Machine

/-- A sparse table. Keys rise strictly; an unlisted key holds the default value that its reader names. -/
abbrev Tbl (α : Type) := List (Nat × α)

/-- The value at key `k`, `d` where none is listed. -/
def Tbl.get {α : Type} (d : α) : Tbl α → Nat → α
  | [], _ => d
  | (k', v) :: r, k => if k = k' then v else Tbl.get d r k

/-- The table without key `k`. -/
def Tbl.del {α : Type} : Tbl α → Nat → Tbl α
  | [], _ => []
  | (k', v) :: r, k => if k = k' then Tbl.del r k else (k', v) :: Tbl.del r k

/-- The table with `v` at key `k`, in its sorted place. -/
def Tbl.put {α : Type} : Tbl α → Nat → α → Tbl α
  | [], k, v => [(k, v)]
  | (k', v') :: r, k, v =>
    if k < k' then (k, v) :: (k', v') :: r
    else if k = k' then (k, v) :: r
    else (k', v') :: Tbl.put r k v

/-- Write `v` at `k`; writing the default removes the entry, so that equal contents are equal tables. -/
def Tbl.set {α : Type} [DecidableEq α] (d : α) (t : Tbl α) (k : Nat) (v : α) : Tbl α :=
  if v = d then t.del k else t.put k v

/-- Keys rise strictly, all above `lo`. -/
def Tbl.sortedFrom {α : Type} : Option Nat → Tbl α → Bool
  | _, [] => true
  | lo, (k, _) :: r => (match lo with | none => true | some l => decide (l < k)) && Tbl.sortedFrom (some k) r

/-- The canonical order of keys. -/
def Tbl.sorted {α : Type} (t : Tbl α) : Bool := Tbl.sortedFrom none t

/-- The canonical form of a table whose unlisted keys hold `d`: keys rise strictly and no entry holds `d`. -/
def Tbl.wf {α : Type} [DecidableEq α] (d : α) (t : Tbl α) : Bool :=
  t.sorted && t.all (fun e => decide (e.2 ≠ d))

/-- Change the value at `k` by a function. -/
def Tbl.modify {α : Type} [DecidableEq α] (d : α) (t : Tbl α) (k : Nat) (f : α → α) : Tbl α :=
  t.set d k (f (t.get d k))

end Sys2Proof.Machine
end

