-- ==== Sys2Proof/Machine/State.lean ====
section
/-! DEFINITION. The state of the device: plain data, every piece of state the spec names, and State.reset. Log entries: DEDUCED 51, 57, 63, 69, 77, 97; DESIGN CHOICE 2, 6, 7, 8, 10, 61, 95, 96. -/

namespace Sys2Proof.Machine

/-- The eight operating modes (R13). -/
inductive Mode where
  | cold | load | rehearse | onair | bench | repair | ember | safe
  deriving DecidableEq, Repr

/-- Encoding of R83. -/
def Mode.code : Mode → Nat
  | .cold => 0 | .load => 1 | .rehearse => 2 | .onair => 3 | .bench => 4 | .repair => 5 | .ember => 6 | .safe => 7

/-- The mode of an encoding; the field is three bits wide. -/
def Mode.ofCode : Nat → Mode
  | 0 => .cold | 1 => .load | 2 => .rehearse | 3 => .onair | 4 => .bench | 5 => .repair | 6 => .ember | _ => .safe

/-- Response codes of R14. -/
inductive Resp where
  | done | fault | noroute | timeout | poison | keyoff | domoff | reject
  deriving DecidableEq, Repr

/-- Encoding of R14. -/
def Resp.code : Resp → Nat
  | .done => 0 | .fault => 1 | .noroute => 2 | .timeout => 3 | .poison => 4 | .keyoff => 5 | .domoff => 6 | .reject => 7

/-- A fault record (R475), with what R480 to R482 keep beside its 32 bytes: the start-up since which its `seq` counts, whether its handling needs REPAIR (R486), its
stage of handling, and the resources it needs. -/
structure FltRec where
  sec : Nat
  ns : Nat
  seq : Nat
  era : Nat
  die : Nat
  block : Nat
  inst : Nat
  sub : Nat
  cls : Nat
  sev : Nat
  action : Nat
  openR : Bool
  merged : Bool
  preempted : Bool
  unresolved : Bool
  count : Nat
  fn : Nat
  detail : Nat
  repair : Bool
  stage : Nat
  res : List Nat
  deriving DecidableEq, Repr

/-- LOG_NOTIFY setting of a function (R463): vector, lowest severity. -/
structure Notify where
  vec : Nat
  sev : Nat
  deriving DecidableEq, Repr

/-- The record ring (R480): `ring` holds the records by entry number 0 to 255; keys from 256 hold handlings whose record could
not be stored (R484). `era` counts start-ups, since `seq` starts again at each; `readPos` is each function's read position in order of era and `seq` (R463). -/
structure FltSt where
  ring : Tbl (Option FltRec)
  era : Nat
  readPos : Tbl Nat
  notify : Tbl (Option Notify)
  rejected : Tbl Bool
  deriving DecidableEq, Repr

/-- A trace packet (R528): type, die, source, sequence number, time and payload words of R529. -/
structure TracePkt where
  ptype : Nat
  die : Nat
  src : Nat
  tseq : Nat
  sec : Nat
  ns : Nat
  payload : List Nat
  deriving DecidableEq, Repr

/-- Observation state of chapter 19 that no register holds: trace FIFOs by base die (R527), drops since the last loss packet for
source orders 1, 3, 4 and 5 (R530) by die × 4 + k, the counters that count (die × 256 + n of `EVT_SEL.enable`), the fabric
counters that count (die × 32 + n), and the stimulus FIFOs of fabric sections (R533) by die × 8 + section: port, value, seconds, ns. -/
structure ObsSt where
  fifo : Tbl (List TracePkt)
  dropped : Tbl Nat
  evtOn : List Nat
  fabEvtOn : List Nat
  stim : Tbl (List (Nat × Nat × Nat × Nat))
  deriving DecidableEq, Repr

/-- Clocks and reset state: whether REFCLK_ROOT is in limits, whether it has been declared lost, and for base dies (0 to 3) and
fabric dies (4 to 15, as R476 numbers them) whether the clock is lost, the die is in reset, or has failed; a domain's closing mark
lives with `closing` here (R224); whether the device is held in device reset (R82), and whether start-up has stopped for want of a rail (R511). -/
structure ClkSt where
  refOk : Bool
  refLost : Bool
  clockLost : List Nat
  inReset : List Nat
  failed : List Nat
  closing : List Nat
  held : Bool
  stopped : Bool
  deriving DecidableEq, Repr

/-- Half a PTP exchange that waits for its partner (R47). -/
inductive PtpHalf where
  | sync | followUp | delayReq | delayResp
  deriving DecidableEq, Repr

/-- A message that waits for its partner: which half has come, its sequence id, and the offset it measured in 2^-16 ns. -/
structure PtpWait where
  half : PtpHalf
  seqId : Nat
  offset : Int
  deriving DecidableEq, Repr

/-- House-time state that no register holds: deviation of each die's copy from the reference copy in 2^-40 ns (key: die code of R476), the
ROOT cycle after each copy's last reload, dies whose generators take the reference copy until Kiln has tested their counter (R44), first acquisition (R51), the run of updates
inside `lock_thresh` (R50), the outliers in a row that lie within 1 µs of one another (R47), rejected PPS edges in a row (R52), valid updates of a lost
primary in a row (R52), the last averaged rate, whether HT_PPS_SEC was written since the last edge (R48), the whole second the last
edge marked, messages that wait for a partner, the selected master's port (R47), whether TIME_10M is in limits, whether the servo runs, and generators (die × 64 + n) whose committed program waits for its first frame start (R57). -/
structure HtSt where
  dev : Tbl Int
  reloadAt : Tbl Nat
  refTimed : List Nat
  firstAcq : Bool
  goodRun : Nat
  outs : List Int
  ppsRejRun : Nat
  primaryRun : Nat
  avgRate : Nat
  ppsSecSet : Bool
  lastSec : Nat
  waits : List PtpWait
  master : Option Nat
  tenMOk : Bool
  waiting : List Nat
  servoOn : Bool
  deriving DecidableEq, Repr

/-- The fuses (R103, R451, R554, R1): values blown once; survivors of every reset. -/
structure FuseSt where
  deviceSn : Nat
  aesKey : List Nat
  aesRevoke : Nat
  bbkAllowed : Bool
  sigRequired : Bool
  ownerRevoke : Nat
  chainLanes : Nat
  chainOutOff : Bool
  chainIn : Bool
  ownerHash : List Nat
  svnFuse : Nat
  hostaSplit : Bool
  hostbEn : Bool
  bmcSafe : Bool
  bmcAddr : Nat
  kekSeed : Nat
  fwSvn : Nat
  leashPassHash : Nat
  leashPassOff : Bool
  leashCtlOff : Bool
  grade : Nat
  temp : Nat
  lid : Nat
  spareMap : List (Nat × Nat)
  deriving DecidableEq, Repr

/-- The battery domain (R100): the key, and whether TAMPER_N has zeroised it. -/
structure BbkSt where
  key : Option Nat
  tamperLow : Bool
  deriving DecidableEq, Repr

/-- One copy of the slot directory (R105): its sequence number, the valid bits, svn and lengths of both slots, and `boot_pref`. -/
structure SlotDir where
  seq : Nat
  good : Bool
  valid0 : Bool
  valid1 : Bool
  svn0 : Nat
  svn1 : Nat
  len0 : Nat
  len1 : Nat
  bootPref : Nat
  deriving DecidableEq, Repr

/-- The peat store (R104 to R107): its logical space as 64-bit words by word index, the two directory copies, units with an
uncorrectable error (4 KiB unit numbers), the journal and Ember records by their own fields below, and firmware banks' versions. -/
structure PeatSt where
  words : Tbl Nat
  dirA : SlotDir
  dirB : SlotDir
  badUnits : List Nat
  deriving DecidableEq, Repr

/-- A stream header's fields (R87), and the digest of the stream as it arrived (R467). -/
structure Hdr where
  kind : Nat
  grade : Nat
  startMode : Nat
  signed : Bool
  keySrc : Nat
  svn : Nat
  targetSn : Nat
  chainRemaining : Nat
  bodyLen : Nat
  buildId : Nat
  userId : Nat
  rDie : Nat
  rRow0 : Nat
  rRow1 : Nat
  rCol : Nat
  rWidth : Nat
  ownerPub : Nat
  digest : Nat
  deriving DecidableEq, Repr

/-- Which path a stream arrived on (R88 check 6, R112): start-up, a host full load, a transaction, or a check of stored bytes. -/
inductive Path where
  | none | startup | hostLoad | txn (t : Nat)
  deriving DecidableEq, Repr

/-- What a transaction or an image has staged: field values by field key, the registers staged (in order), frames written, and block
RAM contents by MEMINIT address (R95). -/
structure Staged where
  vals : Tbl Nat
  regs : List (Reg × Ix)
  frames : List Nat
  mems : Tbl (List Nat)
  deriving DecidableEq, Repr

/-- A body error found while parsing (R112): code, byte offset, frame address, detail. -/
structure BodyErr where
  code : Nat
  offset : Nat
  frame : Nat
  detail : Nat
  deriving DecidableEq, Repr

/-- Placement of a region image (R139, R140): target die, region, first column, first block RAM ordinal, whether its home is vacated. -/
structure Place where
  die : Nat
  rgn : Nat
  col : Nat
  bram : Nat
  vacate : Bool
  deriving DecidableEq, Repr

/-- The configuration controller (R86): the stream in progress, its header, position, frames written, the packets' first error, whether
END has been parsed, its placement, the fabric die whose internal port is its source, whether a second
start-up attempt is under way (R68), the placement asked for, the function and command it answers, the extra bytes already recorded, the running image's svn, slot and start mode, and
whether that image has reached its start mode (R101). -/
structure CfgSt where
  path : Path
  hdr : Hdr
  pos : Nat
  frames : Nat
  err : Option BodyErr
  ended : Bool
  place : Place
  icp : Option Nat
  req : Option PlaceReq
  img : Staged
  retried : Bool
  fn : Nat
  cmd : Option HostCmd
  runSvn : Nat
  runSlot : Option Nat
  runStart : Nat
  reached : Bool
  deriving DecidableEq, Repr

/-- A MODE_SET that waits for its trigger (R61, R579): the mode, the house time of the trigger in 2^-40 ns, the trigger, the command to answer, unless its function's rings have been reset (R455). -/
structure ModeWait where
  mode : Mode
  time : Nat
  trig : Trigger
  cmd : Option HostCmd
  deriving DecidableEq, Repr

/-- What a transaction holds beside `HRT_TXN_STAT` and `HRT_TXN_AT` (R123 to R132): staged values and frames, the armed trigger, the
status its next command returns, whether it is a default transaction, the state a stream came from, the placements of its region
images with their build_id, and `txn_timeout` in ms. -/
structure TxnSt where
  staged : Staged
  trig : Option Trigger
  next : Option Nat
  dflt : Bool
  from_ : Nat
  places : List (Place × Hdr)
  timeout : Nat
  deriving DecidableEq, Repr

/-- Planes, transactions, regions and internal ports: frame contents of both planes by frame address (an unlisted frame is
unconfigured), frames awaiting restore and resync, transactions 0 to 15, block RAM contents (MEMINIT address) and deep RAM contents,
internal-port transactions by fabric die, frames that scrub corrected with the ROOT cycle (R144), frames awaiting rebuild (frame × 2 + plane, R145),
the MODE_SET that waits for its trigger, whether the active plane holds a committed image, measurements 3 and 5 (R467), and dies that a commit
waits to be applied on at their return (R122). -/
structure PlaneSt where
  active : Tbl (List Nat)
  shadow : Tbl (List Nat)
  stale : List Nat
  resync : List Nat
  txn : Tbl TxnSt
  bram : Tbl (List Nat)
  deep : Tbl Nat
  icpTxn : Tbl (Option Nat)
  corrected : Tbl Nat
  rebuild : List Nat
  modeWait : Option ModeWait
  image : Bool
  m3 : Nat
  m5 : Nat
  rejoin : List Nat
  deriving DecidableEq, Repr

/-- Staged nothing. -/
def Staged.empty : Staged := { vals := [], regs := [], frames := [], mems := [] }

/-- A transaction number that holds nothing. -/
def TxnSt.empty : TxnSt :=
  { staged := Staged.empty, trig := none, next := none, dflt := false, from_ := 0, places := [], timeout := 0 }

/-- No header. -/
def Hdr.empty : Hdr :=
  { kind := 0, grade := 0, startMode := 0, signed := false, keySrc := 0, svn := 0, targetSn := 0, chainRemaining := 0, bodyLen := 0,
    buildId := 0, userId := 0, rDie := 0, rRow0 := 0, rRow1 := 0, rCol := 0, rWidth := 0, ownerPub := 0, digest := 0 }

/-- A blank directory copy. -/
def SlotDir.blank : SlotDir :=
  { seq := 0, good := true, valid0 := false, valid1 := false, svn0 := 0, svn1 := 0, len0 := 0, len1 := 0, bootPref := 0 }

/-- Repairs of one crossing bundle (R195, R196): wires (0 to 31, 32 and 33 the spares, 34 the check wire) that a spare has taken over,
and whether it runs in the repair pool. -/
structure BundleSt where
  taken : List Nat
  pooled : Bool
  deriving DecidableEq, Repr

/-- Fabric state that no register holds: ungated global nets (die × 32 + n, R161), nets whose flip-flops have left global set-reset, long lines
that clash with the frame that enables the second tap (R160), access points (die × 32 + a) and stream ports (die × 64 + s) closed by a
stopped net (R171), bundles by pair × 4,096 + bundle (pair = 2 × base die + 0 or 1), regions whose flip-flops are held at init
(die × 64 + n; a whole die in reset is in `ClkSt.inReset`), dies that a full image swaps whole (R132), and whether step 9 has released the device. -/
structure FabSt where
  ungated : List Nat
  released : List Nat
  clashes : List (Nat × Nat)
  closedAp : List (Nat × Nat)
  closedSp : List (Nat × Nat)
  bundles : Tbl BundleSt
  regionReset : List Nat
  dieSwap : List Nat
  step9 : Bool
  deriving DecidableEq, Repr

/-- A bundle with no repair. -/
def BundleSt.fresh : BundleSt := { taken := [], pooled := false }

/-- One cord or far-mode link (R184 to R192, R197 to R201): per virtual channel the partner's advertised credits, flits outstanding, returns
the sender has counted (mod 32) and flits in the receiver's buffer; the replay buffer; the sender's next and the receiver's expected
sequence; NAK state, hold, failed replays, whether it has been retested; bad wires; the spare under test with the wire it is to replace, wires
declared during the hold; the logical wires of a narrowed cord; the ROOT cycles of ignored returns and acknowledges within the last 1 ms; the last capability record
received and how often; whether credits wait to be counted back; and whether the next training clears field-map wires. -/
structure CordSt where
  limit : List Nat
  outst : List Nat
  counted : List Nat
  buffer : List Nat
  replay : List CordFlit
  nextSeq : Nat
  expect : Nat
  nak : Bool
  hold : Bool
  tries : Nat
  retested : Bool
  bad : List Nat
  test : Option (Nat × Nat)
  waitW : List Nat
  narrow : List Nat
  conduct : List Nat
  lastRec : List Nat
  recSeen : Nat
  owed : Bool
  retest : Bool
  deriving DecidableEq, Repr

/-- A cord as training leaves it: full credits of its own record, nothing outstanding. -/
def CordSt.fresh : CordSt :=
  { limit := [16, 16, 16, 16], outst := [0, 0, 0, 0], counted := [0, 0, 0, 0], buffer := [0, 0, 0, 0], replay := [], nextSeq := 0,
    expect := 0, nak := false, hold := false, tries := 0, retested := false, bad := [], test := none, waitW := [], narrow := [],
    conduct := [], lastRec := [], recSeen := 0, owed := false, retest := false }

/-- Cords and links: cords by number (0 to 639), light cords at 1,000 + number, far-mode groups at 2,000 + 2 × base die + group; and the
field map of the start-up records (R187): link key and wire. -/
structure CrdSt where
  cords : Tbl CordSt
  fieldMap : List (Nat × Nat)
  deriving DecidableEq, Repr

/-- A request that its initiator waits for (R175, R211, R222): packets of it still to be answered, the first code other than DONE, whether it
writes, its bytes, and the ROOT cycle of its injection. -/
structure NocReq where
  parts : Nat
  code : Nat
  write : Bool
  bytes : Nat
  since : Nat
  deriving DecidableEq, Repr

/-- A packet in a router's input buffer: router (base die × 32 + router), input port, the credits it holds there, its output port (none: held with
no usable port, R220). -/
structure NocBuf where
  router : Nat
  inp : Nat
  credits : Nat
  pkt : NocPkt
  port : Option Nat
  deriving DecidableEq, Repr

/-- Network state that no register holds (R213 to R224): requests by initiator endpoint × 4,096 + tag, quarantined tags, packets in router
buffers, requests a target has taken and not completed, the old bank's entries that differ (router × 256 + destination), whether Kindling has
written the default tables, ports marked down (router, port), the ROOT cycle of each router's last logged discard, routers that throttle, domains
marked closing and domains drained. -/
structure NocSt where
  reqs : Tbl (Option NocReq)
  quarantine : List Nat
  bufs : List NocBuf
  taken : List NocPkt
  oldRoutes : Tbl (Option Nat)
  kindled : Bool
  portDown : List (Nat × Nat)
  lastDrop : Tbl (Option Nat)
  throttling : List Nat
  closing : List Dom
  drained : List Dom
  deriving DecidableEq, Repr

/-- The credit ledger of each base die (R28, R499 to R501): outstanding counts by instance, key (base die × 8 + pool kind) × 4,096 + instance; the
instances that drain for a resync with the ROOT cycle of the last mismatch; and instances whose storage failed. -/
structure LedSt where
  out : Tbl Nat
  draining : List Nat
  last : Tbl (Option Nat)
  deriving DecidableEq, Repr

/-- Sink-side and source-side state of a stream slot (R234 to R250): fragments held until their due cycles; the unit whose remaining fragments
are discarded; the verdict on the unit being released and its fragments released so far; the ROOT cycle of the last discard that was recorded;
units in the window since the copy was lost; the commit cycle of the last switch and the `lat` before it; the next stamped `seq`; the ROOT cycle
of the last unit and its `seq`; the ROOT cycle a SWAPPING slot's region left reset; buffers of the old allotment not yet returned; and fragments
that wait at the slot's own source. -/
structure SlotSt where
  held : List LineFrag
  drop : Option (BitVec 32)
  take : Option Bool
  part : List LineFrag
  lastBad : Option Nat
  inWin : Nat
  swC : Option Nat
  oldLat : Nat
  stamp : BitVec 32
  lastAt : Option Nat
  lastSeq : Option (BitVec 32)
  swapRel : Option Nat
  extra : Nat
  srcQ : List LineFrag
  deriving DecidableEq, Repr

/-- A slot that holds nothing. -/
def SlotSt.fresh : SlotSt :=
  { held := [], drop := none, take := none, part := [], lastBad := none, inWin := 0, swC := none, oldLat := 0, stamp := 0, lastAt := none,
    lastSeq := none, swapRel := none, extra := 0, srcQ := [] }

/-- A merge (R248): `fresh`, `high`, the sequence numbers delivered within the window, the ROOT cycle of the last delivery. -/
structure MergeSt where
  fresh : Bool
  high : BitVec 32
  recent : List (BitVec 32)
  lastAt : Nat
  deriving DecidableEq, Repr

/-- A merge that starts afresh. -/
def MergeSt.start : MergeSt := { fresh := true, high := 0, recent := [], lastAt := 0 }

/-- A frame store (R252, R253): the frame slots that are done, `rep`, the source frame being written, and complete frames written since the
rebuild of a mirror began. The write and read slots are in `SSW_FS_STAT`. -/
structure FsSt where
  done : List Nat
  rep : Bool
  cur : Option (BitVec 16)
  rebuilt : Nat
  deriving DecidableEq, Repr

/-- A store that holds no frame. -/
def FsSt.fresh : FsSt := { done := [], rep := false, cur := none, rebuilt := 0 }

/-- A store read under way (R253): unit index, whether from the mirror copy, whether it is the second try, the frame slot, the reader's frame number. -/
structure FsRead where
  unit : Nat
  mirror : Bool
  again : Bool
  slot : Nat
  frame : Nat
  deriving DecidableEq, Repr

/-- A unit delivered to a sink: the slot that carried it and its fragments. -/
structure SinkUnit where
  slot : Nat
  frags : List LineFrag
  deriving DecidableEq, Repr

/-- The Stream Switch: slots and merges by global slot, frame stores by global store, reads by reader slot, delivered units that their sink has not
taken by sink key, and buffers reserved by armed transactions (transaction × 4 + slice, R255). -/
structure SswSt where
  slots : Tbl SlotSt
  merges : Tbl MergeSt
  fs : Tbl FsSt
  reads : Tbl (Option FsRead)
  sinks : Tbl (List SinkUnit)
  reserved : Tbl Nat
  deriving DecidableEq, Repr


/-- A billet as its sender holds it (R266, R267): type, lane sequence number, link position and user words of DATA and DATA1, and the payload of ACK
and RESTRIPE billets as numbers. -/
structure Billet where
  typ : Nat
  seq : Nat
  pos : Nat
  words : List UserWord
  extra : List Nat
  deriving DecidableEq, Repr

/-- One lane (R266 to R283): next sequence sent and expected; the replay buffer; billets failing `check` in a row; the last capability record, and how
its state will fail; link positions it takes before `nextPos`, then `nextPos` itself; full bring-ups failed in a row; whether a state has timed out
and the lane waits to return to DETECT, whether it stays there, whether it has adapted before; whether a NAK is out. -/
structure LaneSt where
  txSeq : Nat
  rxSeq : Nat
  replay : List Billet
  badRun : Nat
  capRec : List Byte
  capErr : Nat
  plan : List Nat
  nextPos : Nat
  fullFails : Nat
  waiting : Bool
  stuck : Bool
  adapted : Bool
  nakOut : Bool
  deriving DecidableEq, Repr

/-- A lane that has done nothing. -/
def LaneSt.fresh : LaneSt :=
  { txSeq := 0, rxSeq := 0, replay := [], badRun := 0, capRec := [], capErr := 6, plan := [], nextPos := 0, fullFails := 0, waiting := false,
    stuck := false, adapted := false, nakOut := false }

/-- A native link (R277 to R284): words waiting to be sent, link position of the next new billet, the lane identifiers in each direction's list, lane
identifiers whose billets are declared lost, the next position to deliver, the reorder buffer by position, the positions the replayed billets of a
restripe take, billets received since the last ACK, words delivered to the user, ROOT cycles of bad conduct, and a simplex transmitter's phase. -/
structure NlSt where
  txq : List UserWord
  txPos : Nat
  txList : List Nat
  rxList : List Nat
  rxPos : Nat
  reorder : Tbl (Option (List UserWord))
  gaps : List Nat
  sinceAck : Nat
  out : List UserWord
  conduct : List Nat
  phase : Nat
  deriving DecidableEq, Repr

/-- A link that starts afresh (R284). -/
def NlSt.fresh : NlSt :=
  { txq := [], txPos := 0, txList := [], rxList := [], rxPos := 0, reorder := [], gaps := [], sinceAck := 0, out := [], conduct := [], phase := 0 }

/-- Serial lanes by base die × 32 + lane, native links by base die × 8 + link, and SDI transmitters' divider settings by lane (R286). -/
structure LnSt where
  lanes : Tbl LaneSt
  links : Tbl NlSt
  sdiRate : Tbl Nat
  deriving DecidableEq, Repr


/-- An SDI channel (R297 to R302): good and bad lines in a row, whether it emits, the frame number at hand, whether the frame's units are withheld for
its payload ID, the active samples last sent, and ANC packets (line, words) still to be inserted in the frame at hand. -/
structure SdiSt where
  good : Nat
  bad : Nat
  emitting : Bool
  frame : Nat
  withheld : Bool
  lastLine : List Byte
  anc : List (Nat × Nat)
  deriving DecidableEq, Repr

/-- A channel that has seen nothing. -/
def SdiSt.fresh : SdiSt := { good := 0, bad := 0, emitting := false, frame := 0, withheld := false, lastLine := [], anc := [] }

/-- A unit in assembly (R305): `seq`, line, frame number, the ROOT cycle of its first packet, parts by offset or index. -/
structure AsmUnit where
  seq : BitVec 32
  line : Nat
  frame : Nat
  since : Nat
  parts : List (Nat × List Byte)
  deriving DecidableEq, Repr

/-- A receive flow (R305, R306): units in assembly, the last unit that left, the highest extended sequence and those of the history seen, and the ROOT
cycles at which its legs last delivered. -/
structure RxSt where
  asm : List AsmUnit
  left : Option (BitVec 32)
  high : Option (BitVec 32)
  seen : List (BitVec 32)
  legA : Nat
  legB : Nat
  deriving DecidableEq, Repr

/-- A flow that has received nothing. -/
def RxSt.fresh : RxSt := { asm := [], left := none, high := none, seen := [], legA := 0, legB := 0 }

/-- Port groups by number P = 6 × base die + group: SDI channels (P × 8 + c), receive flows (P × 64 + i), the unit a transmit flow is sending (P × 64 + i),
MACsec: associations with an installed key ((P × 4 + m) × 64 + AN for transmit, + 4 + k × 4 + AN for receive SC k) and their next packet numbers
by the same number, and the frames in the host receive queue by P. -/
structure MpSt where
  sdi : Tbl SdiSt
  rx : Tbl RxSt
  tx : Tbl (Option SinkUnit)
  keyed : List Nat
  pn : Tbl Nat
  hostRx : Tbl (List EthFrame)
  deriving DecidableEq, Repr


/-- A register write of an engine in flight (R331): the location, its value, and from which issue on each class of consumer sees it: plain reads,
branches, address generation, and the late reads of R331 (accumulators outside multiply-accumulates, bx by a move, modes of st). -/
structure PendW where
  loc : Nat
  val : Nat
  plain : Nat
  branch : Nat
  addr : Nat
  late : Nat
  deriving DecidableEq, Repr

/-- A transfer of an engine (R338, R379): tag, whether from local memory to the device, key ID, device address, local address, bytes. -/
structure Xfer where
  tag : Nat
  out : Bool
  addr : Nat
  la : Nat
  bytes : Nat
  deriving DecidableEq, Repr

/-- A branch that waits for its delay slots (R333): target, slots left, whether it is a RETI. -/
structure Redirect where
  target : Nat
  left : Nat
  reti : Bool
  deriving DecidableEq, Repr

/-- An engine (R325 to R345). Registers by location: 0 to 31 g, 32 + 4k + lane the accumulators, 64 + x special register x of R359, 128 + i the bits of st
(rounding at 136). Then writes in flight, instructions issued since the task started, pc, the pending branch, the repeat of an RPT, the level of the
block repeat set last, the RPTB inside the outer body, whether the boundary at hand is a block end, local memory, a TAPM delay-line write in flight (address, value, issue), the
LL reservation's line, transfer tags (0 free, 1 busy, 2 + code done), transfers in issue order, the task's windows (X base and size, Y base and
size, in bytes), whether DEBUG is pending, whether the next exception halts, the code of an exception it is held at (R548), whether an LL reservation was cancelled for its halt (R341), and the function whose task ran on it last (R329). -/
structure EngSt where
  regs : Tbl Nat
  pend : List PendW
  n : Nat
  pc : Nat
  redirect : Option Redirect
  rpt : Option Nat
  level : Fin 2
  inner : Option Nat
  atEnd : Bool
  mem : Tbl Byte
  tapm : Option (Nat × Nat × Nat)
  ll : Option Nat
  xq : Tbl Nat
  xfers : List Xfer
  xb : Nat
  xs : Nat
  yb : Nat
  ys : Nat
  debug : Bool
  excHalt : Bool
  excHeld : Option Nat
  llCut : Bool
  lastFn : Option Nat
  deriving DecidableEq, Repr

/-- An engine that has run nothing. -/
def EngSt.fresh : EngSt :=
  { regs := [], pend := [], n := 0, pc := 0, redirect := none, rpt := none, level := 0, inner := none, atEnd := false, mem := [], tapm := none, ll := none, xq := [],
    xfers := [], xb := 0, xs := 0, yb := 0, ys := 0, debug := false, excHalt := false, excHeld := none, llCut := false, lastFn := none }

/-- A pack (R320 to R324, R347 to R349): pack memory, shared instruction memory, pack-memory words with an uncorrectable error, the stimulus FIFO
(port, engine, value, seconds, nanoseconds), and for each stream index the SENDs whose units have not left (engine, tag). -/
structure PackSt where
  pm : Tbl Byte
  imem : Tbl Byte
  bad : List Nat
  stim : List (Nat × Nat × Nat × Nat × Nat)
  sends : Tbl (List (Nat × Nat))
  deriving DecidableEq, Repr

/-- A pack whose memories nothing has written. -/
def PackSt.fresh : PackSt := { pm := [], imem := [], bad := [], stim := [], sends := [] }

/-- Engines by number, packs by number, and engines that are out of their pool. -/
structure EngsSt where
  eng : Tbl EngSt
  pack : Tbl PackSt
  out : List Nat
  deriving DecidableEq, Repr



/-- A task descriptor (R383). -/
structure Desc where
  entry : Nat
  restartable : Bool
  affValid : Bool
  noCompl : Bool
  affinity : Nat
  arg : Nat
  wd : Nat
  cring : Nat
  cookie : Nat
  delay : Nat
  period : Nat
  argCount : Nat
  argStep : Nat
  xbase : Nat
  xsize : Nat
  ybase : Nat
  ysize : Nat
  deriving DecidableEq, Repr

/-- What an engine does with its task (R344, R395). -/
inductive TaskPhase where
  | runs | saving | restoring
  deriving DecidableEq, Repr

/-- A task (R385 to R403): its number in acceptance order, queue (global), descriptor, release, affinity engine, remaining watchdog budget; the ROOT cycles at
which it became ready, at which its wait began, and at which it last started to run; ENG cycles run and waited; whether it has been dispatched;
re-runs and the flags of its completion; whether it is held, spilled; its save slot (pack × 32 + slot); what its engine does with it; the
delay-list entry or template it is a release of; and what a save keeps that the save area has no place for: transfer codes and loop levels. -/
structure Task where
  id : Nat
  q : Nat
  desc : Desc
  rel : Nat
  aff : Option Nat
  budget : Nat
  readyAt : Nat
  waitFrom : Nat
  since : Nat
  ran : Nat
  waited : Nat
  started : Bool
  reruns : Nat
  stolen : Bool
  cross : Bool
  preempted : Bool
  held : Bool
  spilled : Bool
  slot : Option Nat
  phase : TaskPhase
  src : Option Nat
  xq : Tbl Nat
  level : Fin 2
  inner : Option Nat
  deriving DecidableEq, Repr

/-- An entry of the delay list (R399, R400): its number, queue, descriptor, due tick, next release, affinity engine; whether it is periodic, and whether it is a
periodic template. -/
structure DelayEnt where
  id : Nat
  q : Nat
  desc : Desc
  due : Nat
  next : Nat
  aff : Option Nat
  periodic : Bool
  tmpl : Bool
  deriving DecidableEq, Repr

/-- A template (R386): its number, descriptor, next copy, affinity engine. -/
structure Tmpl where
  id : Nat
  desc : Desc
  next : Nat
  aff : Option Nat
  deriving DecidableEq, Repr

/-- A completion record that waits (R403): its words 0 to 3, the engine whose busy tags must be done first, whether it returns a token of a queue, and
that queue. -/
structure ComplRec where
  words : List Nat
  eng : Option Nat
  token : Bool
  q : Nat
  deriving DecidableEq, Repr

/-- The Kennels: ready, held and saved tasks by queue, running tasks by engine, the task that an engine's pre-emption is for, delay lists by base die,
templates by queue, queues whose template is invalid, completion records that wait by ring (base die × 256 + ring), the queue served last by
(pack × 16 + priority), the pack lane L8 stands in for by base die, tasks lost in a die reset by queue, and the next number. -/
structure KenSt where
  ready : Tbl (List Task)
  run : Tbl (Option Task)
  pre : Tbl (Option Nat)
  delay : Tbl (List DelayEnt)
  tmpl : Tbl (Option Tmpl)
  badTmpl : List Nat
  waiting : Tbl (List ComplRec)
  rr : Tbl Nat
  standIn : Tbl (Option Nat)
  lost : Tbl Nat
  nextId : Nat
  deriving DecidableEq, Repr

/-- What stands beside a 64-byte block of HBM: the context under which it was written, its context, empty for plaintext and memory never
written (R422, R432), and whether it holds a poison code word (R417). -/
structure BlkMeta where
  ctx : List Nat
  poison : Bool
  deriving DecidableEq, Repr

/-- A block never written. -/
def BlkMeta.fresh : BlkMeta := { ctx := [], poison := false }

/-- The counter block of a FULL page (R430): major, minors by block (a `wide` region's 64-bit counters, R433), generation. -/
structure PageCtr where
  major : Nat
  minors : Tbl Nat
  gen : Nat
  deriving DecidableEq, Repr

/-- A FULL region's record beyond its registers (R429, R437 to R440): the old generation's `major_hw` during a sweep, POISON extents (first page,
page count), the ROOT cycle of the last page rewrite, tag failures within the last second. -/
structure RgnRec where
  oldHw : Nat
  extents : List (Nat × Nat)
  lastRewrite : Option Nat
  tagFails : List Nat
  deriving DecidableEq, Repr

/-- No record. -/
def RgnRec.fresh : RgnRec := { oldHw := 0, extents := [], lastRewrite := none, tagFails := [] }

/-- Memory and keys: HBM contents by device address (a byte that nothing has written reads 0, log entry 6), block metadata by device address / 64, key
values by key ID, FULL regions by stack × 64 + region, their counter blocks by (stack × 64 + region) × 2^24 + page, row repairs not yet permanent by
stack, and the key a far-mode group sends under (base die × 2 + group), where it differs from `CRY_LINK.key_id`. -/
structure MemSt where
  hbm : Tbl Byte
  blk : Tbl BlkMeta
  keyVal : Tbl Nat
  rgn : Tbl RgnRec
  page : Tbl PageCtr
  softRows : Tbl Nat
  linkTx : Tbl (Option Nat)
  deriving DecidableEq, Repr

/-- A key buffer filled by KEY_DELIVER (R466): the key and the session that filled it. -/
structure KeyBuf where
  key : Nat
  session : Nat
  deriving DecidableEq, Repr

/-- An SPDM session (R466): its physical function, and whether KEY_EXCHANGE has been followed by FINISH. -/
structure SpdmSession where
  fn : Nat
  finished : Bool
  deriving DecidableEq, Repr

/-- A firmware bank (R472): its version and svn, and what stands for its content. -/
structure FwBank where
  version : Nat
  svn : Nat
  content : Nat
  deriving DecidableEq, Repr

/-- Host interface state that no register holds (R465 to R472): key buffers by function × 8 + buffer, SPDM sessions by number 0 to 3, messages of the
sideband that were dropped, the two firmware banks, the boot bank, and the banks that the active and the standby controller run. -/
structure HostSt where
  keyBuf : Tbl (Option KeyBuf)
  sessions : Tbl (Option SpdmSession)
  bmcDropped : Nat
  bank0 : FwBank
  bank1 : FwBank
  bootBank : Nat
  runBank : Nat
  standbyBank : Nat
  deriving DecidableEq, Repr



/-- A Kiln slice under way (R492): unit number of R503, segment, the KILN_RUN command it answers, whether it is a full test of a failed unit (R497), and the
pipeline that has the unit's share meanwhile (R436). -/
structure KilnSlice where
  unit : Nat
  seg : Nat
  cmd : Option HostCmd
  full : Bool
  sub : Option Nat
  deriving DecidableEq, Repr

/-- A KILN_RUN that waits until its unit can be taken: base die, unit, command. -/
structure KilnWant where
  die : Nat
  unit : Nat
  cmd : HostCmd
  deriving DecidableEq, Repr

/-- Kiln (R491 to R498): the slice under way by base die; KILN_RUN commands that wait; and by base die × 410 + unit, INCOMPLETE verdicts in a row, the next
segment, the minute (of ROOT time) of the last full pass (0 until the first), and units that have failed again since the start. -/
structure KlnSt where
  slice : Tbl (Option KilnSlice)
  wait : List KilnWant
  incRun : Tbl Nat
  nextSeg : Tbl Nat
  passAt : Tbl Nat
  failedTwice : List Nat
  deriving DecidableEq, Repr


/-- What an Ember record saves (R517, R518): its sequence, whether it was consumed, house time at the sag, the registers of key-ID metadata
and regions, region records, counter blocks, MACsec packet numbers, transaction numbers that were open, and stacks that kept their contents. -/
structure EmberRec where
  seq : Nat
  consumed : Bool
  ht : Nat
  regs : Tbl Nat
  rgn : Tbl RgnRec
  page : Tbl PageCtr
  pn : Tbl Nat
  txns : List Nat
  retained : List Nat
  deriving DecidableEq, Repr

/-- Power, Ember and temperature (R505 to R520, R568): the ROOT cycle of the last recorded excursion by base die × 8 + rail; the sequence of the last sag; its
cause (1 VCC_BASE, 2 SAG_N); the ROOT cycle and the house time of its detection; the newest complete record; whether a newer set exists but is incomplete;
whether the last capacitance measurement passed, and whether a measurement has been asked for; the mode that REPAIR returns to after EMBER; sensors (base
die × 6 + sensor) that read 95 °C or more; the record level of the excursion under way (0 none, 1 NOTE, 2 DEGRADE, 3 DEVICE); and whether a thermal trip
holds the device reset. -/
structure PwrSt where
  railAt : Tbl (Option Nat)
  seq : Nat
  cause : Nat
  sagAt : Nat
  sagHt : Nat
  record : Option EmberRec
  newer : Bool
  capOk : Bool
  capAsked : Bool
  repairReturn : Nat
  warm : List Nat
  level : Nat
  trip : Bool
  deriving DecidableEq, Repr


/-- The boundary-scan TAP (R535, R566): the code in the instruction register, and the values in the boundary register. -/
structure TapSt where
  ir : Nat
  preload : Nat
  deriving DecidableEq, Repr

/-- A Leash command that has not completed: a HALT of an engine, or the rest of a STEP (R547, R548). -/
inductive LshWait where
  | halt (e : Nat)
  | step (e n : Nat)
  deriving DecidableEq, Repr

/-- The Leash port (R534 to R549): the live nonce, failed unlocks in a row, the ROOT cycle until which no unlock is accepted, whether MODE_LEASH
allows CONTROL in SAFE, the command that waits, and the TAP. -/
structure LshSt where
  nonce : Option Nat
  fails : Nat
  lockUntil : Nat
  allow : Bool
  wait : Option LshWait
  tap : TapSt
  deriving DecidableEq, Repr

/-- What the device sends out at its boundary. -/
inductive Output where
  /-- A read returns a register's value; the flag is the Leash `peeked` flag (R8). -/
  | readData (value : Nat) (peeked : Bool)
  /-- A read of a width other than 64 bits returns no data (R5). -/
  | readNone
  /-- A response code to a request (R14). -/
  | reply (code : Resp)
  /-- A 32-byte response in a function's response ring (R460): function, cmd_id, group, command, status, `phase`, `replayed`, detail, result words. -/
  | hostReply (fn cmdId group cmd status : Nat) (phase replayed : Bool) (detail : Nat) (result : List Nat)
  /-- An MSI-X vector sent to a function (R459, R463). -/
  | hostIrq (fn vec : Nat)
  /-- Bytes or words the device writes to host memory: function, host address, 64-bit words. -/
  | hostWrite (fn addr : Nat) (words : List Nat)
  /-- An output pin takes a level. -/
  | pin (name : String) (level : Bool)
  /-- A cadence generator issues an event (R54): base die, generator, event. -/
  | cadence (die gen : Nat) (ev : CgEvent)
  /-- A packet the device injects into the network on chip. -/
  | noc (p : NocPkt)
  /-- An access point answers its user (R175): fabric die, access point, tag, code, data. -/
  | apReply (f a tag code : Nat) (data : List Word64)
  /-- A far frame of type 3 is sent on a far-mode group with a control command (R200, R447). -/
  | farControl (b g cmd : Nat)
  /-- A billet is sent on lane l of base die b (R266). -/
  | billet (b l : Nat) (x : Billet)
  /-- Line bits of lane l of base die b are inverted (R290): how many in a row. -/
  | inject (b l n : Nat)
  /-- A line leaves a transmit SDI channel (R301): base die, group, channel, line, samples (none: black), ANC packets inserted. -/
  | sdiLine (b g c line : Nat) (active : Option (List Byte)) (anc : Nat)
  /-- An RTP packet leaves a MAC (R307): base die, group, MAC, destination address and port, payload type, SSRC, extended sequence, timestamp, marker,
  payload. -/
  | rtp (b g m dst port pt ssrc ext ts : Nat) (marker : Bool) (payload : List Byte)
  /-- A response on the Leash port (R536, R537): acknowledge and response bytes. -/
  | leash (ack : Nat) (bytes : List Byte)
  /-- The internal configuration port of fabric die f completes a command (R142): `icp_status`, `icp_err`. -/
  | icpDone (f status err : Nat)
  /-- Readback data of an internal port: fabric die, words. -/
  | icpData (f : Nat) (words : List Nat)
  /-- Bytes of a chain stream are forwarded (R108). -/
  | chainOut (bytes : Nat)
  /-- An SPDM response on the mailbox of a physical function (R466): response code of DSP0274, and its content as numbers. -/
  | spdm (fn code : Nat) (content : List Nat)
  /-- A response on the board-management sideband (R468). -/
  | bmc (content : List Nat)
  /-- Configuration or memory requests of a host port are answered (R70, R77): function, PCIe completion status (0 success, 1 Unsupported Request, 2
  Configuration Request Retry, 4 Completer Abort), whether the data is poisoned, data words. -/
  | pcie (fn status : Nat) (poisoned : Bool) (words : List Nat)
  /-- A trace packet leaves for a sink (R531): base die, sink, packet. -/
  | traceOut (b sink : Nat) (p : TracePkt)
  /-- TDO of the TAP (R566): instruction in effect and its data. -/
  | tdo (ir data : Nat)
  deriving DecidableEq, Repr

/-- The device: everything but the queue of waiting commands. -/
structure Dev where
  /-- Every control register, field by field: key = device address × 64 + low bit; an unlisted field holds its reset value. -/
  regs : Tbl Nat
  /-- The model's own counter of free values taken (not the spec's; log entry 2). -/
  free : Nat
  /-- What the device has sent out at its boundary, oldest first. -/
  out : List Output
  /-- ROOT cycles counted since alignment (R37, R118, R209). -/
  root : Nat
  /-- House time of the reference copy, in units of 2^-40 ns since the PTP epoch (R42, R43). -/
  ht : Nat
  flt : FltSt
  obs : ObsSt
  clk : ClkSt
  htx : HtSt
  fuse : FuseSt
  bbk : BbkSt
  peat : PeatSt
  cfg : CfgSt
  pl : PlaneSt
  fab : FabSt
  crd : CrdSt
  noc : NocSt
  led : LedSt
  mem : MemSt
  hst : HostSt
  ssw : SswSt
  ln : LnSt
  mp : MpSt
  en : EngsSt
  ken : KenSt
  kln : KlnSt
  pwr : PwrSt
  lsh : LshSt
  deriving DecidableEq, Repr

/-- Why a step stops with a fault. -/
inductive Fault where
  /-- Raised by a meaning whose command is not well formed (WellFormed): no such command can be sent. Safe: the model stops. -/
  | illFormed (mnemonic : String)
  deriving DecidableEq, Repr

/-- Why a step gives no meaning. -/
inductive Refusal where
  /-- Raised by `exec` for a command that has no meaning yet. Safe: the model stops. -/
  | notModelled (mnemonic : String)
  deriving DecidableEq, Repr

/-- The machine: the queue of commands that wait, first in first out, and the device. -/
structure State where
  pending : List Instr
  dev : Dev
  deriving DecidableEq, Repr

/-- The outcome of a command. -/
abbrev Result := Host.Outcome State Fault Refusal

/-- The device as it is held in device reset, before POR_N is released (R61, R66, R82). -/
def Dev.reset : Dev := {
  regs := [], free := 0, out := [], root := 0, ht := 0,
  flt := { ring := [], era := 0, readPos := [], notify := [], rejected := [] },
  obs := { fifo := [], dropped := [], evtOn := [], fabEvtOn := [], stim := [] },
  clk := { refOk := true, refLost := false, clockLost := [], inReset := [], failed := [], closing := [], held := true, stopped := false },
  htx := { dev := [], reloadAt := [], refTimed := [], firstAcq := true, goodRun := 0, outs := [], ppsRejRun := 0, primaryRun := 0,
           avgRate := 343597383680, ppsSecSet := false, lastSec := 0, waits := [], master := none, tenMOk := true, waiting := [],
           servoOn := false },
  fuse := { deviceSn := 0, aesKey := [0, 0, 0, 0], aesRevoke := 0, bbkAllowed := false, sigRequired := false, ownerRevoke := 0,
            chainLanes := 0, chainOutOff := false, chainIn := false, ownerHash := [0, 0, 0, 0], svnFuse := 0, hostaSplit := false,
            hostbEn := false, bmcSafe := false, bmcAddr := 0, kekSeed := 0, fwSvn := 0, leashPassHash := 0, leashPassOff := false,
            leashCtlOff := false, grade := 1, temp := 0, lid := 0, spareMap := [] },
  bbk := { key := none, tamperLow := false },
  peat := { words := [], dirA := SlotDir.blank, dirB := SlotDir.blank, badUnits := [] },
  cfg := { path := .none, hdr := Hdr.empty, pos := 0, frames := 0, err := none, ended := false, 
           place := { die := 0, rgn := 0, col := 0, bram := 0, vacate := false }, icp := none, req := none, img := Staged.empty, retried := false, fn := 255,
           cmd := none, runSvn := 0, runSlot := none, runStart := 0, reached := false },
  pl := { active := [], shadow := [], stale := [], resync := [], txn := [], bram := [], deep := [], icpTxn := [],
          corrected := [], rebuild := [], modeWait := none, image := false, m3 := 0, m5 := 0, rejoin := [] },
  fab := { ungated := [], released := [], clashes := [], closedAp := [], closedSp := [], bundles := [], regionReset := [], dieSwap := [],
           step9 := false },
  crd := { cords := [], fieldMap := [] },
  noc := { reqs := [], quarantine := [], bufs := [], taken := [], oldRoutes := [], kindled := false, portDown := [], lastDrop := [],
           throttling := [], closing := [], drained := [] },
  led := { out := [], draining := [], last := [] },
  mem := { hbm := [], blk := [], keyVal := [], rgn := [], page := [], softRows := [], linkTx := [] },
  hst := { keyBuf := [], sessions := [], bmcDropped := 0, bank0 := { version := 0, svn := 0, content := 0 },
           bank1 := { version := 0, svn := 0, content := 0 }, bootBank := 0, runBank := 0, standbyBank := 0 },
  ssw := { slots := [], merges := [], fs := [], reads := [], sinks := [], reserved := [] },
  ln := { lanes := [], links := [], sdiRate := [] },
  mp := { sdi := [], rx := [], tx := [], keyed := [], pn := [], hostRx := [] },
  en := { eng := [], pack := [], out := [] },
  ken := { ready := [], run := [], pre := [], delay := [], tmpl := [], badTmpl := [], waiting := [], rr := [], standIn := [], lost := [], nextId := 0 },
  kln := { slice := [], wait := [], incRun := [], nextSeg := [], passAt := [], failedTwice := [] },
  pwr := { railAt := [], seq := 0, cause := 0, sagAt := 0, sagHt := 0, record := none, newer := false, capOk := false, capAsked := false, repairReturn := 0, warm := [], level := 0, trip := false },
  lsh := { nonce := none, fails := 0, lockUntil := 0, allow := false, wait := none, tap := { ir := 255, preload := 0 } } }

/-- The machine right after reset: the device in reset and no command waiting. -/
def State.reset : State := { pending := [], dev := Dev.reset }

end Sys2Proof.Machine
end

