-- ==== Sys2Proof/Machine/Ops.lean ====
section
/-! DEFINITION. The named operations over the device's state that every family of commands uses: register fields, time, free values,
output, event counting, the trace FIFO, the fault record ring with its handling order, and changes of mode. Log entries: DEDUCED 25, 27, 78, 79, 86; DESIGN CHOICE 2, 8, 9, 11, 94. -/

namespace Sys2Proof.Machine

/-! ### Register fields -/

/-- The key of a field of one register: its device address × 64 + low bit. -/
def Fld.key (f : Fld) (a : Ix) : Nat := (f.base + f.ds * a.die + f.us * a.u + f.s1 * a.i + f.s2 * a.j) * 64 + f.lo

/-- Rows and columns of a router number, and the router of a row and column (R21). -/
def rtRow (r : Nat) : Nat := r / 8
/-- Column of a router. -/
def rtCol (r : Nat) : Nat := r % 8

/-- The step from column `c` toward column `t` along a row: mesh east (9) or west (11). -/
def stepCol (c t : Nat) : Nat := if c < t then 9 else 11
/-- The step from row `r` toward row `t` along a column: mesh south (10) or north (8). -/
def stepRow (r t : Nat) : Nat := if r < t then 10 else 8

/-- The primary port of Kindling's default table (R216): within a base die along the row to the destination column, then along the column; to
another base die the horizontal pair first, by the cross port nearest along the row, then the vertical pair, along the column. -/
def defaultPort (b r dst : Nat) : Nat :=
  let tb := dst / 32
  let tr := dst % 32
  if b % 2 ≠ tb % 2 then
    (if b % 2 = 0 then (if 6 ≤ rtCol r then 12 else 9) else (if rtCol r ≤ 1 then 12 else 11))
  else if b ≠ tb then
    (if b / 2 = 0 then (if rtRow r = 3 then 13 else 10) else (if rtRow r = 0 then 13 else 8))
  else if rtCol r ≠ rtCol tr then stepCol (rtCol r) (rtCol tr)
  else stepRow (rtRow r) (rtRow tr)

/-- The value of a field's register that no write has changed: its reset value, or for a routing entry what Kindling wrote (R216). -/
def Dev.unset (d : Dev) (f : Fld) (a : Ix) : Nat :=
  if f.base = F.NOC_ROUTE_port.base && f.s1 = 2048 && d.noc.kindled && decide (a.j < 128) && decide (a.j ≠ a.die * 32 + a.i) then
    (if f.lo = 0 then defaultPort a.die a.i a.j else if f.lo = 8 then 1 else 0)
  else f.reset

/-- The value in effect of a field. -/
def Dev.rd (d : Dev) (f : Fld) (a : Ix) : Nat := Tbl.get (d.unset f a) d.regs (f.key a)

/-- A field read as a flag. -/
def Dev.flag (d : Dev) (f : Fld) (a : Ix) : Bool := d.rd f a != 0

/-- Set a field, truncated to its width. -/
def Dev.st (d : Dev) (f : Fld) (a : Ix) (v : Nat) : Dev :=
  { d with regs := Tbl.set (d.unset f a) d.regs (f.key a) (v % 2 ^ f.w) }

/-- Set a one-bit field. -/
def Dev.stB (d : Dev) (f : Fld) (a : Ix) (v : Bool) : Dev := d.st f a v.toNat

/-- Apply a change only when a condition holds. -/
def Dev.on (d : Dev) (c : Bool) (f : Dev → Dev) : Dev := if c then f d else d

/-- The bytes of a number. -/
def numBytes (v n : Nat) : List Byte := (List.range n).map (fun i => BitVec.ofNat 8 (v / 2 ^ (8 * i)))

/-- The instances of a register's address: index i on die 0. -/
def Ix.at (i : Nat) : Ix := { i := i }

/-- The one register of a die. -/
def Ix.onDie (b : Nat) : Ix := { die := b }

/-- Index i on die b. -/
def Ix.on (b i : Nat) : Ix := { die := b, i := i }

/-- The device address of a field's register. -/
def Fld.addr (f : Fld) (a : Ix) : Nat := f.base + f.ds * a.die + f.us * a.u + f.s1 * a.i + f.s2 * a.j

/-! ### Time (R42, R43) -/

/-- 2^40, the units of `HT_RATE` in a nanosecond. -/
def nsUnits : Nat := 2 ^ 40

/-- Seconds of house time. -/
def Dev.sec (d : Dev) : Nat := d.ht / (nsUnits * 10 ^ 9)

/-- Nanoseconds of house time within the second. -/
def Dev.ns (d : Dev) : Nat := d.ht / nsUnits % 10 ^ 9

/-- The 16-bit fraction of a nanosecond. -/
def Dev.frac (d : Dev) : Nat := d.ht / 2 ^ 24 % 2 ^ 16

/-! ### Free values and output -/

/-- The next free value, reduced to `w` bits, and the device with its counter advanced. -/
def Dev.draw (d : Dev) (w : Nat) : Nat × Dev := (Config.free d.free % 2 ^ w, { d with free := d.free + 1 })

/-- Send something out at the boundary. -/
def Dev.emit (d : Dev) (o : Output) : Dev := { d with out := d.out ++ [o] }

/-! ### Event counters (R522 to R524) -/

/-- The instance number of R476 that a register instance stands for in its block: pack × 32 + engine in PK, controller × 52 +
pipeline in CRY, the port group in MP, otherwise the first index. -/
def Fld.inst (f : Fld) (a : Ix) : Nat :=
  if f.blk = 6 then a.u * 32 + a.i else if f.blk = 3 then a.u * 52 + a.i else if f.blk = 5 then a.u else a.i

/-- Whether the gate of counter n of die b is open (R524): with `gate_en` set, only while the generator is on a line of the window. -/
def Dev.gateOpen (d : Dev) (a : Ix) : Bool :=
  let cg := d.rd F.EVT_SEL_cg a
  let line := d.rd F.HT_CG_STAT_line (Ix.on (cg / 64) (cg % 64))
  !d.flag F.EVT_SEL_gate_en a || (decide (d.rd F.EVT_SEL_line_first a ≤ line) && decide (line ≤ d.rd F.EVT_SEL_line_last a))

/-- Add to one counter; it wraps at 2^64 and then sets its sticky `ovf` (R522). -/
def Dev.addCount (d : Dev) (a : Ix) (n : Nat) : Dev :=
  let v := d.rd F.EVT_CNT_count a + n
  (d.st F.EVT_CNT_count a v).on (decide (2 ^ 64 ≤ v)) (fun d => d.st F.EVT_SEL_ovf a 1)

/-- `n` occurrences of event `ev` of block `blk`, instance `inst`, on base die `b`: every enabled counter that selects it counts. -/
def Dev.count (d : Dev) (b blk ev inst n : Nat) : Dev :=
  if ev = 256 then d else
  d.obs.evtOn.foldl (fun d c =>
    let a := Ix.on (c / 256) (c % 256)
    if c / 256 = b && d.rd F.EVT_SEL_source a = blk * 256 + ev &&
        (d.flag F.EVT_SEL_inst_all a || d.rd F.EVT_SEL_inst a = inst) && d.gateOpen a
    then d.addCount a n else d) d

/-- An RC counter counts `n` occurrences and saturates; the occurrences also count as block events (R523), saturated or not. -/
def Dev.bump (d : Dev) (f : Fld) (a : Ix) (n : Nat := 1) : Dev :=
  (d.st f a (min (d.rd f a + n) (2 ^ f.w - 1))).count a.die f.blk f.ev (f.inst a) n

/-- `n` occurrences of die event `src`, instance `inst`, on fabric die `f`: every enabled fabric counter that selects it counts and
wraps with its sticky `ovf` (R525). -/
def Dev.fabCount (d : Dev) (f src inst n : Nat) : Dev :=
  d.obs.fabEvtOn.foldl (fun (d : Dev) (c : Nat) =>
    let a := Ix.on (c / 32) (c % 32)
    if c / 32 = f && d.rd F.FAB_EVT_SEL_source a = src && (decide (src < 35) || decide (d.rd F.FAB_EVT_SEL_inst a = inst)) then
      let v := d.rd F.FAB_EVT_CNT_count a + n
      (d.st F.FAB_EVT_CNT_count a v).on (decide (2 ^ F.FAB_EVT_CNT_count.w ≤ v)) (fun d => d.st F.FAB_EVT_SEL_ovf a 1)
    else d) d

/-- Add to a list that holds no repeats. -/
def addNew {α : Type} [DecidableEq α] (l : List α) (x : α) : List α := if l.contains x then l else l ++ [x]

/-- Remove from a list. -/
def remove {α : Type} [DecidableEq α] (l : List α) (x : α) : List α := l.filter (fun y => decide (y ≠ x))

/-- A counter that wraps. -/
def Dev.addWrap (d : Dev) (f : Fld) (a : Ix) (n : Nat := 1) : Dev := d.st f a (d.rd f a + n)

/-! ### Modes -/

/-- The mode in effect. -/
def Dev.mode (d : Dev) : Mode := Mode.ofCode (d.rd F.HRT_MODE_mode {})

/-- The mode to be resumed after REPAIR or EMBER. -/
def Dev.returnMode (d : Dev) : Mode := Mode.ofCode (d.rd F.HRT_MODE_return_mode {})

/-- The base die of the active Hearth controller: B0, or B2 after a failover. -/
def Dev.hearthDie (d : Dev) : Nat := 2 * d.rd F.HRT_HEARTH_active {}

/-- Whether the mode that R77 and R544 speak of is ONAIR: ONAIR itself, or REPAIR entered from it. -/
def Dev.onAirLike (d : Dev) : Bool := d.mode == .onair || (d.mode == .repair && d.returnMode == .onair)

/-! ### The credit ledger's counts (R28, R499) -/

/-- The key of a pool instance. -/
def ledKey (b k inst : Nat) : Nat := (b * 8 + k) * 4096 + inst

/-- Outstanding credits of an instance. -/
def Dev.ledOut (d : Dev) (b k inst : Nat) : Nat := Tbl.get 0 d.led.out (ledKey b k inst)

/-- Issue `n` credits of an instance: pool counts and the instance's outstanding count. -/
def Dev.issue (d : Dev) (b k inst n : Nat) : Dev :=
  let d := d.addWrap F.LDG_POOL_ISS_count (Ix.on b k) n
  { d with led := { d.led with out := d.led.out.modify 0 (ledKey b k inst) (· + n) } }

/-- Count back `n` credits of an instance, never more than are outstanding. -/
def Dev.giveBack (d : Dev) (b k inst n : Nat) : Dev :=
  let n := min n (d.ledOut b k inst)
  let d := d.addWrap F.LDG_POOL_RET_count (Ix.on b k) n
  { d with led := { d.led with out := d.led.out.modify 0 (ledKey b k inst) (· - n) } }

/-! ### Trace FIFO (R527 to R530) -/

/-- Packets dropped from source order `k` (1, 3, 4 or 5) since the last loss packet. -/
def dropKey (b k : Nat) : Nat := b * 8 + k

/-- Whether a packet of source order `ord` finds room: the last 32 of the 512 entries take only fault records. -/
def Dev.traceRoom (d : Dev) (b ord : Nat) : Bool :=
  decide (((Tbl.get [] d.obs.fifo b).length) < if ord = 1 then 512 else 480)

/-- Count a packet that found no room (R530). -/
def Dev.traceDrop (d : Dev) (b ord : Nat) : Dev :=
  let d := { d with obs := { d.obs with dropped := d.obs.dropped.modify 0 (dropKey b ord) (· + 1) } }
  let a := Ix.onDie b
  if ord = 1 then d.bump F.EVT_TR_DROP_fault a else if ord = 3 then d.bump F.EVT_TR_DROP_kennel a
  else if ord = 4 then d.bump F.EVT_TR_DROP_snapshot a else if ord = 5 then d.bump F.EVT_TR_DROP_stimulus a else d

/-- Enter a packet in base die b's FIFO with the die's next `tseq`. -/
def Dev.traceEnter (d : Dev) (b : Nat) (p : TracePkt) : Dev :=
  let q := Tbl.get [] d.obs.fifo b ++ [{ p with tseq := d.rd F.EVT_TR_STAT_tseq (Ix.onDie b) }]
  (({ d with obs := { d.obs with fifo := d.obs.fifo.set [] b q } }).addWrap F.EVT_TR_STAT_tseq (Ix.onDie b)).st
    F.EVT_TR_STAT_fifo_level (Ix.onDie b) q.length

/-- The loss packet that enters ahead of the next packet of orders 3 to 6 once room exists after drops (R530). -/
def Dev.traceLoss (d : Dev) (b ord : Nat) : Dev :=
  let k := fun n => Tbl.get 0 d.obs.dropped (dropKey b n)
  if decide (3 ≤ ord) && decide (0 < k 1 + k 3 + k 4 + k 5) && d.traceRoom b 2 then
    let p : TracePkt :=
      { ptype := 5, die := b, src := 0, tseq := 0, sec := d.sec % 2 ^ 32, ns := d.ns,
        payload := [k 1 % 2 ^ 32 + k 3 % 2 ^ 32 * 2 ^ 32, k 4 % 2 ^ 32 + k 5 % 2 ^ 32 * 2 ^ 32] }
    let d := d.traceEnter b p
    { d with obs := { d.obs with dropped :=
      (((d.obs.dropped.set 0 (dropKey b 1) 0).set 0 (dropKey b 3) 0).set 0 (dropKey b 4) 0).set 0 (dropKey b 5) 0 } }
  else d

/-- A trace source offers a packet (R527, R530). -/
def Dev.trace (d : Dev) (b ord ptype die src : Nat) (payload : List Nat) : Dev :=
  let d := d.traceLoss b ord
  if d.traceRoom b ord then
    d.traceEnter b { ptype := ptype, die := die, src := src, tseq := 0, sec := d.sec % 2 ^ 32, ns := d.ns, payload := payload }
  else d.traceDrop b ord

/-! ### Fault records (R475 to R484) -/

/-- An occurrence of a fault: the unit (R476), class (R477), severity, action (R478), the function whose partition holds the
resource (255 for none), detail, whether Hearth must handle it, whether its handling needs REPAIR (R486), and the resources it needs. -/
structure Occ where
  die : Nat
  block : Nat
  inst : Nat
  cls : Nat
  sev : Nat
  action : Nat := 0
  sub : Nat := 0
  fn : Nat := 255
  detail : Nat := 0
  needs : Bool := false
  repair : Bool := false
  res : List Nat := []
  deriving DecidableEq, Repr

/-- Severities of R17. -/
def sevNote : Nat := 0
/-- DEGRADE (R17). -/
def sevDegrade : Nat := 1
/-- STREAM (R17). -/
def sevStream : Nat := 2
/-- DEVICE (R17). -/
def sevDevice : Nat := 3

/-- The base die of a die code of R476. -/
def baseOf (die : Nat) : Nat := if die < 4 then die else (die - 4) / 3

/-- The ring as a list of entries that hold a record. -/
def FltSt.recs (r : FltSt) : List (Nat × FltRec) := r.ring.filterMap (fun e => e.2.map (fun x => (e.1, x)))

/-- Write one entry. -/
def Dev.putRec (d : Dev) (k : Nat) (r : Option FltRec) : Dev :=
  { d with flt := { d.flt with ring := d.flt.ring.set none k r } }

/-- A record's place in time: `seq` counts from 0 at each start-up (R475). -/
def FltRec.ord (r : FltRec) : Nat := r.era * 2 ^ 32 + r.seq

/-- Whether record `r` can take the occurrence (R481): same unit and class, and it is open, or no function's read position has
passed it and the occurrence needs no handling. -/
def Dev.canMerge (d : Dev) (o : Occ) (r : FltRec) : Bool :=
  decide (r.die = o.die) && decide (r.block = o.block) && decide (r.inst = o.inst) && decide (r.cls = o.cls) &&
  (r.openR || (!o.needs && d.flt.readPos.all (fun e => decide (e.2 ≤ r.ord))))

/-- The newest record that can take the occurrence. -/
def Dev.mergeTarget (d : Dev) (o : Occ) : Option (Nat × FltRec) :=
  d.flt.recs.foldl (fun best e =>
    if d.canMerge o e.2 then
      match best with
      | none => some e
      | some b => if b.2.ord < e.2.ord then some e else best
    else best) none

/-- The entry a new record takes (R480): the lowest-numbered that holds none, else that of the oldest closed record. -/
def Dev.freeEntry (d : Dev) : Option Nat :=
  match (List.range 256).find? (fun k => (Tbl.get none d.flt.ring k).isNone) with
  | some k => some k
  | none =>
    (d.flt.recs.foldl (fun best e =>
      if e.2.openR || decide (256 ≤ e.1) then best else
      match best with
      | none => some e
      | some b => if e.2.ord < b.2.ord then some e else best) none).map (·.1)

/-- Rank order of R482: severity, highest first, then `seq`. -/
def FltRec.outranks (a b : FltRec) : Bool := decide (b.sev < a.sev) || (decide (a.sev = b.sev) && decide (a.seq < b.seq))

/-- Insert in rank order. -/
def insertRanked (e : Nat × FltRec) : List (Nat × FltRec) → List (Nat × FltRec)
  | [] => [e]
  | x :: r => if e.2.outranks x.2 then e :: x :: r else x :: insertRanked e r

/-- Of records in rank order, those under handling (R482): the highest four whose resources no higher one holds. -/
def choose : List (Nat × FltRec) → Nat → List Nat → List Nat
  | [], _, _ => []
  | _ :: _, 0, _ => []
  | e :: r, n + 1, held =>
    if e.2.res.any (fun x => held.contains x) then choose r (n + 1) held
    else e.1 :: choose r n (held ++ e.2.res)

/-- Stages of handling: 0 none, 1 under handling, 2 suspended, 3 waiting. -/
def restage (chosen : List Nat) (e : Nat × FltRec) : FltRec :=
  if !e.2.openR then { e.2 with stage := 0 }
  else if chosen.contains e.1 then { e.2 with stage := 1 }
  else if e.2.stage = 1 || e.2.stage = 2 then { e.2 with stage := 2, preempted := true }
  else { e.2 with stage := 3 }

/-- Recompute the handling order after the set of open records has changed (R482), and the counts of `FLT_STATUS`. -/
def Dev.resched (d : Dev) : Dev :=
  let recs := d.flt.recs
  let ranked := (recs.filter (fun e => e.2.openR)).foldl (fun l e => insertRanked e l) []
  let chosen := choose ranked 4 []
  let new := recs.map (fun e => (e.1, restage chosen e))
  let d := new.foldl (fun d e => d.putRec e.1 (some e.2)) d
  let d := d.st F.FLT_STATUS_open {} (new.filter (fun e => e.2.openR && decide (e.1 < 256))).length
  let d := d.st F.FLT_STATUS_handling {} (new.filter (fun e => e.2.stage == 1)).length
  d.st F.FLT_STATUS_suspended {} (min 7 (new.filter (fun e => e.2.stage == 2)).length)

/-- The counter of a severity. -/
def sevFld (n g s v : Fld) (sev : Nat) : Fld := if sev = 0 then n else if sev = 1 then g else if sev = 2 then s else v

/-- The 32 bytes of a record (R475, R476) as four 64-bit words. -/
def FltRec.words (r : FltRec) : List Nat :=
  [r.ns + r.sec % 2 ^ 32 * 2 ^ 32,
   r.seq % 2 ^ 32 + (r.die % 16 + r.block % 16 * 16 + r.inst % 4096 * 256 + r.sub % 4096 * 2 ^ 20) * 2 ^ 32,
   r.cls + r.sev * 2 ^ 8 + r.action * 2 ^ 16 +
     (r.openR.toNat + 2 * r.merged.toNat + 4 * r.preempted.toNat + 8 * r.unresolved.toNat) * 2 ^ 24 +
     r.count * 2 ^ 32 + r.fn * 2 ^ 48,
   r.detail % 2 ^ 64]

/-- Whether function `fn` sees a record: a virtual function sees only those of its own number (R453, R479). -/
def Dev.sees (d : Dev) (fn : Nat) (r : FltRec) : Bool :=
  decide (d.rd F.HRT_FN_STAT_type (Ix.at fn) ≠ 2) || decide (r.fn = fn)

/-- A record is stored: it is counted, announced to functions that asked (LOG_NOTIFY), traced (R527), and BMC_ALERT_N goes low
from DEGRADE up (R468); a record it overwrites counts as lost for each function that has not read it (R463). -/
def Dev.storeRec (d : Dev) (k : Nat) (r : FltRec) : Dev :=
  let d := match Tbl.get none d.flt.ring k with
    | none => d
    | some old => d.flt.readPos.foldl (fun (d : Dev) (e : Nat × Nat) => d.on (decide (e.2 ≤ old.ord) && d.sees e.1 old)
        (fun d => d.bump F.HRT_FN_STAT_log_lost (Ix.at e.1))) d
  let d := d.putRec k (some r)
  let d := d.bump (sevFld F.FLT_CNT_note F.FLT_CNT_degrade F.FLT_CNT_stream F.FLT_CNT_device r.sev) {}
  let d := d.flt.notify.foldl (fun (d : Dev) (e : Nat × Option Notify) => match e.2 with
    | some n => d.on (decide (n.sev ≤ r.sev) && d.sees e.1 r) (fun d => d.emit (.hostIrq e.1 n.vec))
    | none => d) d
  let d := d.on (decide (1 ≤ r.sev)) (fun d => d.emit (.pin "BMC_ALERT_N" false))
  let b := baseOf r.die
  d.on (d.flag F.EVT_TR_CFG_src_fault (Ix.onDie b) && decide (d.rd F.EVT_TR_CFG_fault_min (Ix.onDie b) ≤ r.sev))
    (fun d => d.trace b 1 4 r.die 0 r.words)

/-- A fault occurrence: merged into a record, stored as a new one, or lost to overflow but still handled (R481, R480, R484). -/
def Dev.log (d : Dev) (o : Occ) : Dev :=
  match d.mergeTarget o with
  | some (k, r) =>
    (d.putRec k (some { r with count := min 65535 (r.count + 1), merged := true, sev := max r.sev o.sev,
                               repair := r.repair || o.repair, res := r.res ++ o.res })).resched
  | none =>
    let seq := d.rd F.FLT_STATUS_seq_next {}
    let isOpen := o.needs && decide (o.sev ≠ 0)
    let r : FltRec :=
      { sec := d.sec % 2 ^ 32, ns := d.ns, seq := seq, era := d.flt.era, die := o.die, block := o.block, inst := o.inst, sub := o.sub,
        cls := o.cls, sev := o.sev, action := o.action, openR := isOpen, merged := false, preempted := false, unresolved := false,
        count := 1, fn := o.fn, detail := o.detail, repair := o.repair, stage := 0, res := o.res }
    let d := d.addWrap F.FLT_STATUS_seq_next {}
    match d.freeEntry with
    | some k => (d.storeRec k r).resched
    | none =>
      let d := (d.bump (sevFld F.FLT_OVF_note F.FLT_OVF_degrade F.FLT_OVF_stream F.FLT_OVF_device o.sev) {}).st F.FLT_STATUS_overflow {} 1
      if isOpen then (d.putRec (256 + seq) (some r)).resched else d

/-! ### Changes of mode (R61 to R65, R80, R83, R486) -/

/-- EXC_HALT settings clear (R548). -/
def Dev.clearExcHalt (d : Dev) : Dev :=
  let d := (List.range 16).foldl (fun (d : Dev) (k : Nat) => d.st F.LSH_EXC_exc (Ix.at k) 0) d
  { d with en := { d.en with eng := d.en.eng.foldl (fun (t : Tbl EngSt) (e : Nat × EngSt) =>
      t.set EngSt.fresh e.1 { Tbl.get EngSt.fresh t e.1 with excHalt := false }) d.en.eng } }

/-- Write the mode registers on entry into a mode: code, return mode and entry time; a CONTROL session is reduced to OBSERVE on
every entry into ONAIR (R64); EXC_HALT settings clear when the device leaves BENCH (R548); the image may have reached its start mode (R101). -/
def Dev.setMode (d : Dev) (m r : Mode) : Dev :=
  let d := d.on (d.mode == .bench && r != .bench) (fun d => d.clearExcHalt)
  let d := ((d.st F.HRT_MODE_mode {} m.code).st F.HRT_MODE_return_mode {} r.code)
  let d := (d.st F.HRT_MODE_TIME_entry_ns {} d.ns).st F.HRT_MODE_TIME_entry_sec {} d.sec
  let d := { d with cfg := { d.cfg with reached := d.cfg.reached || (d.pl.image && decide (m.code = d.cfg.runStart)) } }
  d.on (m == .onair && decide (d.rd F.LSH_STAT_rights {} = 2)) (fun d => d.st F.LSH_STAT_rights {} 1)

/-- Whether a handling that needs REPAIR is under way or suspended (R486). -/
def Dev.repairNeeded (d : Dev) : Bool := d.flt.recs.any (fun e => e.2.repair && (e.2.stage == 1 || e.2.stage == 2))

/-- Enter REPAIR when a handling needs it, and leave it when none does (R486); SAFE, EMBER, COLD and LOAD keep their mode (R65). -/
def Dev.repairMode (d : Dev) : Dev :=
  if d.repairNeeded then
    match d.mode with
    | .rehearse => d.setMode .repair .rehearse
    | .onair => d.setMode .repair .onair
    | .bench => d.setMode .repair .bench
    | _ => d
  else if d.mode == .repair then d.setMode d.returnMode d.returnMode else d

/-- A fault occurrence together with the change of mode that its handling brings. -/
def Dev.occur (d : Dev) (o : Occ) : Dev := (d.log o).repairMode

/-- The fence (R80): it reaches every fenced output on the same ROOT cycle. -/
def Dev.fence (d : Dev) : Dev := (d.st F.HRT_MODE_fenced {} 1).emit (.pin "SAFE_N" false)

/-- Lift the fence of the outputs (R81). -/
def Dev.unfence (d : Dev) : Dev := (d.st F.HRT_MODE_fenced {} 0).emit (.pin "SAFE_N" true)

/-- The modes that a SAFE trigger leaves by the row of R61. -/
def Mode.leavesToSafe : Mode → Bool
  | .load | .rehearse | .onair | .bench | .repair => true
  | _ => false

/-- A SAFE trigger with its cause (R61, R64, R65): held as `safe_pending` in EMBER, without effect in COLD and SAFE. An entry that the
host did not command logs a record of severity DEVICE that names the cause. -/
def Dev.safeTrigger (d : Dev) (cause : Nat) (byHost : Bool) : Dev :=
  if d.mode == .ember then (d.st F.HRT_MODE_safe_pending {} 1).st F.HRT_MODE_safe_cause {} cause
  else if d.mode.leavesToSafe then
    let d := ((d.fence).setMode .safe .safe).st F.HRT_MODE_safe_cause {} cause
    d.on (!byHost) (fun d => d.occur { die := d.hearthDie, block := 15, inst := 0, cls := 4, sev := sevDevice, action := 14, detail := cause })
  else d

/-! ### Responses of Hearth (R459, R460) -/

/-- A response: status, detail, result words (R460). -/
structure Reply where
  status : Nat
  detail : Nat := 0
  result : List Nat := []
  deriving DecidableEq, Repr

/-- The command groups of R459. -/
def grpIMAGE : Nat := 1
/-- TXN. -/
def grpTXN : Nat := 2
/-- KEY. -/
def grpKEY : Nat := 3
/-- MODE. -/
def grpMODE : Nat := 4
/-- REPAIR. -/
def grpREPAIR : Nat := 5
/-- KILN. -/
def grpKILN : Nat := 6
/-- QUERY. -/
def grpQUERY : Nat := 7
/-- LOG. -/
def grpLOG : Nat := 8

/-- Write the response to a command: the response count advances, and with `irq` the ring's vector is sent (R459, R460). A ring that has been disabled
meanwhile discards it (R455). -/
def Dev.respond (d : Dev) (c : HostCmd) (group code : Nat) (r : Reply) (replayed : Bool := false) : Dev :=
  let a := Ix.at c.fn
  if !d.flag F.HRT_CQ_CFG_enable a then d else
  let n := d.rd F.HRT_CQ_HEAD_responses a
  let phase := n / 2 ^ d.rd F.HRT_CQ_CFG_size_log2 a % 2 = 0
  let d := (d.emit (.hostReply c.fn c.cmdId group code r.status phase replayed r.detail r.result)).addWrap F.HRT_CQ_HEAD_responses a
  d.on c.irq (fun d => d.emit (.hostIrq c.fn (d.rd F.HRT_CQ_CFG_vec a)))

/-- Answer a MODE_SET that has waited for its trigger. -/
def Dev.answerMode (d : Dev) (w : ModeWait) (r : Reply) : Dev :=
  match w.cmd with
  | some c => d.respond c grpMODE 1 r
  | none => d

/-! ### Global nets and global set-reset (R161, R170) -/

/-- The key of global net n of fabric die f. -/
def netKey (f n : Nat) : Nat := f * 32 + n

/-- The PLL that feeds net n of die f: its die and number. -/
def Dev.netPll (d : Dev) (f n : Nat) : Option (Nat × Nat) :=
  let a := Ix.on f n
  match d.rd F.FAB_GNET_src a with
  | 1 => some (f, d.rd F.FAB_GNET_idx a / 4)
  | 2 => some (f / 3 * 3 + 1, 4 + d.rd F.FAB_GNET_idx a / 4)
  | _ => none

/-- Whether a net has a running source: a clock-capable pin, or a locked PLL. -/
def Dev.netRunning (d : Dev) (f n : Nat) : Bool :=
  match d.rd F.FAB_GNET_src (Ix.on f n) with
  | 0 => false
  | 3 => true
  | _ => match d.netPll f n with
    | some x => d.flag F.FAB_PLL_STAT_locked (Ix.on x.1 x.2)
    | none => false

/-- `FAB_STATUS.gsr`: some net with a source has flip-flops still in global set-reset. -/
def Dev.gsrStatus (d : Dev) (f : Nat) : Dev :=
  d.stB F.FAB_STATUS_gsr (Ix.onDie f) (!d.fab.step9 || (List.range 32).any (fun n =>
    decide (d.rd F.FAB_GNET_src (Ix.on f n) ≠ 0) && !d.fab.released.contains (netKey f n)))

/-- Ungate a net with a running source, from step 9 on; its flip-flops leave global set-reset on the fourth edge after (R161). -/
def Dev.ungateNet (d : Dev) (f n : Nat) : Dev :=
  if d.fab.step9 && d.netRunning f n then
    ({ d with fab := { d.fab with ungated := addNew d.fab.ungated (netKey f n), released := addNew d.fab.released (netKey f n) } }).gsrStatus f
  else d

/-! ### A command's effect -/

/-- A load that another trigger than its own failure has ended in SAFE: its stream ends with ABORTED (R112, R113), and the shadow plane is discarded, or
awaits its restore. An IMAGE_LOAD whose image has committed but not reached its start mode is answered with the mode. -/
def Dev.endLoad (d : Dev) : Dev :=
  match d.cfg.path with
  | .startup | .hostLoad =>
    let sec := match d.cfg.err with | some e => e.code | none => 0
    let d := ((d.st F.HRT_CFG_ERR_code {} 0x1B).st F.HRT_CFG_ERR_secondary {} sec).st F.HRT_CFG_ERR_byte_offset {} d.cfg.pos
    let d := ((d.st F.HRT_CFG_STAT_state {} 7).st F.HRT_CFG_STAT_busy {} 0).occur
      { die := d.hearthDie, block := 15, inst := 0, cls := 1, sev := sevNote, detail := 0x1B }
    let d := if d.cfg.path = .startup then { d with pl := { d.pl with shadow := [] } }
      else { d with pl := { d.pl with stale := d.cfg.img.frames.foldl addNew d.pl.stale } }
    let d := match d.cfg.cmd with
      | some c => d.respond c grpIMAGE 2 { status := 2, detail := 0x1B }
      | none => d
    { d with cfg := { d.cfg with path := .none, cmd := none, icp := none, req := none } }
  | .none => match d.cfg.cmd with
    | some c => { (d.respond c grpIMAGE 2 { status := 1, detail := d.mode.code }) with cfg := { d.cfg with cmd := none } }
    | none => d
  | .txn _ => d

/-- Where a load has failed before its commit, the image that was running runs on behind the fence (R77, R112). -/
def Dev.runOn (d : Dev) : Dev :=
  if d.pl.image && !d.fab.step9 && d.rd F.HRT_BOOT_step {} = 4 then
    let d := { d with fab := { d.fab with step9 := true } }
    let d := (List.range 384).foldl (fun (d : Dev) (k : Nat) => d.ungateNet (k / 32) (k % 32)) d
    ((List.range 12).foldl (fun (d : Dev) (f : Nat) => d.gsrStatus f) d).st F.HRT_BOOT_step {} 9
  else d

/-- The rules that hold of the device at all times, whatever the command: a load does not go on in SAFE; the outputs are fenced in COLD, LOAD, EMBER and
SAFE (R77, R80, R82), and while the mode that counts is ONAIR no Leash session holds more than OBSERVE (R64, R544). -/
def Dev.settle (d : Dev) : Dev :=
  let d := d.on (d.mode == .safe) (fun d => d.endLoad.runOn)
  let d := d.on ((d.mode == .cold || d.mode == .load || d.mode == .ember || d.mode == .safe) && !d.flag F.HRT_MODE_fenced {}) (fun d => d.fence)
  d.on (d.onAirLike && decide (d.rd F.LSH_STAT_rights {} = 2)) (fun d => d.st F.LSH_STAT_rights {} 1)

/-- The state after a change of the device, with the rules that hold at all times; the queue as it was. -/
def State.after (s : State) (f : Dev → Dev) : State := { s with dev := (f s.dev).settle }

/-- A command that changes the device and leaves the queue. -/
def State.act (s : State) (f : Dev → Dev) : Result := .next (s.after f)

end Sys2Proof.Machine
end

