-- ==== Sys2Proof/Machine/RegRules.lean ====
section
/-! DEFINITION. What the spec says of single registers: the ranges that hold under a condition of the same register (R9), the rules
between registers (R580), writes refused in some states, what counts as an idle block for QUIESCE fields (R10), and values that are
computed when a register is read. Log entries: DEDUCED 16, 45, 70, 92; DESIGN CHOICE 95. -/

namespace Sys2Proof.Machine

/-- A `w`-bit two's complement number. -/
def signed (w n : Nat) : Int := if n % 2 ^ w < 2 ^ (w - 1) then (n % 2 ^ w : Nat) else (n % 2 ^ w : Nat) - (2 ^ w : Nat)

/-- The extent of a defined region (R134, R150): rows and columns in range, columns on multiples of 8. -/
def rgnExtentOk (r0 r1 c w : Nat) : Bool :=
  decide (r0 ≤ r1) && decide (r1 ≤ 11) && decide (c % 8 = 0) && decide (c ≤ 712) && decide (w % 8 = 0) && decide (8 ≤ w) &&
  decide (w ≤ 720) && decide (c + w ≤ 720)

/-- The unit and index of a slot's end (R259): port groups 0 to 5, packs 0 to 7, fabric dies 0 to 2; both 0 for a frame store. -/
def endOk (t u i : Nat) : Bool :=
  if t = 0 then decide (u ≤ 5) else if t = 2 then decide (u ≤ 2) else if t = 3 then u = 0 && i = 0 else true

/-- Rate codes that a mode allows (R264, R287). -/
def rateOk (mode rate : Nat) : Bool :=
  let plain := decide (rate ≤ 9) || (decide (16 ≤ rate) && decide (rate ≤ 23))
  match mode with
  | 0 => plain
  | 1 => (decide (1 ≤ rate) && decide (rate ≤ 8)) || (decide (16 ≤ rate) && decide (rate ≤ 23))
  | 2 => decide (rate ≤ 9)
  | 3 => rate = 16 || rate = 17 || rate = 21
  | 4 => decide (16 ≤ rate) && decide (rate ≤ 22)
  | _ => false

/-- Whether lane l can be set so (R264, R285, R287): optical lanes take codes 21 and 22 only and no SDI. -/
def laneCfgOk (l mode rate variant : Nat) : Bool :=
  rateOk mode rate && (decide (l < 24) || mode = 0 || (mode ≠ 2 && (rate = 21 || rate = 22))) &&
  (if mode = 3 then decide (variant ≤ if rate = 21 then 2 else 1) else variant = 0)

/-- A flow's type and port (R295, R316, R319): SDI channels for types 1 and 2, MACs otherwise; native channel words on flow 63. -/
def flowOk (i type port : Nat) : Bool :=
  decide (type ≤ 8) && (type = 1 || type = 2 || decide (port ≤ 3)) && (type ≠ 8 || i = 63)

/-- The number of RC counting fields of a block, which events 0 upward stand for (R523). -/
def rcEvents (blk : Nat) : Nat :=
  (allRegs.map (fun r => if r.info.space = .base && r.info.off / 2 ^ 24 = blk && !(r = .HRT_RST_CAUSE || r = .PWR_TEMP)
    then (r.info.fields.filter (fun f => f.acc = .rc)).length else 0)).sum

/-- Whether event `ev` of block `blk` exists (R523). -/
def evtKnown (blk ev : Nat) : Bool :=
  if ev < 192 then decide (ev < rcEvents blk)
  else if ev ≤ 196 then true
  else if ev ≤ 199 then false
  else if ev ≤ 203 then blk = 0
  else if ev ≤ 207 then false
  else if ev ≤ 211 then blk = 6
  else if ev ≤ 215 then false
  else if ev ≤ 218 then blk = 3
  else if ev = 220 || ev = 221 then blk = 1
  else if ev = 224 then blk = 9
  else false

/-- The number of instances a block has (R476, R524): queues, slots, routers, controllers × 52, port groups, lanes, engines, units of
Kiln, counters, generators, cords, pools, the ring, rails, engines of the Leash, functions. -/
def instCount (blk : Nat) : Nat :=
  match blk with
  | 0 => 2048 | 1 => 1024 | 2 => 32 | 3 => 104 | 4 => 32 | 5 => 6 | 6 => 256 | 7 => 410 | 8 => 256 | 9 => 64 | 10 => 224 | 11 => 4096
  | 12 => 256 | 13 => 8 | 14 => 1 | _ => 64

/-- Rules of one register beyond the range of each field (R9): `v` is the written value. -/
def regRule (r : Reg) (a : Ix) (v : Nat) : Bool :=
  let g := fun (f : Fld) => bits v f.lo f.w
  match r with
  | .HT_CG_CFG => g F.HT_CG_CFG_enable = 0 ||
      (decide (4 * g F.HT_CG_CFG_period_den ≤ 1000 * g F.HT_CG_CFG_period_num) && decide (g F.HT_CG_CFG_period_num ≤ g F.HT_CG_CFG_period_den) &&
       decide (g F.HT_CG_CFG_period_den * g F.HT_CG_CFG_lines ≤ 10 ^ 6 * g F.HT_CG_CFG_period_num))
  | .HT_HOST_ADJ => decide (signed 32 (g F.HT_HOST_ADJ_freq) ≤ 300000000) && decide (-300000000 ≤ signed 32 (g F.HT_HOST_ADJ_freq))
  | .HT_STEP => decide ((signed 64 v).natAbs < 1000 * 10 ^ 9 * 2 ^ 16)
  | .FAB_RGN_DEF => g F.FAB_RGN_DEF_defined = 0 || rgnExtentOk (g F.FAB_RGN_DEF_first_row) (g F.FAB_RGN_DEF_last_row) (g F.FAB_RGN_DEF_first_col)
      (g F.FAB_RGN_DEF_width)
  | .FAB_RGN_CTL => g F.FAB_RGN_CTL_twin_valid = 0 || decide (g F.FAB_RGN_CTL_twin_die / 3 ≠ a.die / 3)
  | .FAB_PLL_CFG => g F.FAB_PLL_CFG_enable = 0 || decide (g F.FAB_PLL_CFG_ref_sel ≠ 1) || decide (g F.FAB_PLL_CFG_ref_idx ≤ 4)
  | .FAB_GNET => (match g F.FAB_GNET_src with
      | 0 => decide (g F.FAB_GNET_idx = 0)
      | 1 => true
      | 2 => decide (a.i ≤ 7) && decide (g F.FAB_GNET_idx ≤ 7)
      | _ => decide (g F.FAB_GNET_idx ≤ 4))
  | .NOC_CFG => decide (g F.NOC_CFG_thr_off < g F.NOC_CFG_thr_on)
  | .SSW_SLOT_CFG => endOk (g F.SSW_SLOT_CFG_src_type) (g F.SSW_SLOT_CFG_src_unit) (g F.SSW_SLOT_CFG_src_idx) &&
      endOk (g F.SSW_SLOT_CFG_sink_type) (g F.SSW_SLOT_CFG_sink_unit) (g F.SSW_SLOT_CFG_sink_idx) &&
      (g F.SSW_SLOT_CFG_fs = 0 || g F.SSW_SLOT_CFG_src_type = 3 || g F.SSW_SLOT_CFG_sink_type = 3) && decide (g F.SSW_SLOT_CFG_kind ≤ 4)
  | .SSW_FS_CFG => decide (g F.SSW_FS_CFG_stack / 2 = a.die) &&
      (g F.SSW_FS_CFG_mirrored = 0 || decide (g F.SSW_FS_CFG_mirror_stack / 2 ≠ a.die))
  | .LN_CFG => laneCfgOk a.i (g F.LN_CFG_mode) (g F.LN_CFG_rate) (g F.LN_CFG_variant)
  | .LN_TXEQ => decide (((signed 6 (g F.LN_TXEQ_c_m2)).natAbs + (signed 6 (g F.LN_TXEQ_c_m1)).natAbs + g F.LN_TXEQ_c_0 +
      (signed 6 (g F.LN_TXEQ_c_p1)).natAbs) ≤ 63)
  | .LN_NL_CFG => let n := ((List.range 32).filter (fun i => decide (bits (g F.LN_NL_CFG_lanes) i 1 = 1))).length
      decide (n ≤ 16) && (g F.LN_NL_CFG_enable = 0 || decide (1 ≤ n)) && (g F.LN_NL_CFG_lanes % 2 ^ 24 = 0 || g F.LN_NL_CFG_lanes / 2 ^ 24 = 0)
  | .MP_RXF_CFG => flowOk a.i (g F.MP_RXF_CFG_type) (g F.MP_RXF_CFG_port) && decide (g F.MP_RXF_CFG_mac_b ≤ 3) &&
      (g F.MP_RXF_CFG_type = 5 || g F.MP_RXF_CFG_type = 6 || g F.MP_RXF_CFG_n = 1)
  | .MP_TXF_CFG => flowOk a.i (g F.MP_TXF_CFG_type) (g F.MP_TXF_CFG_port) && decide (g F.MP_TXF_CFG_mac_b ≤ 3)
  | .PK_SRX_CFG => decide (g F.PK_SRX_CFG_base + 1 + g F.PK_SRX_CFG_entries * g F.PK_SRX_CFG_entry_lines ≤ 16384)
  | .KEN_SAVE => decide (g F.KEN_SAVE_base + g F.KEN_SAVE_slots * g F.KEN_SAVE_slot_lines ≤ 16384)
  | .HRT_PART_KEY => decide (1 ≤ g F.HRT_PART_KEY_key_first) && decide (g F.HRT_PART_KEY_key_first ≤ 119) &&
      decide (g F.HRT_PART_KEY_key_first + g F.HRT_PART_KEY_key_count ≤ 120)
  | .HRT_PART_Q => decide (g F.HRT_PART_Q_q_first + g F.HRT_PART_Q_q_count ≤ 2048)
  | .HRT_PART_SLOT => decide (g F.HRT_PART_SLOT_s_first + g F.HRT_PART_SLOT_s_count ≤ 1024)
  | .KLN_WIN => decide (g F.KLN_WIN_line_first ≤ g F.KLN_WIN_line_last)
  | .EVT_TR_CFG => decide (g F.EVT_TR_CFG_sink ≠ 4) || decide (g F.EVT_TR_CFG_fwd_die ≠ a.die)
  | .EVT_TR_BUF => decide (g F.EVT_TR_BUF_base + g F.EVT_TR_BUF_size ≤ 12288)
  | .EVT_SEL => decide (g F.EVT_SEL_line_first ≤ g F.EVT_SEL_line_last) && evtKnown (g F.EVT_SEL_source / 256) (g F.EVT_SEL_source % 256) &&
      (decide (g F.EVT_SEL_inst_all = 1) || decide (g F.EVT_SEL_inst < instCount (g F.EVT_SEL_source / 256)))
  | .FAB_EVT_SEL => decide (g F.FAB_EVT_SEL_source ≤ 39)
  | _ => true

/-- The rules of R55 between the three registers of a cadence generator; they bind only while `enable` is set. -/
def Dev.cgOk (d : Dev) (a : Ix) : Bool :=
  let num := d.rd F.HT_CG_CFG_period_num a
  let den := d.rd F.HT_CG_CFG_period_den a
  let lines := d.rd F.HT_CG_CFG_lines a
  let inLine := fun off => decide (off * den * lines < num * 10 ^ 9)
  !d.flag F.HT_CG_CFG_enable a ||
    (decide (1 ≤ d.rd F.HT_CG_SWP_swp_line1 a) && decide (d.rd F.HT_CG_SWP_swp_line1 a ≤ lines) &&
     decide (d.rd F.HT_CG_SWP_swp_line2 a ≤ lines) && inLine (d.rd F.HT_CG_SWP_swp_offset a) &&
     (!d.flag F.HT_CG_USR_enable a ||
       (decide (1 ≤ d.rd F.HT_CG_USR_line a) && decide (d.rd F.HT_CG_USR_line a ≤ lines) && inLine (d.rd F.HT_CG_USR_offset a))))

/-- Whether two region definitions of die `f` share a column and a row (R134). -/
def Dev.rgnOverlap (d : Dev) (f m n : Nat) : Bool :=
  let x := Ix.on f m
  let y := Ix.on f n
  d.flag F.FAB_RGN_DEF_defined x && d.flag F.FAB_RGN_DEF_defined y &&
  decide (d.rd F.FAB_RGN_DEF_first_row x ≤ d.rd F.FAB_RGN_DEF_last_row y) && decide (d.rd F.FAB_RGN_DEF_first_row y ≤ d.rd F.FAB_RGN_DEF_last_row x) &&
  decide (d.rd F.FAB_RGN_DEF_first_col x < d.rd F.FAB_RGN_DEF_first_col y + d.rd F.FAB_RGN_DEF_width y) &&
  decide (d.rd F.FAB_RGN_DEF_first_col y < d.rd F.FAB_RGN_DEF_first_col x + d.rd F.FAB_RGN_DEF_width x)

/-- Whether two defined regions of die `f` claim one stream port or access point (R141). -/
def Dev.portClash (d : Dev) (f m n : Nat) : Bool :=
  let x := Ix.on f m
  let y := Ix.on f n
  d.flag F.FAB_RGN_DEF_defined x && d.flag F.FAB_RGN_DEF_defined y &&
  (d.rd F.FAB_RGN_SP_sp x &&& d.rd F.FAB_RGN_SP_sp y != 0 || d.rd F.FAB_RGN_AP_ap x &&& d.rd F.FAB_RGN_AP_ap y != 0)

/-- Region n of die f overlaps no other region and shares no port with one (R134, R141, R580). -/
def Dev.rgnOk (d : Dev) (a : Ix) : Bool :=
  (List.range 64).all (fun m => decide (m = a.i) || (!d.rgnOverlap a.die m a.i && !d.portClash a.die m a.i))

/-- The rules of a slot's registers together (R259, R234): the limits that depend on its kind and ends, and no stamped `seq` in a twin pair. -/
def Dev.slotOk (d : Dev) (a : Ix) : Bool :=
  let kind := d.rd F.SSW_SLOT_CFG_kind a
  let ub := d.rd F.SSW_SLOT_RATE_unit_bytes a
  let n := d.rd F.SSW_SLOT_RATE_units a
  let p := d.rd F.SSW_SLOT_RATE_peak a
  (if kind = 4 then decide (64 ≤ ub) && decide (ub ≤ 1920) && decide (n ≤ p) && decide (p ≤ 800) else p = 0) &&
  ((d.rd F.SSW_SLOT_CFG_src_type a ≠ 2 && d.rd F.SSW_SLOT_CFG_sink_type a ≠ 2) || decide (ub % 64 = 0)) &&
  !(d.flag F.SSW_SLOT_CFG_seq_stamp a && d.flag F.SSW_SLOT_TWIN_twin_valid a)

/-- The rules of native link n of a base die (R265, R276): its lanes are in mode 4, of one rate and one reference, and in no other link. -/
def Dev.linkOk (d : Dev) (a : Ix) : Bool :=
  if !d.flag F.LN_NL_CFG_enable a then true else
  let m := d.rd F.LN_NL_CFG_lanes a
  let ls := (List.range 32).filter (fun i => decide (bits m i 1 = 1))
  let c := fun (f : Fld) (l : Nat) => d.rd f { a with i := l }
  ls.all (fun l => c F.LN_CFG_mode l = 4 && decide (c F.LN_CFG_rate l = c F.LN_CFG_rate (ls.headD 0)) &&
    decide (c F.LN_CFG_ref_sel l = c F.LN_CFG_ref_sel (ls.headD 0))) &&
  (List.range 6).all (fun n => decide (n = a.i) || !d.flag F.LN_NL_CFG_enable { a with i := n } || d.rd F.LN_NL_CFG_lanes { a with i := n } &&& m = 0)

/-- Whether n consecutive lanes from l belong to port group g of base die b, are in a mode and share one reference (R261, R294). -/
def Dev.lanesFor (d : Dev) (b g l n mode : Nat) : Bool :=
  decide (l % n = 0) && (List.range n).all (fun i =>
    let a := Ix.on b (l + i)
    d.rd F.LN_CFG_mode a = mode && decide (d.rd F.LN_CFG_pg a = g) && decide (d.rd F.LN_CFG_ref_sel a = d.rd F.LN_CFG_ref_sel (Ix.on b l)))

/-- An SDI channel's lanes (R294, R300): its own, and in dual-stream Level B the next channel is free. -/
def Dev.sdiOk (d : Dev) (a : Ix) : Bool :=
  !d.flag F.MP_SDI_CFG_enable a ||
  (d.lanesFor a.die a.u (d.rd F.MP_SDI_CFG_lane a) (2 ^ d.rd F.MP_SDI_CFG_links a) 2 &&
   (d.rd F.MP_SDI_CFG_level_b a ≠ 2 || (decide (a.i < 7) && !d.flag F.MP_SDI_CFG_enable { a with i := a.i + 1 })) &&
   (a.i = 0 || !(d.flag F.MP_SDI_CFG_enable { a with i := a.i - 1 } && d.rd F.MP_SDI_CFG_level_b { a with i := a.i - 1 } = 2)))

/-- The rate a MAC adds to its group in units of 100 Mb/s (R264, R294). -/
def Dev.macRate (d : Dev) (a : Ix) : Nat :=
  if !d.flag F.MP_MAC_CFG_enable a then 0
  else match d.rd F.LN_CFG_rate (Ix.on a.die (d.rd F.MP_MAC_CFG_lane a)) with
    | 16 => 100 | 17 => 250 | _ => if d.rd F.MP_MAC_CFG_width a = 1 then 4000 else 1000

/-- A MAC's lanes, its rate in its group, and the packets of flows that leave by it (R294, R319). -/
def Dev.macOk (d : Dev) (a : Ix) : Bool :=
  !d.flag F.MP_MAC_CFG_enable a ||
  (d.lanesFor a.die a.u (d.rd F.MP_MAC_CFG_lane a) (if d.rd F.MP_MAC_CFG_width a = 1 then 4 else 1) 3 &&
   (d.rd F.MP_MAC_CFG_width a = 0 || d.rd F.LN_CFG_rate (Ix.on a.die (d.rd F.MP_MAC_CFG_lane a)) = 21) &&
   decide (((List.range 4).map (fun m => d.macRate { a with i := m })).sum ≤ 4000))

/-- A transmit flow's packets fit its MAC's frames, and its offset lies within a frame period (R319). -/
def Dev.txfOk (d : Dev) (a : Ix) : Bool :=
  let c := d.rd F.MP_TXF_CFG_cg a
  let cg := Ix.on (c / 64) (c % 64)
  let t := d.rd F.MP_TXF_CFG_type a
  !d.flag F.MP_TXF_CFG_enable a ||
  ((t < 3 || t = 8 || decide (d.rd F.MP_TXF_CFG_pkt_bytes a ≤ d.rd F.MP_MAC_CFG_max_frame { a with i := d.rd F.MP_TXF_CFG_port a })) &&
   decide (d.rd F.MP_TXF_TIME_tro_ns a * d.rd F.HT_CG_CFG_period_den cg < d.rd F.HT_CG_CFG_period_num cg * 10 ^ 9))

/-- The number of an association in `MpSt.keyed`. -/
def saKey (a : Ix) (n : Nat) : Nat := ((6 * a.die + a.u) * 4 + a.i) * 64 + n

/-- Whether base die b's trace buffer overlaps a FULL region of its stack or the region's metadata area (R531). -/
def Dev.traceMeets (d : Dev) (b : Nat) : Bool :=
  let x := d.rd F.EVT_TR_BUF_base (Ix.onDie b)
  let n := d.rd F.EVT_TR_BUF_size (Ix.onDie b)
  let meet := fun (y m : Nat) => decide (x < y + m) && decide (y < x + n)
  (List.range 64).any (fun k =>
    let a : Ix := { die := b, u := d.rd F.EVT_TR_BUF_stack (Ix.onDie b), i := k }
    decide (d.rd F.CRY_RGN_state a ≠ 0) &&
    (meet (d.rd F.CRY_RGN_EXT_base a) (d.rd F.CRY_RGN_EXT_size a) || meet (d.rd F.CRY_RGN_EXT_meta_base a) (d.rd F.CRY_RGN_EXT_meta_units a)))

/-- The rules between registers that register `r` takes part in, on the values in effect in `d` (R580). -/
def crossOk (r : Reg) (a : Ix) (d : Dev) : Bool :=
  match r with
  | .HT_CG_CFG => d.cgOk a
  | .HT_CG_SWP => d.cgOk a
  | .HT_CG_USR => d.cgOk a
  | .FAB_RGN_DEF => d.rgnOk a
  | .FAB_RGN_SP => d.rgnOk a
  | .FAB_RGN_AP => d.rgnOk a
  | .SSW_SLOT_CFG => d.slotOk a
  | .SSW_SLOT_RATE => d.slotOk a
  | .SSW_SLOT_TWIN => d.slotOk a
  | .LN_NL_CFG => d.linkOk a
  | .LN_CFG => (List.range 6).all (fun n => d.linkOk { a with i := n })
  | .MP_SDI_CFG => d.sdiOk a
  | .MP_MAC_CFG => d.macOk a
  | .MP_TXF_CFG => d.txfOk a
  | .MP_TXF_TIME => d.txfOk a
  | .MP_SEC_CFG => !d.flag F.MP_SEC_CFG_enable a || d.mp.keyed.contains (saKey a (d.rd F.MP_SEC_CFG_tx_an a))
  | .EVT_TR_CFG => (List.range 4).all (fun b => decide (d.rd F.EVT_TR_CFG_sink (Ix.onDie b) ≠ 4) ||
      decide (d.rd F.EVT_TR_CFG_sink (Ix.onDie (d.rd F.EVT_TR_CFG_fwd_die (Ix.onDie b))) ≠ 4))
  | .EVT_TR_BUF => !d.traceMeets a.die
  | _ => true

/-- The maximum fabric user clock of a speed grade in kHz (R1, R167). -/
def gradeKhz (grade : Nat) : Nat := if grade = 1 then 600000 else if grade = 2 then 700000 else 800000

/-- Whether a PLL program keeps its VCO within 1.6 to 3.2 GHz and every output within the grade's maximum, for a reference in kHz (R167). -/
def pllInLimits (khz mult divIn d0 d1 d2 d3 grade : Nat) : Bool :=
  let vco := khz * mult
  decide (1600000 * divIn ≤ vco) && decide (vco ≤ 3200000 * divIn) &&
  [d0, d1, d2, d3].all (fun k => decide (vco ≤ gradeKhz grade * divIn * k))

/-- Whether PLL p exists on fabric die f: the spine PLLs 4 and 5 only on die 3b + 1 (R180). -/
def pllExists (f p : Nat) : Bool := decide (p < 4) || decide (f % 3 = 1)

/-- Whether a written PLL program on the ROOT / 32 reference breaks the limits of R167. -/
def Dev.pllRefused (d : Dev) (a : Ix) (v : Nat) : Bool :=
  let g := fun (f : Fld) => bits v f.lo f.w
  !pllExists a.die a.i || (g F.FAB_PLL_CFG_enable = 1 && g F.FAB_PLL_CFG_ref_sel = 0 &&
    !pllInLimits 100000 (g F.FAB_PLL_CFG_mult) (g F.FAB_PLL_CFG_div_in) (g F.FAB_PLL_CFG_div0) (g F.FAB_PLL_CFG_div1)
      (g F.FAB_PLL_CFG_div2) (g F.FAB_PLL_CFG_div3) d.fuse.grade)

/-- Whether pair n of fabric die f exists: n = 0 is the pair with F(f - 1), n = 1 with F(f + 1), on one base die (R20, R180). -/
def xbExists (f n : Nat) : Bool := if n = 0 then decide (f % 3 ≠ 0) else decide (f % 3 ≠ 2)

/-- A far-mode group may not be enabled with package number 0 or one that another group holds (R204). -/
def Dev.farPkgRefused (d : Dev) (a : Ix) (v : Nat) : Bool :=
  bits v 0 1 = 1 && (bits v 2 2 = 0 || (List.range 8).any (fun k =>
    let x := Ix.on (k / 2) (k % 2)
    decide (x ≠ { die := a.die, i := a.i }) && d.flag F.CRD_FAR_CFG_enable x && decide (d.rd F.CRD_FAR_CFG_pkg x = bits v 2 2)))

/-- Whether router r of base die b has output port p (R205); local ports are on every router. -/
def hasPort (b r p : Nat) : Bool :=
  match p with
  | 8 => decide (1 ≤ rtRow r)
  | 9 => decide (rtCol r ≤ 6)
  | 10 => decide (rtRow r ≤ 2)
  | 11 => decide (1 ≤ rtCol r)
  | 12 => if b % 2 = 0 then decide (6 ≤ rtCol r) else decide (rtCol r ≤ 1)
  | 13 => if b < 2 then rtRow r = 3 else rtRow r = 0
  | 14 => if b % 2 = 0 then rtCol r = 7 else rtCol r = 0
  | 15 => (if b < 2 then rtRow r = 3 else rtRow r = 0) && rtCol r % 2 = 1
  | n => decide (n < 8)

/-- Whether an endpoint is attached to local port p of router r of base die b (R206), with `split` HOSTA's second function. -/
def attached (b r p : Nat) (split : Bool) : Bool :=
  if p ≤ 3 then decide (r < 32)
  else if p = 4 then
    (8 ≤ r && decide (r ≤ 13)) || r = 16 || r = 17 || (r = 18 && b % 2 = 0) || (r = 19 && b % 2 = 0) || r = 20 || r = 21
  else p = 5 && r = 19 && b = 0 && split

/-- Whether initiator index i = router × 8 + port of base die b has an initiator (R230): every endpoint of R206 but the HBM controllers. -/
def Dev.initAt (d : Dev) (b i : Nat) : Bool :=
  attached b (i / 8) (i % 8) d.fuse.hostaSplit && !(i % 8 = 3 && (rtRow (i / 8) = 0 || rtRow (i / 8) = 3))
/-- Whether the mode is ONAIR or REPAIR (R291). -/
def Dev.onAirOrRepair (d : Dev) : Bool := d.mode == .onair || d.mode == .repair

/-- Whether two ranges of numbers share one. -/
def rangesMeet (f1 c1 f2 c2 : Nat) : Bool := decide (0 < c1) && decide (0 < c2) && decide (f1 < f2 + c2) && decide (f2 < f1 + c1)

/-- Whether a function is virtual (R452). -/
def Dev.isVf (d : Dev) (fn : Nat) : Bool := decide (d.rd F.HRT_FN_STAT_type (Ix.at fn) = 2)

/-- Whether key ID `k` lies in a function's partition (R453, R454); a physical function may use every one. -/
def Dev.keyInPart (d : Dev) (fn k : Nat) : Bool :=
  !d.isVf fn || (decide (d.rd F.HRT_PART_KEY_key_first (Ix.at fn) ≤ k) &&
    decide (k < d.rd F.HRT_PART_KEY_key_first (Ix.at fn) + d.rd F.HRT_PART_KEY_key_count (Ix.at fn)))

/-- Whether local queue `q` of base die `b` lies in a function's partition. -/
def Dev.queueInPart (d : Dev) (fn b q : Nat) : Bool :=
  let a : Ix := { i := fn, j := b }
  !d.isVf fn || (decide (d.rd F.HRT_PART_Q_q_first a ≤ q) && decide (q < d.rd F.HRT_PART_Q_q_first a + d.rd F.HRT_PART_Q_q_count a))

/-- Whether local slot `n` of base die `b` lies in a function's partition. -/
def Dev.slotInPart (d : Dev) (fn b n : Nat) : Bool :=
  let a : Ix := { i := fn, j := b }
  !d.isVf fn || (decide (d.rd F.HRT_PART_SLOT_s_first a ≤ n) && decide (n < d.rd F.HRT_PART_SLOT_s_first a + d.rd F.HRT_PART_SLOT_s_count a))

/-- Whether a written partition range would overlap another virtual function's (R454). -/
def Dev.partOverlap (d : Dev) (r : Reg) (a : Ix) (first count : Nat) : Bool :=
  (List.range 64).any (fun k => decide (k ≠ a.i) && d.isVf k &&
    (let x : Ix := { a with i := k }
     match r with
     | .HRT_PART_KEY => rangesMeet first count (d.rd F.HRT_PART_KEY_key_first x) (d.rd F.HRT_PART_KEY_key_count x)
     | .HRT_PART_Q => rangesMeet first count (d.rd F.HRT_PART_Q_q_first x) (d.rd F.HRT_PART_Q_q_count x)
     | _ => rangesMeet first count (d.rd F.HRT_PART_SLOT_s_first x) (d.rd F.HRT_PART_SLOT_s_count x)))

/-- Whether a queue is disabled and has no task in flight (R409): each one holds a descriptor token. -/
def Dev.queueIdle (d : Dev) (b q : Nat) : Bool := !d.flag F.KEN_QCFG_enable (Ix.on b q) && decide (d.ledOut b 3 q = 0)

/-- The block of a partition range counts as idle when every key ID that leaves it is FREE, every queue disabled with nothing in
flight, every slot disabled (R454). -/
def Dev.partIdle (d : Dev) (r : Reg) (a : Ix) (v : Nat) : Bool :=
  match r with
  | .HRT_PART_KEY => (List.range 128).all (fun k => !(decide (d.rd F.HRT_PART_KEY_key_first a ≤ k) &&
      decide (k < d.rd F.HRT_PART_KEY_key_first a + d.rd F.HRT_PART_KEY_key_count a)) ||
      (decide (bits v 0 7 ≤ k) && decide (k < bits v 0 7 + bits v 7 7)) || decide (d.rd F.CRY_KEYSTATE_state (Ix.at k) = 0))
  | .HRT_PART_Q => (List.range (d.rd F.HRT_PART_Q_q_count a)).all (fun n =>
      let q := d.rd F.HRT_PART_Q_q_first a + n
      (decide (bits v 0 11 ≤ q) && decide (q < bits v 0 11 + bits v 11 12)) ||
      d.queueIdle a.j q)
  | _ => (List.range (d.rd F.HRT_PART_SLOT_s_count a)).all (fun n =>
      let q := d.rd F.HRT_PART_SLOT_s_first a + n
      (decide (bits v 0 10 ≤ q) && decide (q < bits v 0 10 + bits v 10 11)) || !d.flag F.SSW_SLOT_CFG_enable (Ix.on a.j q))

/-- Writes that the register's own chapter rejects in the state at hand. -/
def refusedNow (r : Reg) (a : Ix) (v : Nat) (d : Dev) : Bool :=
  match r with
  | .FAB_PLL_CFG => d.pllRefused a v
  | .FAB_PLL_STAT => !pllExists a.die a.i
  | .FAB_XB_SUM => !xbExists a.die a.i
  | .CRD_FAR_CFG => d.farPkgRefused a v
  | .NOC_ROUTE => (bits v 8 1 = 1 && !hasPort a.die a.i (bits v 0 4)) ||
      (bits v 9 1 = 1 && (!hasPort a.die a.i (bits v 4 4) || bits v 4 4 = bits v 0 4))
  | .NOC_INIT_CFG | .NOC_INIT_RD | .NOC_INIT_WR | .NOC_INIT_ERR | .NOC_INIT_HIST => !d.initAt a.die a.i
  | .LN_TXEQ => d.rd F.LN_CFG_mode a = 3 && d.rd F.LN_CFG_variant a = 0 && decide (d.rd F.LN_STAT_state a ≠ 8)
  | .LN_PAT => d.onAirOrRepair && decide (d.rd F.LN_CFG_mode a ≠ 1) && decide (bits v 0 3 ≠ 0)
  | .LN_ERRINJ => d.onAirOrRepair && decide (d.rd F.LN_CFG_mode a ≠ 1) && decide (bits v 0 2 ≠ 0)
  | .LN_NL_CFG => bits v 34 2 = 1
  | .KEN_QDB =>
    let dist := fun (x y : Nat) => (x + 2 ^ 32 - y) % 2 ^ 32
    let t := bits v 0 32
    !d.fab.step9 || !d.flag F.KEN_QCFG_enable a || d.flag F.KEN_QCFG_tmpl a || decide (0 < Tbl.get 0 d.ken.lost (a.die * 2048 + a.i)) ||
      decide (2 ^ 31 ≤ dist t (d.rd F.KEN_QDB_total a)) || decide (2 ^ d.rd F.KEN_QSQ_depth_log2 a < dist t (d.rd F.KEN_QPTR_done a))
  | .KEN_CR_CONS =>
    let dist := fun (x y : Nat) => (x + 2 ^ 32 - y) % 2 ^ 32
    decide (dist (d.rd F.KEN_CR_PROD_prod a) (d.rd F.KEN_CR_CONS_cons a) < dist (bits v 0 32) (d.rd F.KEN_CR_CONS_cons a))
  | .CRY_LINK => bits v 15 1 = 1 && !(decide (d.rd F.CRY_KEYSTATE_state (Ix.at (bits v 7 7)) = 1) &&
      decide (d.rd F.CRY_KEYSTATE_level (Ix.at (bits v 7 7)) = 3))
  | .HRT_PART_KEY => !d.isVf a.i || d.partOverlap r a (bits v 0 7) (bits v 7 7)
  | .HRT_PART_Q => !d.isVf a.i || d.partOverlap r a (bits v 0 11) (bits v 11 12)
  | .HRT_PART_SLOT => !d.isVf a.i || d.partOverlap r a (bits v 0 10) (bits v 10 11)
  | .HRT_BAR2 => d.isVf a.i && (decide (2 < bits v 0 12) || decide (bits v 12 7 = 0) || !d.keyInPart a.i (bits v 12 7))
  | .HRT_CQ_CFG => d.isVf a.i && decide (32 ≤ bits v 5 11)
  | .KEN_CR_CFG => d.isVf (bits v 1 6) && decide (32 ≤ bits v 9 11)
  | .HRT_CQ_TAIL => decide (2 ^ d.rd F.HRT_CQ_CFG_size_log2 a < (bits v 0 16 + 2 ^ 16 - d.rd F.HRT_CQ_HEAD_responses a) % 2 ^ 16) ||
      decide ((bits v 0 16 + 2 ^ 16 - d.rd F.HRT_CQ_HEAD_responses a) % 2 ^ 16 <
        (d.rd F.HRT_CQ_TAIL_tail a + 2 ^ 16 - d.rd F.HRT_CQ_HEAD_responses a) % 2 ^ 16)
  | .FLT_INJECT => d.mode == .onair || d.mode == .repair
  | .PWR_HOLD => d.mode == .ember && bits v 12 1 = 1
  | .LSH_CFG => decide (a.die ≠ 0)
  | .LSH_STAT => decide (a.die ≠ 0)
  | .LSH_EXC => decide (a.die ≠ 0)
  | _ => false

/-- A field of a register as an accessor. -/
def RegDef.fld (x : RegDef) (f : FieldDef) : Fld :=
  let ds := if x.shared then 0 else match x.space with | .base => 0x10000000 | .fabric => 0x1000000 | .stream => 0
  let b := match x.space with | .base => 0xF000000000 | .fabric => 0xF400000000 | .stream => 2 ^ 48
  ⟨ds, b + x.off, x.us, x.s1, x.s2, f.lo, f.w, f.reset, 16, 256⟩

/-- The readable fields of a register, assembled: WO fields read 0 (R6), reserved bits read 0 (R9). -/
def Dev.plainValue (d : Dev) (r : Reg) (a : Ix) : Nat :=
  (r.info.fields.map (fun f => if f.acc = .wo then 0 else d.rd (r.info.fld f) a * 2 ^ f.lo)).sum

/-- All fields of a register, WO ones included: the values in effect. -/
def Dev.plainValue' (d : Dev) (r : Reg) (a : Ix) : Nat :=
  (r.info.fields.map (fun f => d.rd (r.info.fld f) a * 2 ^ f.lo)).sum

/-- Whether an enabled slot writes or reads frame store k (R251). -/
def Dev.storeUsed (d : Dev) (k : Nat) : Bool :=
  (List.range 4096).any (fun g =>
    let a := Ix.on (g / 1024) (g % 1024)
    d.flag F.SSW_SLOT_CFG_enable a && decide (d.rd F.SSW_SLOT_CFG_fs a = k) &&
    (d.rd F.SSW_SLOT_CFG_src_type a = 3 || d.rd F.SSW_SLOT_CFG_sink_type a = 3))

/-- Whether an engine of a pack runs, saves, restores or is halted (R353). -/
def Dev.packBusy (d : Dev) (b q : Nat) : Bool :=
  (List.range 32).any (fun e => let s := d.rd F.PK_ENG_STAT_state { die := b, u := q, i := e }; decide (1 ≤ s) && decide (s ≤ 3))

/-- Whether an enabled slot delivers to stream index i of a pack (R353). -/
def Dev.ringUsed (d : Dev) (b q i : Nat) : Bool :=
  (List.range 4096).any (fun g =>
    let a := Ix.on (g / 1024) (g % 1024)
    d.flag F.SSW_SLOT_CFG_enable a && d.rd F.SSW_SLOT_CFG_sink_type a = 1 && decide (d.rd F.SSW_SLOT_CFG_sink_die a = b) &&
    decide (d.rd F.SSW_SLOT_CFG_sink_unit a = q) && decide (d.rd F.SSW_SLOT_CFG_sink_idx a = i))

/-- Tasks of a base die's Kennel that hold a save slot in pack p (R395). -/
def Dev.slotsHeld (d : Dev) (p : Nat) : List Nat :=
  (d.ken.ready.flatMap (fun e => e.2.filterMap (fun t => t.slot)) ++ d.ken.run.filterMap (fun e => e.2.bind (fun t => t.slot))).filterMap
    (fun s => if s / 32 = p then some (s % 32) else none)

/-- Whether a command of function fn has begun and not been answered: a stream, a MODE_SET that waits, a Kiln run. -/
def Dev.cmdRuns (d : Dev) (fn : Nat) : Bool :=
  let is := fun (c : Option HostCmd) => match c with | some x => decide (x.fn.val = fn) | none => false
  is d.cfg.cmd || is (d.pl.modeWait.bind (fun w => w.cmd)) || d.kln.slice.any (fun e => is (e.2.bind (fun x => x.cmd))) || d.kln.wait.any (fun w => decide (w.cmd.fn.val = fn))

/-- Whether no engine of pack q of base die b runs, saves, restores or is halted, no task holds a save slot there, and it accepts none (R508). -/
def Dev.packQuiet (d : Dev) (b q : Nat) : Bool :=
  (List.range 32).all (fun e => let s := d.rd F.PK_ENG_STAT_state { die := b, u := q, i := e }; !(s = 1 || s = 2 || s = 3)) &&
  (d.slotsHeld (8 * b + q)).isEmpty && !d.flag F.PK_CFG_accept { die := b, u := q }

/-- Whether every lane of lane group k has mode 0 and no far-mode group uses its lanes (R508). -/
def Dev.lanesQuiet (d : Dev) (b k : Nat) : Bool :=
  (List.range 4).all (fun i => d.rd F.LN_CFG_mode (Ix.on b (4 * k + i)) = 0) && (decide (k < 6) || !d.flag F.CRD_FAR_CFG_enable (Ix.on b (k - 6)))

/-- Whether every frame of clock row r of fabric die f is unconfigured (R508). -/
def Dev.rowEmpty (d : Dev) (f r : Nat) : Bool := d.pl.active.all (fun e => decide (bits e.1 20 4 ≠ f) || decide (bits e.1 16 4 ≠ r))

/-- Whether no enabled frame store has a copy in stack k (R508). -/
def Dev.stackQuiet (d : Dev) (k : Nat) : Bool :=
  (List.range 256).all (fun i =>
    let a := Ix.on (i / 64) (i % 64)
    !d.flag F.SSW_FS_CFG_enable a || (decide (d.rd F.SSW_FS_CFG_stack a ≠ k) &&
      (!d.flag F.SSW_FS_CFG_mirrored a || decide (d.rd F.SSW_FS_CFG_mirror_stack a ≠ k))))

/-- Whether the domain of bit n of `PWR_GATE` of base die b counts as idle (R508). -/
def Dev.gateIdle (d : Dev) (b n : Nat) : Bool :=
  if n < 8 then d.packQuiet b n
  else if n < 16 then d.lanesQuiet b (n - 8)
  else if n < 52 then d.rowEmpty (3 * b + (n - 16) / 12) ((n - 16) % 12)
  else d.stackQuiet (2 * b + (n - 52))

/-- Whether the block of a register's QUIESCE fields is idle (R10, and each chapter's own words). -/
def blockIdle (r : Reg) (a : Ix) (v : Nat) (d : Dev) : Bool :=
  match r with
  | .CRD_FAR_CFG => decide (d.rd F.CRD_FAR_STAT_state a = 0)
  | .SSW_FS_CFG => !d.storeUsed (a.die * 64 + a.i)
  | .LN_REF => (List.range 32).all (fun l => d.rd F.LN_CFG_mode (Ix.on a.die l) = 0 || decide (d.rd F.LN_CFG_ref_sel (Ix.on a.die l) ≠ a.i))
  | .LN_CFG => (List.range 6).all (fun n => !d.flag F.LN_NL_CFG_enable (Ix.on a.die n) || bits (d.rd F.LN_NL_CFG_lanes (Ix.on a.die n)) a.i 1 = 0)
  | .LN_NL_CFG => (List.range 32).all (fun l => (bits (d.rd F.LN_NL_CFG_lanes a) l 1 = 0 && bits v l 1 = 0) ||
      decide (d.rd F.LN_STAT_state (Ix.on a.die l) ≠ 7))
  | .PK_IMEM_CTL => !d.packBusy a.die a.u
  | .PK_ENG_CFG => d.rd F.PK_ENG_STAT_state a = 0
  | .PK_SRX_CFG => !d.ringUsed a.die a.u a.i
  | .KEN_CFG => (List.range 2048).all (fun q => d.queueIdle a.die q)
  | .KEN_SAVE => (d.slotsHeld (8 * a.die + a.i)).isEmpty
  | .KEN_CR_CFG => (Tbl.get [] d.ken.waiting (a.die * 256 + a.i)).isEmpty
  | .KEN_CR_BASE => (Tbl.get [] d.ken.waiting (a.die * 256 + a.i)).isEmpty
  | .KEN_QCFG => d.queueIdle a.die a.i
  | .KEN_QSQ => d.queueIdle a.die a.i
  | .CRY_LINK => decide (d.rd F.CRD_FAR_STAT_state (Ix.on a.die a.i) < 2)
  | .HBM_CFG => decide (d.rd F.HBM_STATUS_state a = 3) || decide (d.rd F.HBM_STATUS_state a = 0)
  | .HRT_CQ_BASE => !d.flag F.HRT_CQ_CFG_enable (Ix.at a.i)
  | .HRT_RQ_BASE => !d.flag F.HRT_CQ_CFG_enable (Ix.at a.i)
  | .HRT_CQ_CFG => !d.flag F.HRT_CQ_CFG_enable (Ix.at a.i) && !d.cmdRuns a.i
  | .HRT_PART_KEY => d.partIdle r a v
  | .HRT_PART_Q => d.partIdle r a v
  | .HRT_PART_SLOT => d.partIdle r a v
  | .PWR_GATE => (List.range 54).all (fun n => decide (bits v n 1 = bits (d.plainValue' .PWR_GATE a) n 1) || bits v n 1 = 0 || d.gateIdle a.die n)
  | .EVT_TR_CFG => (Tbl.get [] d.obs.fifo a.die).isEmpty
  | .EVT_TR_BUF => (Tbl.get [] d.obs.fifo a.die).isEmpty
  | _ => true

/-- The `CFG_` register at stream offset 8k (R98, R147). -/
def cfgReg (k : Nat) : Reg :=
  if k < 6 then .CFG_FENCE_GPIO else if k = 6 then .CFG_FENCE_LVDS else if k < 9 then .CFG_FENCE_LN else if k = 9 then .CFG_FENCE_OP
  else if k < 12 then .CFG_LANE_EN else .CFG_OPT_EN

/-- Its index. -/
def cfgIx (k : Nat) : Ix :=
  if k < 6 then Ix.at k else if k = 7 then Ix.at 0 else if k = 8 then Ix.at 1 else if k = 10 then Ix.at 0 else if k = 11 then Ix.at 1 else {}


/-- Whether a frame address lies in region n of fabric die f. -/
def Dev.inRegion (d : Dev) (f n frame : Nat) : Bool :=
  let a := Ix.on f n
  decide (bits frame 20 4 = f) && decide (d.rd F.FAB_RGN_DEF_first_row a ≤ bits frame 16 4) && decide (bits frame 16 4 ≤ d.rd F.FAB_RGN_DEF_last_row a) &&
  decide (d.rd F.FAB_RGN_DEF_first_col a ≤ bits frame 6 10) && decide (bits frame 6 10 < d.rd F.FAB_RGN_DEF_first_col a + d.rd F.FAB_RGN_DEF_width a)

/-- The live transaction that holds region n of fabric die f through a stream (R129). -/
def Dev.rgnTxn (d : Dev) (f n : Nat) : Option Nat :=
  (List.range 16).find? (fun t =>
    let s := d.rd F.HRT_TXN_STAT_state (Ix.at t)
    decide (1 ≤ s) && decide (s ≤ 5) && (Tbl.get TxnSt.empty d.pl.txn t).places.any (fun p => decide (p.1.die = f) && (p.1.rgn = n || p.1.rgn = 64)))

/-- A region's state (R150): undefined; in reset; restoring while frames of it await restore or resync; armed; else active when a frame of it is
configured, and vacant when none is. -/
def Dev.rgnState (d : Dev) (f n : Nat) : Nat :=
  if !d.flag F.FAB_RGN_DEF_defined (Ix.on f n) then 0
  else if d.fab.regionReset.contains (f * 64 + n) || d.fab.dieSwap.contains f then 4
  else if (d.pl.stale ++ d.pl.resync).any (d.inRegion f n) then 5
  else if (match d.rgnTxn f n with | some t => decide (d.rd F.HRT_TXN_STAT_state (Ix.at t) = 4) | none => false) then 3
  else if d.pl.active.any (fun e => d.inRegion f n e.1) then 2 else 1

/-- `FAB_RGN_STAT` as it reads. -/
def Dev.rgnShown (d : Dev) (a : Ix) : Nat :=
  d.rgnState a.die a.i + d.rd F.FAB_RGN_STAT_clk_stalled a * 2 ^ 3 +
  (match d.rgnTxn a.die a.i with | some t => t * 2 ^ 4 + 2 ^ 8 | none => 0) + d.rd F.FAB_RGN_STAT_relocated a * 2 ^ 9 +
  d.rd F.FAB_RGN_STAT_placed_col a * 2 ^ 10 + d.rd F.FAB_RGN_STAT_dropped_rsp a * 2 ^ 20


/-- `FAB_STATUS` as it reads: the die's outputs are fenced with the device's, and while the die is in reset (R80, R180). -/
def Dev.fabShown (d : Dev) (a : Ix) : Nat :=
  let v := d.plainValue .FAB_STATUS a
  let down := d.clk.inReset.contains (4 + a.die)
  v / 8 * 8 + v % 2 + (d.flag F.HRT_MODE_fenced {} || down).toNat * 2 + down.toNat * 4
/-- `CRD_SUM` of base die b (R204): cords narrowed, out of service, light cords narrowed, cords in training. -/
def Dev.cordSum (d : Dev) (b : Nat) : Nat :=
  let n := fun (s : Nat) => ((List.range 224).filter (fun n => decide (d.rd F.CRD_CORD_STAT_state (Ix.on b n) = s))).length
  let l := ((List.range 16).filter (fun m => decide (d.rd F.CRD_LC_STAT_state (Ix.on b m) = 3))).length
  n 3 % 256 + n 5 % 256 * 2 ^ 8 + l * 2 ^ 16 + n 1 % 256 * 2 ^ 24

/-- Whether base die b is the higher-numbered die of its horizontal (q = 0) or vertical (q = 1) pair (R181). -/
def hiDie (b q : Nat) : Bool := if q = 0 then decide (b % 2 = 1) else decide (2 ≤ b)

/-- Whether base die b receives the data of its cord of register index n (R181, R204). -/
def cordRxEnd (b n : Nat) : Bool :=
  if n < 96 then decide (n % 32 < 16) else
  let k := (n - 96) % 64
  hiDie b ((n - 96) / 64) == decide (k < 32)

/-- Whether base die b receives the data of its light cord of index m. -/
def lightRxEnd (b m : Nat) : Bool := hiDie b (m / 8) == decide (m % 8 < 4)

/-- A far-mode group's state as it reads: in SAFE an ACTIVE group is fenced (R80, R202). -/
def Dev.farShown (d : Dev) (a : Ix) : Nat :=
  let v := d.plainValue .CRD_FAR_STAT a
  if d.mode == .safe && decide (3 ≤ v % 8) then v / 8 * 8 + 5 else v
/-- The buffer pool of base die b as it reads (R255): allotments and reservations are the outstanding buffers of the ledger. -/
def Dev.poolShown (d : Dev) (b : Nat) : Nat :=
  let out := d.ledOut b 2 0
  let res := (List.range 16).map (fun t => Tbl.get 0 d.ssw.reserved (t * 4 + b)) |>.sum
  (65536 - out) + (out - res) * 2 ^ 17 + res * 2 ^ 34

/-- Whether the block at an end of a slot lies in a domain that is closing or off (R225, R256). -/
def Dev.endShut (d : Dev) (b t u : Nat) : Bool :=
  d.clk.inReset.contains b || d.clk.clockLost.contains b || d.clk.failed.contains b ||
  (match t with
   | 1 => d.noc.closing.contains (.pack (Fin.ofNat 32 (8 * b + u))) || d.noc.drained.contains (.pack (Fin.ofNat 32 (8 * b + u)))
   | 2 => d.clk.inReset.contains (4 + 3 * b + u) || d.clk.clockLost.contains (4 + 3 * b + u) || d.clk.failed.contains (4 + 3 * b + u) ||
          d.noc.closing.contains (.fabric (Fin.ofNat 12 (3 * b + u))) || d.noc.drained.contains (.fabric (Fin.ofNat 12 (3 * b + u)))
   | 0 => (List.range 8).any (fun k => (d.noc.closing.contains (.lanes (Fin.ofNat 4 b) (Fin.ofNat 8 k)) ||
            d.noc.drained.contains (.lanes (Fin.ofNat 4 b) (Fin.ofNat 8 k))) &&
          (List.range 4).any (fun i => decide (d.rd F.LN_CFG_pg (Ix.on b (4 * k + i)) = u)))
   | _ => false)

/-- A slot's status as it reads: 3 with its source closed, 4 with its sink closed. -/
def Dev.slotShown (d : Dev) (a : Ix) : Nat :=
  let v := d.plainValue .SSW_SLOT_STAT a
  if !d.flag F.SSW_SLOT_CFG_enable a then v
  else if d.endShut (d.rd F.SSW_SLOT_CFG_sink_die a) (d.rd F.SSW_SLOT_CFG_sink_type a) (d.rd F.SSW_SLOT_CFG_sink_unit a) then v / 8 * 8 + 4
  else if d.endShut a.die (d.rd F.SSW_SLOT_CFG_src_type a) (d.rd F.SSW_SLOT_CFG_src_unit a) then v / 8 * 8 + 3
  else v

/-- Whether serial outputs are fenced (R80, R292). -/
def Dev.lanesFenced (d : Dev) : Bool := d.mode == .safe || d.mode == .ember

/-- `MP_PG_STAT` as it reads: locked SDI channels, MACs whose lanes are up, the native link, the fence, PN warnings (R319). -/
def Dev.pgStat (d : Dev) (a : Ix) : Nat :=
  let sdi := ((List.range 8).map (fun c => d.rd F.MP_SDI_STAT_locked { a with i := c } * 2 ^ c)).sum
  let up := fun (m : Nat) =>
    let c := { a with i := m }
    d.flag F.MP_MAC_CFG_enable c && (List.range (if d.rd F.MP_MAC_CFG_width c = 1 then 4 else 1)).all (fun k =>
      decide (d.rd F.LN_STAT_state (Ix.on a.die (d.rd F.MP_MAC_CFG_lane c + k)) = 8))
  let mac := ((List.range 4).map (fun m => (up m).toNat * 2 ^ m)).sum
  let nl := (List.range 6).any (fun n => d.flag F.LN_NL_CFG_enable (Ix.on a.die n) && d.rd F.LN_NL_CFG_user (Ix.on a.die n) = 0 &&
    decide (d.rd F.LN_NL_CFG_pg (Ix.on a.die n) = a.u) && decide (2 ≤ d.rd F.LN_NL_STAT_state (Ix.on a.die n)))
  sdi + mac * 2 ^ 8 + nl.toNat * 2 ^ 12 + d.lanesFenced.toNat * 2 ^ 13 + d.rd F.MP_PG_STAT_pn_warn a * 2 ^ 14

/-- Bits of a pack's 32 engines that satisfy `p`. -/
def engBits (p : Nat → Bool) : Nat := ((List.range 32).map (fun e => (p e).toNat * 2 ^ e)).sum

/-- The number of engine e of pack q of base die b. -/
def engNo (b q e : Nat) : Nat := (8 * b + q) * 32 + e

/-- `PK_ENG_STAT` as it reads: `in_handler`, `redirect` and `ll_open` come from the engine. -/
def Dev.engShown (d : Dev) (a : Ix) : Nat :=
  let x := Tbl.get EngSt.fresh d.en.eng (engNo a.die a.u a.i)
  d.plainValue .PK_ENG_STAT a + x.ll.isSome.toNat * 2 ^ 20 + (Tbl.get 0 x.regs 135) % 2 * 2 ^ 21 +
    (decide (d.rd F.PK_ENG_STAT_state a = 3) && x.redirect.isSome).toNat * 2 ^ 22

/-- Tasks whose descriptors the on-die store of base die b holds (R388): ready, running and delayed ones, but for those spilled. -/
def Dev.kenStored (d : Dev) (b : Nat) : Nat :=
  ((d.ken.ready.map (fun e => if e.1 / 2048 = b then (e.2.filter (fun t => !t.spilled)).length else 0)).sum +
   (d.ken.run.filter (fun e => match e.2 with | some t => decide (t.q / 2048 = b) | none => false)).length +
   (Tbl.get [] d.ken.delay b).length)

/-- ENG cycles in a number of ROOT cycles (R36). -/
def engCycles (n : Nat) : Nat := n / 2

/-- Whether a running task's cycles count: its engine neither saves nor restores it and is not halted. -/
def Dev.taskRuns (d : Dev) (e : Nat) (t : Task) : Bool := t.phase == .runs && decide (d.rd F.PK_ENG_STAT_state { die := e / 256, u := e / 32 % 8, i := e % 32 } = 1)

/-- The function that owns a queue (R454): the virtual function whose partition holds it, else function 0. -/
def Dev.queueOwner (d : Dev) (b q : Nat) : Nat := ((List.range 64).find? (fun f => d.isVf f && d.queueInPart f b q)).getD 0

/-- A queue's state as it reads (R414). -/
def Dev.queueState (d : Dev) (b q : Nat) : Nat :=
  if d.ken.badTmpl.contains (b * 2048 + q) then 3
  else if d.flag F.KEN_QCFG_enable (Ix.on b q) then 1
  else if d.queueIdle b q then 0 else 2

/-- `CRY_STATUS` of base die b (R449): controllers ACTIVE, a sweep under way, a region initialising. -/
def Dev.cryStatus (d : Dev) (b : Nat) : Nat :=
  let up := fun (c : Nat) => decide (d.rd F.HBM_STATUS_state { die := b, u := c } = 2)
  let any := fun (s : Nat) => (List.range 2).any (fun c => (List.range 64).any (fun n =>
    decide (d.rd F.CRY_RGN_state { die := b, u := c, i := n } = s)))
  (up 0).toNat + 2 * (up 1).toNat + 4 * (any 3).toNat + 8 * (any 1).toNat
/-- The unit that Kiln tests on base die b out of service (R497). -/
def Dev.fullTest (d : Dev) (b u : Nat) : Bool :=
  match Tbl.get none d.kln.slice b with
  | some x => decide (x.unit = u) && x.full
  | none => false

/-- The unit whose slice runs on base die b. -/
def Dev.underSlice (d : Dev) (b u : Nat) : Bool :=
  match Tbl.get none d.kln.slice b with
  | some x => decide (x.unit = u) && !x.full
  | none => false

/-- Whether unit u of base die b, numbered as in R503, is out of service (R496, R503). -/
def Dev.unitFailed (d : Dev) (b u : Nat) : Bool :=
  if u < 256 then decide (d.rd F.PK_ENG_STAT_state { die := b, u := u / 32, i := u % 32 } = 4) || d.fullTest b u
  else if u < 288 then decide (d.rd F.NOC_RT_STAT_state (Ix.on b (u - 256)) = 4) || d.fullTest b u
  else if u < 392 then d.flag F.KLN_RES_failed (Ix.on b u)
  else if u < 401 then decide (bits (d.rd F.SSW_STATUS_de_up (Ix.onDie b)) (u - 392) 1 = 0) && !d.underSlice b u
  else decide (bits (d.rd F.KEN_STATUS_lane_up (Ix.onDie b)) (u - 401) 1 = 0) && !d.underSlice b u

/-- `hold_ok` (R513): VHOLD at 10.0 V or more, and, with `cap_test` set, the last capacitance measurement passed. -/
def Dev.holdOk (d : Dev) : Bool := decide (10000 ≤ d.rd F.PWR_STATUS_vhold_mv {}) && (!d.flag F.PWR_HOLD_cap_test {} || d.pwr.capOk)

/-- The 64 bytes of a trace packet (R528, R529) as eight words. -/
def TracePkt.words (p : TracePkt) : List Nat :=
  [p.ptype + p.die * 2 ^ 8 + p.src * 2 ^ 16 + p.tseq * 2 ^ 32, p.ns + p.sec * 2 ^ 32] ++ p.payload

/-- Registers whose value is computed when they are read. -/
def Dev.readHook (d : Dev) (r : Reg) (a : Ix) : Option Nat :=
  match r with
  | .HT_NOW_LO => some (d.sec % 2 ^ 16 * 2 ^ 48 + d.ns * 2 ^ 16 + d.frac)
  | .HT_NOW_HI => some (d.sec % 2 ^ 48)
  | .FAB_RGN_DEF => some (a.die + d.plainValue r a)
  | .HRT_CFG_RD => some (d.plainValue' (cfgReg a.i) (cfgIx a.i))
  | .FAB_RGN_STAT => some (d.rgnShown a)
  | .FAB_STATUS => some (d.fabShown a)
  | .FAB_PLL_CFG | .FAB_PLL_STAT => if 4 ≤ a.i && a.die % 3 ≠ 1 then some 0 else none
  | .FAB_ID => some (a.die + a.die / 3 * 2 ^ 4 + d.fuse.grade * 2 ^ 6)
  | .CRD_SUM => some (d.cordSum a.die)
  | .CRD_CORD_STAT => some (d.plainValue r a ||| (cordRxEnd a.die a.i).toNat * 2 ^ 7)
  | .CRD_LC_STAT => some (d.plainValue r a ||| (lightRxEnd a.die a.i).toNat * 2 ^ 7)
  | .CRD_FAR_STAT => some (d.farShown a)
  | .NOC_INIT_CFG | .NOC_INIT_RD | .NOC_INIT_WR | .NOC_INIT_ERR | .NOC_INIT_HIST =>
      if d.initAt a.die a.i then none else some 0
  | .SSW_POOL => some (d.poolShown a.die)
  | .SSW_SLOT_STAT => some (d.slotShown a)
  | .LN_STAT => let v := d.plainValue r a; some (if d.lanesFenced && (v % 16 = 7 || v % 16 = 8) then v / 16 * 16 + 9 else v)
  | .LN_NL_STAT => let v := d.plainValue r a; some (if d.lanesFenced && (v % 8 = 2 || v % 8 = 3) then v / 8 * 8 + 4 else v)
  | .MP_PG_STAT => some (d.pgStat a)
  | .MP_SEC_TXPN => some (Tbl.get 1 d.mp.pn (saKey a (d.rd F.MP_SEC_CFG_tx_an a)) % 2 ^ 64)
  | .PK_ENG_RUN => some (engBits (fun e => let s := d.rd F.PK_ENG_STAT_state { a with i := e }; s = 1 || s = 2) +
      engBits (fun e => decide (d.rd F.PK_ENG_STAT_state { a with i := e } = 3)) * 2 ^ 32)
  | .PK_ENG_POOL => some (engBits (fun e => !d.en.out.contains (engNo a.die a.u e)) +
      engBits (fun e => decide (d.rd F.PK_ENG_STAT_state { a with i := e } = 4)) * 2 ^ 32)
  | .PK_ENG_STAT => some (d.engShown a)
  | .PK_ENG_PC => some ((Tbl.get EngSt.fresh d.en.eng (engNo a.die a.u a.i)).pc % 2 ^ 18 + d.rd F.PK_ENG_PC_exc_pc a * 2 ^ 18)
  | .KEN_STATUS => some (d.plainValue .KEN_STATUS a % 2 ^ 10 +
      (65536 - ((List.range 2048).map (fun q => d.ledOut a.die 3 q)).sum) * 2 ^ 10 + min (2 ^ 14 - 1) (d.kenStored a.die) * 2 ^ 27 +
      min (2 ^ 15 - 1) (Tbl.get [] d.ken.delay a.die).length * 2 ^ 41)
  | .KEN_ENG_LOAD => some ((d.plainValue .KEN_ENG_LOAD a + (match Tbl.get none d.ken.run (a.die * 256 + a.i) with
      | some t => if d.taskRuns (a.die * 256 + a.i) t then engCycles (d.root - t.since) else 0
      | none => 0)) % 2 ^ 48)
  | .KEN_QSTAT =>
      let q := a.die * 2048 + a.i
      some (min (2 ^ 17 - 1) (Tbl.get [] d.ken.ready q).length +
        min (2 ^ 15 - 1) ((Tbl.get [] d.ken.delay a.die).filter (fun e => decide (e.q = q))).length * 2 ^ 17 +
        min 511 (d.ken.run.filter (fun e => match e.2 with | some t => decide (t.q = q) | none => false)).length * 2 ^ 32 +
        d.queueState a.die a.i * 2 ^ 41 + d.queueOwner a.die a.i * 2 ^ 43)
  | .CRY_STATUS => some (d.cryStatus a.die)
  | .CRY_KEYSTATE => if a.i = 0 then some 1 else none
  | .HRT_ID => some (0x1296 + 0xB1 * 2 ^ 16 + d.fuse.grade * 2 ^ 24 + d.fuse.temp * 2 ^ 26 + d.fuse.lid * 2 ^ 27 +
      d.fuse.hostaSplit.toNat * 2 ^ 28 + d.fuse.hostbEn.toNat * 2 ^ 29)
  | .HRT_SN => some d.fuse.deviceSn
  | .FLT_REC => some (match Tbl.get none d.flt.ring a.i with
      | some x => x.words.getD a.j 0
      | none => 0)
  | .LDG_POOL_OUT => some ((d.rd F.LDG_POOL_ISS_count a + 2 ^ 64 - d.rd F.LDG_POOL_RET_count a) % 2 ^ 64)
  | .KLN_RES => some (d.plainValue r a / 2 ^ 31 * 2 ^ 31 + d.plainValue r a % 2 ^ 17 + d.rd F.KLN_RES_overdue a * 2 ^ 29 + min 4095 (d.root / (60000 * 3200000) - Tbl.get 0 d.kln.passAt (a.die * 410 + a.i)) * 2 ^ 17 +
      (d.unitFailed a.die a.i).toNat * 2 ^ 30)
  | .PWR_STATUS => some (d.plainValue r a / 8 * 8 + d.plainValue r a % 4 + d.holdOk.toNat * 4)
  | .EVT_TR_DATA => some (match Tbl.get [] d.obs.fifo a.die with
      | p :: _ => p.words.getD a.j 0
      | [] => 0)
  | .LSH_CFG | .LSH_EXC => if a.die = 0 then none else some 0
  | .LSH_STAT => if a.die = 0 then some (d.plainValue r a + min 127 ((d.lsh.lockUntil - d.root + 3199999999) / 3200000000) * 2 ^ 22) else some 0
  | _ => none

/-- The value a read of a register returns. -/
def Dev.regRead (d : Dev) (r : Reg) (a : Ix) : Nat :=
  match d.readHook r a with
  | some v => v
  | none => d.plainValue r a

end Sys2Proof.Machine
end

