-- ==== Sys2Proof/Machine/RegOps.lean ====
section
/-! DEFINITION. Register access: finding a register by its device address, the checks of R9 and R580, the change classes of R10 and
R124, default transactions (R125), and reads with and without their side effects (R6 to R8). Log entries: DEDUCED 16, 17, 30, 36. -/

namespace Sys2Proof.Machine

/-! ### Addresses -/

/-- A register access resolved: the register, its instance, and the die code (R476) whose control space the address names. -/
structure Target where
  reg : Reg
  ix : Ix
  die : Nat
  off : Nat
  deriving DecidableEq, Repr

/-- The instance of register `x` that control-space offset `off` of die `die` names, if any. -/
def RegDef.matchOff (x : RegDef) (die off : Nat) : Option Ix :=
  if off < x.off then none else
  let r0 := off - x.off
  let u := if x.us = 0 then 0 else r0 / x.us
  let r1 := r0 - u * x.us
  let i := if x.s1 = 0 then 0 else r1 / x.s1
  let r2 := r1 - i * x.s1
  let j := if x.s2 = 0 then 0 else r2 / x.s2
  let r3 := r2 - j * x.s2
  if r3 = 0 && decide (u < x.uc) && decide (i < x.c1) && decide (j < x.c2) then
    some { die := if x.shared then 0 else die, u := u, i := i, j := j }
  else none

/-- The register of a list at an offset of a die's control space. -/
def findIn (sp : Space) (die off : Nat) : List Reg → Option (Reg × Ix)
  | [] => none
  | r :: rest =>
    if r.info.space = sp then
      match r.info.matchOff die off with
      | some a => some (r, a)
      | none => findIn sp die off rest
    else findIn sp die off rest

/-- The register at a device address: base die control space (R22) or fabric die control space (R150). -/
def findReg (addr : Nat) : Option Target :=
  if 0xF000000000 ≤ addr && decide (addr < 0xF040000000) then
    let o := addr - 0xF000000000
    (findIn .base (o / 0x10000000) (o % 0x10000000) allRegs).map (fun p => ⟨p.1, p.2, o / 0x10000000, o % 0x10000000⟩)
  else if 0xF400000000 ≤ addr && decide (addr < 0xF40C000000) then
    let o := addr - 0xF400000000
    (findIn .fabric (o / 0x1000000) (o % 0x1000000) allRegs).map (fun p => ⟨p.1, p.2, 4 + o / 0x1000000, o % 0x1000000⟩)
  else none

/-- Whether an address lies in some die's control space. -/
def isControl (addr : Nat) : Bool :=
  (0xF000000000 ≤ addr && decide (addr < 0xF040000000)) || (0xF400000000 ≤ addr && decide (addr < 0xF40C000000))

/-- The die code of a control-space address. -/
def dieOfAddr (addr : Nat) : Nat :=
  if addr < 0xF400000000 then (addr - 0xF000000000) / 0x10000000 else 4 + (addr - 0xF400000000) / 0x1000000

/-- The block of a control-space address (R476): the index of its offset in the block table; 0 on a fabric die. -/
def blockOfAddr (addr : Nat) : Nat :=
  if addr < 0xF400000000 then (addr - 0xF000000000) % 0x10000000 / 0x1000000 else 0

/-- Whether the base die that a control-space access travels to is closing, off, in reset or without a clock (R224, R576). -/
def Dev.dieOff (d : Dev) (b : Nat) : Bool :=
  d.clk.clockLost.contains b || d.clk.inReset.contains b || d.clk.failed.contains b || d.clk.closing.contains b

/-! ### Checks -/

/-- The part of a value that lies in fields of a register. -/
def RegDef.fieldBits (x : RegDef) (v : Nat) : Nat := (x.fields.map (fun f => bits v f.lo f.w * 2 ^ f.lo)).sum

/-- Whether one field's written value is in its stated range; RO and RC fields are ignored (R6, R9). -/
def FieldDef.inRange (f : FieldDef) (v : Nat) : Bool :=
  match f.acc with
  | .rw | .wo => decide (f.min ≤ bits v f.lo f.w) && decide (bits v f.lo f.w ≤ f.max)
  | _ => true

/-- The checks of R9 on a written value: reserved bits zero, every field in range, the register's own rules. -/
def checkR9 (r : Reg) (a : Ix) (v : Nat) : Bool :=
  decide (v < 2 ^ 64) && decide (r.info.fieldBits v = v) && r.info.fields.all (fun f => f.inRange v) && regRule r a v

/-- Whether a field can be written. -/
def FieldDef.writable (f : FieldDef) : Bool := f.acc = .rw || f.acc = .wo || f.acc = .w1c || f.acc = .w1s

/-- Whether a register holds a field of class LIVE, STAGED or QUIESCE (R96, R577). -/
def Reg.hasWritable (r : Reg) : Bool := r.info.fields.any (fun f => decide (f.chg ≠ .fixed))

/-- The value that a write gives a field (R6): W1C clears and W1S sets the bits written as 1. -/
def newField (f : FieldDef) (old v : Nat) : Nat :=
  match f.acc with
  | .w1c => old - (old &&& bits v f.lo f.w)
  | .w1s => old ||| bits v f.lo f.w
  | .rw | .wo => bits v f.lo f.w
  | _ => old

/-- Write the fields of a register that satisfy `p`. -/
def Dev.writeFields (d : Dev) (r : Reg) (a : Ix) (v : Nat) (p : FieldDef → Bool) : Dev :=
  r.info.fields.foldl (fun d f =>
    if f.writable && p f then d.st (r.info.fld f) a (newField f (d.rd (r.info.fld f) a) v) else d) d

/-! ### Transactions: numbers, staging, conflicts (R123 to R125, R129) -/

/-- State codes of R123. -/
def tIDLE : Nat := 0
/-- OPEN. -/
def tOPEN : Nat := 1
/-- LOADING. -/
def tLOADING : Nat := 2
/-- READY. -/
def tREADY : Nat := 3
/-- ARMED. -/
def tARMED : Nat := 4
/-- LAUNCHED. -/
def tLAUNCHED : Nat := 5
/-- COMMITTED. -/
def tCOMMITTED : Nat := 6
/-- ROLLED_BACK. -/
def tROLLED : Nat := 7
/-- FAILED. -/
def tFAILED : Nat := 8

/-- What a transaction holds beside its registers. -/
def Dev.txn (d : Dev) (t : Nat) : TxnSt := Tbl.get TxnSt.empty d.pl.txn t

/-- Change what a transaction holds. -/
def Dev.setTxn (d : Dev) (t : Nat) (x : TxnSt) : Dev := { d with pl := { d.pl with txn := d.pl.txn.set TxnSt.empty t x } }

/-- The state of a transaction. -/
def Dev.tState (d : Dev) (t : Nat) : Nat := d.rd F.HRT_TXN_STAT_state (Ix.at t)

/-- Its owner. -/
def Dev.tOwner (d : Dev) (t : Nat) : Nat := d.rd F.HRT_TXN_STAT_owner (Ix.at t)

/-- Set a transaction's state. -/
def Dev.setTState (d : Dev) (t s : Nat) : Dev := d.st F.HRT_TXN_STAT_state (Ix.at t) s

/-- The owner number of a writer (R125). -/
def ownerOf : Writer → Nat
  | .fn n => n
  | .leash => 254
  | .other => 253

/-- Transactions that count as open: from TXN_BEGIN until the number returns to IDLE (R123). -/
def Dev.held (d : Dev) (t : Nat) : Bool := decide (d.tState t ≠ tIDLE)

/-- Whether a transaction is live: it may still commit. -/
def Dev.tLive (d : Dev) (t : Nat) : Bool := decide (1 ≤ d.tState t) && decide (d.tState t ≤ tLAUNCHED)

/-- The lowest free transaction number. -/
def Dev.freeTxn (d : Dev) : Option Nat := (List.range 16).find? (fun t => !d.held t)

/-- How many numbers an owner holds. -/
def Dev.ownerCount (d : Dev) (owner : Nat) : Nat := ((List.range 16).filter (fun t => d.held t && decide (d.tOwner t = owner))).length

/-- Open a transaction for an owner (R123, R125): none where no number is free or a host function already holds 4. -/
def Dev.openTxn (d : Dev) (owner : Nat) (dflt : Bool) (timeout : Nat) : Option (Nat × Dev) :=
  match d.freeTxn with
  | none => none
  | some t =>
    if decide (owner < 64) && decide (4 ≤ d.ownerCount owner) then none else
    let d := (d.setTState t tOPEN).st F.HRT_TXN_STAT_owner (Ix.at t) owner
    let d := ((d.st F.HRT_TXN_STAT_writes (Ix.at t) 0).st F.HRT_TXN_STAT_streams (Ix.at t) 0).st F.HRT_TXN_STAT_status (Ix.at t) 0
    let d := (d.st F.HRT_TXN_STAT_stream_err (Ix.at t) 0).st F.HRT_TXN_STAT_base_mask (Ix.at t) 0
    let d := (d.st F.HRT_TXN_AT_ns (Ix.at t) 0).st F.HRT_TXN_AT_sec (Ix.at t) 0
    some (t, d.setTxn t { TxnSt.empty with dflt := dflt, timeout := timeout })

/-- The default transaction of an owner that still takes writes: OPEN or READY (R125). -/
def Dev.dfltTxn (d : Dev) (owner : Nat) : Option Nat :=
  (List.range 16).find? (fun t => (d.tState t = tOPEN || d.tState t = tREADY) && decide (d.tOwner t = owner) && (d.txn t).dflt)

/-- Whether a live transaction other than `except` has staged a register (R124, R129); the routing tables of the whole device count as one register, which
a draining epoch holds as well (R217). -/
def Dev.stagedBy (d : Dev) (r : Reg) (a : Ix) (except : Option Nat) : Bool :=
  (List.range 16).any (fun t => d.tLive t && decide (except ≠ some t) &&
    (d.txn t).staged.regs.any (fun e => e == (r, a) || (decide (r = .NOC_ROUTE) && decide (e.1 = .NOC_ROUTE)))) ||
  (decide (r = .NOC_ROUTE) && d.flag F.NOC_STATUS_epoch_draining {})

/-- Stage the fields of a register that satisfy `p`. -/
def Staged.stage (s : Staged) (r : Reg) (a : Ix) (v : Nat) (p : FieldDef → Bool) : Staged :=
  { s with
    vals := r.info.fields.foldl (fun t f => if f.writable && p f then t.put ((r.info.fld f).key a) (bits v f.lo f.w) else t) s.vals
    regs := if s.regs.contains (r, a) then s.regs else s.regs ++ [(r, a)] }

/-- The values that will be in force once what is staged has applied. -/
def Dev.applyStaged (d : Dev) (s : Staged) : Dev :=
  s.regs.foldl (fun d e =>
    e.1.info.fields.foldl (fun d f =>
      let k := (e.1.info.fld f).key e.2
      match (s.vals.find? (fun x => x.1 == k)) with
      | some (_, v) => d.st (e.1.info.fld f) e.2
          (match f.acc with | .w1c => d.rd (e.1.info.fld f) e.2 - (d.rd (e.1.info.fld f) e.2 &&& v) | .w1s => d.rd (e.1.info.fld f) e.2 ||| v | _ => v)
      | none => d) d) d

/-- The staged value of a field, or the value in effect. -/
def Dev.stagedOr (d : Dev) (s : Staged) (f : Fld) (a : Ix) : Nat :=
  match s.vals.find? (fun x => x.1 == f.key a) with
  | some (_, v) => v
  | none => d.rd f a

/-- The offset from its die's control space of a register instance. -/
def Reg.offset (r : Reg) (a : Ix) : Nat := r.info.off + r.info.us * a.u + r.info.s1 * a.i + r.info.s2 * a.j

/-- The first staged register whose rules between registers break (R580), by offset. -/
def Dev.firstBroken (d : Dev) (s : Staged) : Option Nat :=
  let d' := d.applyStaged s
  (s.regs.find? (fun e => !crossOk e.1 e.2 d')).map (fun e => e.1.offset e.2)

/-- Add a staged register write to a transaction and its counts (R123); `base_mask` marks the base die touched. -/
def Dev.stageReg (d : Dev) (t : Nat) (r : Reg) (a : Ix) (v : Nat) (p : FieldDef → Bool) : Dev :=
  let d := d.setTxn t { d.txn t with staged := (d.txn t).staged.stage r a v p }
  let d := d.st F.HRT_TXN_STAT_writes (Ix.at t) (d.rd F.HRT_TXN_STAT_writes (Ix.at t) + 1)
  let b := if r.info.space = .fabric then a.die / 3 else a.die
  d.st F.HRT_TXN_STAT_base_mask (Ix.at t) (d.rd F.HRT_TXN_STAT_base_mask (Ix.at t) ||| 2 ^ b)

/-! ### Stream Switch buffers that an armed transaction reserves (R255) -/

/-- Buffers that transaction t reserves of slice b. -/
def Dev.reservedBy (d : Dev) (t b : Nat) : Nat := Tbl.get 0 d.ssw.reserved (t * 4 + b)

/-- A transaction that leaves ARMED without a commit gives its reservation back. -/
def Dev.unreserve (d : Dev) (t : Nat) : Dev :=
  (List.range 4).foldl (fun (d : Dev) (b : Nat) =>
    { (d.giveBack b 2 0 (d.reservedBy t b)) with ssw := { d.ssw with reserved := d.ssw.reserved.set 0 (t * 4 + b) 0 } }) d

/-! ### Rejection (R12, R576) -/

/-- A rejected write that came over the network: the block's rejected-write status and a NOTE record of class REGISTER. -/
def Dev.rejectWrite (d : Dev) (addr : Nat) (inst : Nat) : Dev :=
  let die := dieOfAddr addr
  let blk := blockOfAddr addr
  let off := addr % (if die < 4 then 0x10000000 else 0x1000000)
  let d := { d with flt := { d.flt with rejected := d.flt.rejected.set false (die * 16 + blk) true } }
  d.occur { die := die, block := blk, inst := inst, cls := 23, sev := sevNote, sub := off / 8 % 4096, detail := off }

/-! ### Virtual functions (R453, R456) -/

/-- Whether a register is one of those that R456 lets a virtual function reach beside its own HRT registers. -/
def Dev.vfOwns (d : Dev) (fn : Nat) (r : Reg) (a : Ix) : Bool :=
  match r with
  | .KEN_QCFG | .KEN_QSQ => d.queueInPart fn a.die a.i
  | .KEN_CR_BASE | .KEN_CR_CFG => decide (d.rd F.KEN_CR_CFG_owner (Ix.on a.die a.i) = fn)
  | .SSW_SLOT_CFG | .SSW_SLOT_RATE | .SSW_SLOT_TWIN => d.slotInPart fn a.die a.i
  | _ => false

/-- Whether a register is one of the registers of function `fn` in the HRT block. -/
def ownHrt (fn : Nat) (r : Reg) (a : Ix) : Bool :=
  (match r with
   | .HRT_CQ_BASE | .HRT_RQ_BASE | .HRT_CQ_CFG | .HRT_CQ_TAIL | .HRT_CQ_HEAD | .HRT_BAR2 | .HRT_FN_STAT | .HRT_PART_KEY
   | .HRT_PART_Q | .HRT_PART_SLOT => true
   | _ => false) && decide (a.i = fn)

/-- Whether R456 denies a virtual function's BAR0 access to a register. -/
def Dev.vfBarred (d : Dev) (w : Writer) (r : Reg) (a : Ix) : Bool :=
  match w with
  | .fn n => d.isVf n && !(ownHrt n r a || d.vfOwns n r a)
  | _ => false

/-- Count an access that R456 refuses a virtual function. -/
def Dev.countDenied (d : Dev) (w : Writer) : Dev :=
  match w with
  | .fn n => d.bump F.HRT_FN_STAT_vf_denied (Ix.at n)
  | _ => d

/-! ### A direct write (R124) -/

/-- The STAGED fields of a written value that differ from their reference value: what the writer's default transaction has staged,
or the value in effect. -/
def Dev.stagedChanges (d : Dev) (r : Reg) (a : Ix) (v : Nat) (ref : Staged) : List FieldDef :=
  r.info.fields.filter (fun f => f.writable && f.chg = .staged && decide (bits v f.lo f.w ≠ d.stagedOr ref (r.info.fld f) a))

/-- The QUIESCE fields that differ from the value in effect. -/
def Dev.quiesceChanges (d : Dev) (r : Reg) (a : Ix) (v : Nat) : List FieldDef :=
  r.info.fields.filter (fun f => f.writable && f.chg = .quiesce && decide (bits v f.lo f.w ≠ d.rd (r.info.fld f) a))

/-- The generators that a write to a cadence register reaches (R56): all four base dies when `link_all` is set in the program that the
write leaves. -/
def Dev.linked (d : Dev) (r : Reg) (a : Ix) (v : Nat) (ref : Staged) : List Ix :=
  let all := (List.range 4).map (fun b => { a with die := b })
  match r with
  | .HT_CG_CFG => if bits v 1 1 = 1 then all else [a]
  | .HT_CG_SWP | .HT_CG_USR => if d.stagedOr ref F.HT_CG_CFG_link_all a = 1 then all else [a]
  | _ => [a]

/-- The fields of a direct write that take effect at once: LIVE fields, fields with no class, and QUIESCE fields that change. -/
def Dev.applyLive (d : Dev) (r : Reg) (a : Ix) (v : Nat) : Dev :=
  d.writeFields r a v (fun f => f.chg = .live || f.chg = .quiesce)

/-- The 20 µs lead after which the device arms a default transaction itself starts again at each staged write; the transaction's state
stays OPEN or READY until DEFAULT_TXN_AUTO_ARM (R125). -/
def Dev.stageDefault (d : Dev) (owner t : Nat) (r : Reg) (l : List Ix) (v : Nat) (fs : List FieldDef) : Dev :=
  let d := l.foldl (fun d a => d.stageReg t r a v (fun f => fs.contains f)) d
  d.on (decide (owner < 64)) (fun d =>
    (d.st F.HRT_FN_STAT_dflt_txn (Ix.at owner) t).st F.HRT_FN_STAT_dflt_valid (Ix.at owner) 1)

/-- A direct write to one register by a writer, checked and applied by R124; none where it is rejected whole. -/
def Dev.directWrite (d : Dev) (w : Writer) (r : Reg) (a : Ix) (v : Nat) : Option Dev :=
  let owner := ownerOf w
  let cur := d.dfltTxn owner
  let ref := match cur with | some t => (d.txn t).staged | none => Staged.empty
  let sc := d.stagedChanges r a v ref
  let qc := d.quiesceChanges r a v
  let l := d.linked r a v ref
  if !checkR9 r a v || refusedNow r a v d then none
  else if sc.isEmpty && qc.isEmpty then
    let d' := d.applyLive r a v
    if crossOk r a d' then some d' else none
  else match d.mode with
  | .rehearse | .bench | .safe =>
    if !qc.isEmpty && !blockIdle r a v d then none
    else
      let d' := d.applyLive r a v
      if !crossOk r a d' then none
      else if sc.isEmpty then some d'
      else if l.any (fun x => d.stagedBy r x cur) then none
      else match cur with
        | some t => some (d'.stageDefault owner t r l v sc)
        | none => match d'.openTxn owner true 0 with
          | some (t, d'') => some (d''.stageDefault owner t r l v sc)
          | none => none
  | _ => none

/-! ### Reads (R6, R8) -/

/-- Whether a register holds an RC field. -/
def Reg.hasRC (r : Reg) : Bool := r.info.fields.any (fun f => f.acc = .rc)

/-- Clear the RC fields of a register, as a read does. -/
def Dev.clearRC (d : Dev) (r : Reg) (a : Ix) : Dev :=
  r.info.fields.foldl (fun d f => if f.acc = .rc then d.st (r.info.fld f) a 0 else d) d

end Sys2Proof.Machine
end

