-- ==== Sys2Proof/Machine/KenOps.lean ====
section
/-! DEFINITION. The Kennel's records: queues, tokens, completions, the end and the return of tasks (R383 to R387, R399 to R406, R410, R412). -/

namespace Sys2Proof.Machine

/-- The register instance of a global queue. -/
def qIx (q : Nat) : Ix := Ix.on (q / 2048) (q % 2048)

/-- Tasks of a queue that wait, in the order in which it takes them. -/
def Dev.queue (d : Dev) (q : Nat) : List Task := Tbl.get [] d.ken.ready q

/-- Set them. -/
def Dev.setQueue (d : Dev) (q : Nat) (l : List Task) : Dev := { d with ken := { d.ken with ready := d.ken.ready.set [] q l } }

/-- The task on an engine. -/
def Dev.taskOn (d : Dev) (e : Nat) : Option Task := Tbl.get none d.ken.run e

/-- Set it. -/
def Dev.setTask (d : Dev) (e : Nat) (t : Option Task) : Dev := { d with ken := { d.ken with run := d.ken.run.set none e t } }

/-- The priority of a queue. -/
def Dev.prio (d : Dev) (q : Nat) : Nat := d.rd F.KEN_QCFG_prio (qIx q)

/-- Tokens of a queue in use (R387). -/
def Dev.tokens (d : Dev) (q : Nat) : Nat := d.ledOut (q / 2048) 3 (q % 2048)

/-- Whether a queue has a token left. -/
def Dev.tokenLeft (d : Dev) (q : Nat) : Bool := decide (d.tokens q < 2 ^ d.rd F.KEN_QSQ_depth_log2 (qIx q))

/-- Take a token. -/
def Dev.takeToken (d : Dev) (q : Nat) : Dev := d.issue (q / 2048) 3 (q % 2048) 1

/-- A task has ended for good: its token returns and `done` counts it (R385, R387). -/
def Dev.endToken (d : Dev) (q : Nat) : Dev := (d.giveBack (q / 2048) 3 (q % 2048) 1).addWrap F.KEN_QPTR_done (qIx q)

/-! ### Decision trace (R412) -/

/-- A decision record, if the Kennel traces this kind and queue. -/
def Dev.decision (d : Dev) (kind q engine reason wait : Nat) : Dev :=
  let b := q / 2048
  let a := Ix.onDie b
  if d.flag F.KEN_TRACE_enable a && bits (d.rd F.KEN_TRACE_kinds a) kind 1 = 1 && (d.flag F.KEN_TRACE_all_q a || d.flag F.KEN_QCFG_trace (qIx q)) &&
     d.flag F.EVT_TR_CFG_src_ken a then
    let d := d.on (!d.traceRoom b 3) (fun d => d.bump F.KEN_TRACE_trace_drop a)
    d.trace b 3 1 b 0 [kind + q * 2 ^ 4 + engine * 2 ^ 17 + d.prio q * 2 ^ 27 + reason * 2 ^ 31 + min wait (2 ^ 30 - 1) * 2 ^ 34,
                       d.ns + d.sec % 2 ^ 32 * 2 ^ 32]
  else d

/-! ### Completions (R403 to R405) -/

/-- Statuses of R404. -/
def stOK : Nat := 0
/-- EXCEPTION. -/
def stEXCEPTION : Nat := 1
/-- WATCHDOG. -/
def stWATCHDOG : Nat := 2
/-- TASK_LOST. -/
def stLOST : Nat := 3
/-- CANCELLED. -/
def stCANCELLED : Nat := 4
/-- REJECTED. -/
def stREJECTED : Nat := 5
/-- DIE_RESET. -/
def stDIE : Nat := 6

/-- The four words of a completion record. -/
def Dev.recWords (d : Dev) (cookie result status detail q : Nat) (eng : Option Nat) (reruns rflags count ran waited : Nat) : List Nat :=
  [cookie + result % 2 ^ 16 * 2 ^ 32 + status * 2 ^ 48 + detail * 2 ^ 56,
   q + (match eng with | some e => e + 2 ^ 15 | none => 0) * 2 ^ 16 + min 255 reruns * 2 ^ 32 + rflags * 2 ^ 40 + count % 2 ^ 16 * 2 ^ 48,
   d.ns + d.sec % 2 ^ 32 * 2 ^ 32,
   min (2 ^ 32 - 1) ran + min (2 ^ 32 - 1) waited * 2 ^ 32]

/-- A record waits for its ring. -/
def Dev.queueRec (d : Dev) (ring : Nat) (r : ComplRec) : Dev := { d with ken := { d.ken with waiting := d.ken.waiting.modify [] ring (· ++ [r]) } }

/-- A task ends with a status: its completion record waits to be written, or a `no_completion` task that ended OK is over. -/
def Dev.complete (d : Dev) (t : Task) (status detail result : Nat) (eng : Option Nat) : Dev :=
  let d := d.on (status = stLOST) (fun d => d.bump F.KEN_QCNT_lost (qIx t.q))
  if t.desc.noCompl && status = stOK then d.endToken t.q
  else d.queueRec (t.q / 2048 * 256 + t.desc.cring)
    { words := d.recWords t.desc.cookie result status detail t.q eng t.reruns (t.stolen.toNat + 2 * t.cross.toNat + 4 * t.preempted.toNat) t.rel t.ran t.waited,
      eng := eng, token := true, q := t.q }

/-- Count an engine's time on its task up to now. -/
def Dev.clockTask (d : Dev) (e : Nat) (t : Task) : Task × Dev :=
  if d.taskRuns e t then
    let n := engCycles (d.root - t.since)
    ({ t with ran := t.ran + n, since := d.root }, d.addWrap F.KEN_ENG_LOAD_cycles (Ix.on (e / 256) (e % 256)) n)
  else ({ t with since := d.root }, d)

/-- The task on engine e ends (R345, R380, R401): its record is formed, its save slot is free, a PREEMPT for it is withdrawn; where it faulted, the task
the pre-emption was for waits for the next free engine (R396). -/
def Dev.taskEnd (d : Dev) (e : Nat) (status detail result : Nat) : Dev :=
  let d := d.st F.PK_ENG_STAT_preempt_pending { die := e / 256, u := e / 32 % 8, i := e % 32 } 0
  let d := d.on (decide (status ≠ stOK)) (fun d => { d with ken := { d.ken with pre := d.ken.pre.set none e none } })
  match d.taskOn e with
  | none => d
  | some t =>
    let (t, d) := d.clockTask e t
    (d.setTask e none).complete { t with slot := none } status detail result (some e)

/-! ### Return to the queue (R395, R406) -/

/-- A task goes to the head of its queue, ready now. -/
def Dev.toHead (d : Dev) (t : Task) : Dev :=
  d.setQueue t.q ({ t with held := false, phase := .runs, readyAt := d.root } :: d.queue t.q)

/-- A task goes to the end of its queue; where the store is full it is spilled (R388). -/
def Dev.toTail (d : Dev) (t : Task) : Dev :=
  let t := { t with spilled := decide (8192 ≤ d.kenStored (t.q / 2048)) }
  d.setQueue t.q (d.queue t.q ++ [t])

/-- A task re-queued fresh from its descriptor, with no affinity; or TASK_LOST with a detail, or detail 2 where only the limit stands in its way. -/
def Dev.requeueOr (d : Dev) (t : Task) (e detail : Nat) : Dev :=
  if t.desc.restartable && decide (t.reruns < d.rd F.KEN_CFG_max_reruns (Ix.onDie (t.q / 2048))) then
    (d.decision 4 t.q e 0 0).toHead { t with aff := none, slot := none, reruns := t.reruns + 1, budget := t.desc.wd, xq := [], level := 0, inner := none }
  else d.complete { t with slot := none } stLOST (if t.desc.restartable then 2 else detail) 0 (some e)

/-- A task whose engine failed, or whose thief's base die closed (R393, R406): one that was being restored goes back as a saved task. Whether it was lost. -/
def Dev.engineTaskLost (d : Dev) (e detail : Nat) : Bool × Dev :=
  let d := { d with ken := { d.ken with pre := d.ken.pre.set none e none } }
  match d.taskOn e with
  | none => (false, d)
  | some t =>
    let (t, d) := d.clockTask e t
    let d := d.setTask e none
    if t.phase == .restoring then
      (false, d.toHead { t with aff := none })
    else
      let lost := !(t.desc.restartable && decide (t.reruns < d.rd F.KEN_CFG_max_reruns (Ix.onDie (t.q / 2048))))
      (lost, d.requeueOr t e detail)

end Sys2Proof.Machine
end

