-- ==== Sys2Proof/Machine/Flags.lean ====
section
/-! DEFINITION. Engine registers with their hazards (R331), and every flag computation of the engine instruction set. Log entries: DEDUCED 63. -/

namespace Sys2Proof.Machine

/-! ### Locations (R325, R359) -/

/-- Special register x. -/
def locX (x : Nat) : Nat := 64 + x
/-- Lane l of accumulator k. -/
def locA (k l : Nat) : Nat := 32 + 4 * k + l
/-- z, n, c, v, sv, ss, ie, ih of st (R326). -/
def locZ : Nat := 128
/-- Negative. -/
def locN : Nat := 129
/-- Carry. -/
def locC : Nat := 130
/-- Overflow. -/
def locV : Nat := 131
/-- Sticky overflow. -/
def locSV : Nat := 132
/-- Sticky saturation. -/
def locSS : Nat := 133
/-- STREAM events enabled. -/
def locIE : Nat := 134
/-- In a STREAM handler. -/
def locIH : Nat := 135
/-- Rounding. -/
def locRND : Nat := 136
/-- Saturating accumulators. -/
def locSAT : Nat := 138
/-- The block exponent bx. -/
def locBX : Nat := locX 38

/-- Classes of consumers that R331 tells apart. -/
inductive Use where
  | plain | branch | addr | late
  deriving DecidableEq, Repr

/-- From which issue on a class of consumer sees a write. -/
def PendW.from_ (w : PendW) : Use → Nat
  | .plain => w.plain | .branch => w.branch | .addr => w.addr | .late => w.late

/-- What a consumer of class `u` reads at the issue at hand: the newest write it can see (R331). -/
def EngSt.rd (x : EngSt) (u : Use) (loc : Nat) : Nat :=
  x.pend.foldl (fun v w => if w.loc = loc && decide (w.from_ u ≤ x.n) then w.val else v) (Tbl.get 0 x.regs loc)

/-- A write whose minimum distances are p, b, a, l for the four classes. -/
def EngSt.wr (x : EngSt) (loc val p b a l : Nat) : EngSt :=
  { x with pend := x.pend ++ [{ loc := loc, val := val, plain := x.n + p, branch := x.n + b, addr := x.n + a, late := x.n + l }] }

/-- Writes that every consumer sees leave the list of those in flight. -/
def EngSt.retire (x : EngSt) : Nat → EngSt
  | 0 => x
  | k + 1 => match x.pend with
    | w :: r => if w.plain ≤ x.n && w.branch ≤ x.n && w.addr ≤ x.n && w.late ≤ x.n then
        EngSt.retire { x with regs := x.regs.set 0 w.loc w.val, pend := r } k else x
    | [] => x

/-- Every write in flight lands, and a delay-line write with them: the pipeline has drained (R340). -/
def EngSt.drain (x : EngSt) : EngSt :=
  let regs := x.pend.foldl (fun t w => Tbl.set 0 t w.loc w.val) x.regs
  let mem := match x.tapm with
    | some (a, v, _) => Tbl.set 0#8 (Tbl.set 0#8 x.mem a (BitVec.ofNat 8 v)) (a + 1) (BitVec.ofNat 8 (v / 256))
    | none => x.mem
  { x with regs := regs, pend := [], mem := mem, tapm := none }

/-- General register r; g0 reads 0. -/
def EngSt.g (x : EngSt) (r : Nat) : Nat := if r = 0 then 0 else x.rd .plain r

/-- General register r as a branch reads it. -/
def EngSt.gB (x : EngSt) (r : Nat) : Nat := if r = 0 then 0 else x.rd .branch r

/-- An ALU or move result in g: at distance 1, for branches at 2. -/
def EngSt.wrG (x : EngSt) (r v : Nat) : EngSt := if r = 0 then x else x.wr r (v % 2 ^ 32) 1 2 1 1

/-- A result as late as a local load's: at distance 2, for branches at 3. -/
def EngSt.wrLoad (x : EngSt) (r v : Nat) : EngSt := if r = 0 then x else x.wr r (v % 2 ^ 32) 2 3 2 2

/-- An interlocked result: at distance 1 for every read. -/
def EngSt.wrNow (x : EngSt) (r v : Nat) : EngSt := if r = 0 then x else x.wr r (v % 2 ^ 32) 1 1 1 1

/-- The 64-bit value of a register pair (R358). -/
def EngSt.pair (x : EngSt) (r : Nat) : Nat := x.g r + x.g (r + 1) * 2 ^ 32

/-- Lane l of accumulator k as a multiply-accumulate reads it, 48 bits. -/
def EngSt.accNear (x : EngSt) (k l : Nat) : Nat := x.rd .plain (locA k l)

/-- Lane l of accumulator k as every other read sees it. -/
def EngSt.acc (x : EngSt) (k l : Nat) : Nat := x.rd .late (locA k l)

/-- A write of an accumulator lane: at distance 1 for accumulation, 3 for other reads (R373). -/
def EngSt.wrA (x : EngSt) (k l v : Nat) : EngSt := x.wr (locA k l) (v % 2 ^ 48) 1 3 3 3

/-! ### Two's complement -/

/-- A w-bit number as a signed value. -/
def sgn (w n : Nat) : Int := if n % 2 ^ w < 2 ^ (w - 1) then ((n % 2 ^ w : Nat) : Int) else ((n % 2 ^ w : Nat) : Int) - ((2 ^ w : Nat) : Int)

/-- A signed value as a w-bit number; it wraps. -/
def unsgn (w : Nat) (i : Int) : Nat := (i % ((2 ^ w : Nat) : Int)).toNat

/-- A signed value clamped to w bits. -/
def clampS (w : Nat) (i : Int) : Int := max (-((2 ^ (w - 1) : Nat) : Int)) (min i (((2 ^ (w - 1) : Nat) : Int) - 1))

/-! ### Flags (R326, R361) -/

/-- Write a flag: read plainly at distance 1, by a branch at 2. -/
def EngSt.setF (x : EngSt) (loc : Nat) (b : Bool) : EngSt := x.wr loc b.toNat 1 2 1 1

/-- Sticky overflow and saturation are set, never cleared, by an instruction. -/
def EngSt.stick (x : EngSt) (loc : Nat) (b : Bool) : EngSt := if b then x.setF loc true else x

/-- v, with sv when it is set. -/
def EngSt.setV (x : EngSt) (b : Bool) : EngSt := (x.setF locV b).stick locSV b

/-- z and n of a 32-bit result. -/
def EngSt.setZN (x : EngSt) (r : Nat) : EngSt := (x.setF locZ (r % 2 ^ 32 = 0)).setF locN (decide (2 ^ 31 ≤ r % 2 ^ 32))

/-- z of a 32-bit result. -/
def EngSt.setZ (x : EngSt) (r : Nat) : EngSt := x.setF locZ (r % 2 ^ 32 = 0)

/-- Carry out of a 32-bit sum. -/
def carryAdd (a b : Nat) : Bool := decide (2 ^ 32 ≤ a % 2 ^ 32 + b % 2 ^ 32)

/-- Signed overflow of an exact 32-bit result. -/
def ovf32 (i : Int) : Bool := decide (i ≠ clampS 32 i)

/-- z, n, c, v of a + b, where b is a 32-bit number. -/
def EngSt.flagsAdd (x : EngSt) (a b : Nat) : EngSt :=
  (((x.setZN (a + b)).setF locC (carryAdd a b))).setV (ovf32 (sgn 32 a + sgn 32 b))

/-- z, n, c, v of a − b; c is set when there is no borrow. -/
def EngSt.flagsSub (x : EngSt) (a b : Nat) : EngSt :=
  (((x.setZN (a % 2 ^ 32 + (2 ^ 32 - b % 2 ^ 32))).setF locC (decide (b % 2 ^ 32 ≤ a % 2 ^ 32)))).setV (ovf32 (sgn 32 a - sgn 32 b))

/-- Vector z: every lane of a 64-bit result is 0. -/
def EngSt.setVZ (x : EngSt) (r : Nat) : EngSt := x.setF locZ (r % 2 ^ 64 = 0)

/-- Whether a condition of R366 holds on the flags as a branch sees them; none for the codes that raise ILLEGAL. -/
def EngSt.cond (x : EngSt) (c : Nat) : Option Bool :=
  let f := fun (l : Nat) => x.rd .branch l != 0
  match c with
  | 0 => some true
  | 1 => some (f locZ) | 2 => some (!f locZ)
  | 3 => some (f locN != f locV) | 4 => some (f locN == f locV)
  | 5 => some (!f locZ && f locN == f locV) | 6 => some (f locZ || f locN != f locV)
  | 7 => some (f locC) | 8 => some (!f locC)
  | 9 => some (f locV) | 10 => some (!f locV)
  | 11 => some (f locN) | 12 => some (!f locN)
  | _ => none

/-! ### Status word (R326) -/

/-- st as a move reads it. -/
def EngSt.status (x : EngSt) : Nat :=
  ((List.range 8).map (fun i => x.rd .plain (128 + i) % 2 * 2 ^ i)).sum + x.rd .plain locRND * 2 ^ 8 + x.rd .plain locSAT * 2 ^ 10

/-- Whether a value can be written to st. -/
def statusOk (v : Nat) : Bool := decide (v < 2 ^ 11) && decide (bits v 8 2 ≠ 3)

/-- Write st: flags for branches, `rnd`, `sat` and `ie` at distance 2 (R331). -/
def EngSt.wrStatus (x : EngSt) (v : Nat) : EngSt :=
  let x := (List.range 8).foldl (fun (x : EngSt) (i : Nat) => x.wr (128 + i) (bits v i 1) 1 2 2 2) x
  (x.wr locRND (bits v 8 2) 1 2 2 2).wr locSAT (bits v 10 1) 1 2 2 2

end Sys2Proof.Machine
end

