-- ==== Sys2Proof/Machine/Operands.lean ====
section
/-! DEFINITION. Operand forms of the engine instruction set: local memory operands with circular buffers and windows (R327, R328, R360), vector lanes,
special registers (R359). A function that can raise an exception answers `.error` with its code (R345). Log entries: DEDUCED 64. -/

namespace Sys2Proof.Machine

/-! ### Exception codes (R345) -/

/-- ILLEGAL. -/
def excILLEGAL : Nat := 1
/-- BANK. -/
def excBANK : Nat := 2
/-- WINDOW. -/
def excWINDOW : Nat := 3
/-- ALIGN. -/
def excALIGN : Nat := 4
/-- MEM. -/
def excMEM : Nat := 5
/-- FETCH. -/
def excFETCH : Nat := 6
/-- CHECK. -/
def excCHECK : Nat := 7

/-- Raise an exception unless a condition holds. -/
def need (c : Bool) (code : Nat) (x : EngSt) : Except Nat EngSt := if c then .ok x else .error code

/-! ### Address generation (R360) -/

/-- The bank of a local address: false X, true Y. -/
def bankY (a : Nat) : Bool := decide (0x8000 ≤ a % 65536)

/-- circ() of R360, on the registers that address generation at the issue at hand sees. -/
def EngSt.circ (x : EngSt) (k p : Nat) (step : Int) : Nat :=
  let len := x.rd .addr (locX (24 + k))
  let b := x.rd .addr (locX (16 + k))
  if len = 0 then unsgn 16 ((p : Int) + step)
  else (b + (((p : Int) - (b : Int) + step) % (len : Int)).toNat) % 65536

/-- Address register p_k. -/
def EngSt.p (x : EngSt) (k : Nat) : Nat := x.rd .addr (locX k)

/-- Modifier m_k. -/
def EngSt.m (x : EngSt) (k : Nat) : Int := sgn 16 (x.rd .addr (locX (8 + k)))

/-- The window check of R328. -/
def EngSt.inWindow (x : EngSt) (a w : Nat) : Bool :=
  (decide (x.xb ≤ a) && decide (a + w ≤ x.xb + x.xs) && decide (a + w ≤ 0x8000)) ||
  (decide (0x8000 + x.yb ≤ a) && decide (a + w ≤ 0x8000 + x.yb + x.ys) && decide (a + w ≤ 0x10000))

/-- The checks on an address, in their order: alignment, the circular buffer within one bank, the windows. -/
def EngSt.addrCheck (x : EngSt) (k a w : Nat) : Option Nat :=
  let len := x.rd .addr (locX (24 + k))
  let b := x.rd .addr (locX (16 + k))
  if a % w ≠ 0 then some excALIGN
  else if len ≠ 0 && (bankY b != bankY (b + len - 1) || decide (65536 < b + len)) then some excBANK
  else if !x.inWindow a w then some excWINDOW
  else none

/-- Post-modify p_k: seen by the next address generation. -/
def EngSt.setP (x : EngSt) (k v : Nat) : EngSt := x.wr (locX k) (v % 65536) 1 1 1 1

/-- A format M operand of width w: its address, and the engine after the post-modify. -/
def EngSt.opM (x : EngSt) (o : MemOp) (w : Nat) : Except Nat (Nat × EngSt) :=
  let k := o.k.val
  let off := sgn 13 o.off.toNat * (w : Int)
  let p := x.p k
  if (o.am.val = 0 || o.am.val = 1) && o.off ≠ 0 then .error excILLEGAL
  else
    let a := if o.am.val = 3 then x.circ k p off else p
    match x.addrCheck k a w with
    | some c => .error c
    | none => .ok (a, match o.am.val with
        | 1 => x.setP k (x.circ k p (x.m k))
        | 2 => x.setP k (x.circ k p off)
        | _ => x)

/-- The step of a mode of formats P and A. -/
def EngSt.stepP (x : EngSt) (k mode w : Nat) : Int := match mode with | 0 => 0 | 1 => x.m k | 2 => (w : Int) | _ => -(w : Int)

/-- An operand of formats P and A. -/
def EngSt.opP (x : EngSt) (k mode w : Nat) : Except Nat (Nat × EngSt) :=
  let p := x.p k
  match x.addrCheck k p w with
  | some c => .error c
  | none => .ok (p, if mode = 0 then x else x.setP k (x.circ k p (x.stepP k mode w)))

/-! ### Local memory (R323, R331, R332) -/

/-- n bytes from an address, little-endian, as a number. -/
def EngSt.load (x : EngSt) (a n : Nat) : Nat := ((List.range n).map (fun i => (Tbl.get 0#8 x.mem (a + i)).toNat * 2 ^ (8 * i))).sum

/-- A delay-line write lands: always by its second following issue, and before a store of the next one. -/
def EngSt.landTapm (x : EngSt) (force : Bool) : EngSt :=
  match x.tapm with
  | some (a, v, i) =>
    if force || decide (i + 2 ≤ x.n) then
      { x with tapm := none, mem := Tbl.set 0#8 (Tbl.set 0#8 x.mem a (BitVec.ofNat 8 v)) (a + 1) (BitVec.ofNat 8 (v / 256)) }
    else x
  | none => x

/-- Store n bytes of a number. -/
def EngSt.store (x : EngSt) (a n v : Nat) : EngSt :=
  let x := x.landTapm true
  { x with mem := (List.range n).foldl (fun m i => Tbl.set 0#8 m (a + i) (BitVec.ofNat 8 (v / 2 ^ (8 * i)))) x.mem }

/-- The bytes of a number in the opposite order. -/
def swap32 (v : Nat) : Nat := v % 256 * 2 ^ 24 + v / 2 ^ 8 % 256 * 2 ^ 16 + v / 2 ^ 16 % 256 * 2 ^ 8 + v / 2 ^ 24 % 256

/-! ### Vectors (R358) -/

/-- Whether a field names a vector: even and not 0. -/
def vecOk (r : Nat) : Bool := decide (r % 2 = 0) && decide (r ≠ 0)

/-- Lane l of a 64-bit vector. -/
def lane (v l : Nat) : Nat := bits v (16 * l) 16

/-- A vector of four lanes. -/
def ofLanes (f : Nat → Nat) : Nat := ((List.range 4).map (fun l => f l % 65536 * 2 ^ (16 * l))).sum

/-- Write a vector result as an ALU result. -/
def EngSt.wrVec (x : EngSt) (r v : Nat) : EngSt := (x.wrG r v).wrG (r + 1) (v / 2 ^ 32)

/-- Write a vector result as late as a load. -/
def EngSt.wrVecLoad (x : EngSt) (r v : Nat) : EngSt := (x.wrLoad r v).wrLoad (r + 1) (v / 2 ^ 32)

/-! ### Special registers (R359) -/

/-- xq: 2 bits a tag, 0 free, 1 busy, 2 done with DONE, 3 done with another code. -/
def EngSt.xqWord (x : EngSt) : Nat := ((List.range 8).map (fun t => min 3 (Tbl.get 0 x.xq t) * 4 ^ t)).sum

/-- The value of special register i for a move; none where there is none. `e` is the engine's number. -/
def EngSt.special (x : EngSt) (e i : Nat) : Option Nat :=
  if i < 38 then some (x.rd .plain (locX i))
  else if i = 38 then some (x.rd .late locBX)
  else if i = 39 then some x.status
  else if i ≤ 41 then some (x.rd .plain (locX i))
  else if i = 42 then some x.xqWord
  else if i = 43 then some e
  else none

/-- Whether a value follows the write rule of special register i. -/
def specialOk (i v : Nat) : Bool :=
  if i < 32 then true
  else if i < 34 then decide (v ≤ 1024)
  else if i < 38 || i = 40 then decide (v % 4 = 0) && decide (v < 2 ^ 18)
  else if i = 38 then decide (v ≤ 47)
  else if i = 39 || i = 41 then statusOk v
  else false

/-- Write special register i: p, m, b and len are seen by address generation at distance 2, or 3 from a load. -/
def EngSt.wrSpecial (x : EngSt) (i v : Nat) (load : Bool) : EngSt :=
  if i < 32 then (if load then x.wr (locX i) (v % 65536) 2 2 3 2 else x.wr (locX i) (v % 65536) 1 2 2 1)
  else if i = 39 then x.wrStatus v
  else x.wr (locX i) v 1 1 1 1

/-! ### Rounding (R326, R372, R374) -/

/-- Arithmetic right shift by n with the rounding mode `rnd`: 0 truncate, 1 half up, 2 half even. -/
def shrRound (rnd : Nat) (v : Int) (n : Nat) : Int :=
  let d : Int := ((2 ^ n : Nat) : Int)
  let q := v / d
  let r := v % d
  if n = 0 then v
  else if rnd = 1 then (if d ≤ 2 * r then q + 1 else q)
  else if rnd = 2 then (if d < 2 * r || (d = 2 * r && q % 2 ≠ 0) then q + 1 else q)
  else q

/-- Redundant sign bits of a w-bit value (R337): leading bits equal to the sign bit, minus 1. -/
def signCount (w v : Nat) : Nat :=
  let s := bits v (w - 1) 1
  match (List.range (w - 1)).find? (fun i => decide (bits v (w - 2 - i) 1 ≠ s)) with
  | some i => i
  | none => w - 1

/-- Leading zeros of a 32-bit value. -/
def leadZeros (v : Nat) : Nat :=
  match (List.range 32).find? (fun i => decide (bits v (31 - i) 1 = 1)) with
  | some i => i
  | none => 32

end Sys2Proof.Machine
end

