-- ==== Sys2Proof/Machine/EngIssue.lean ====
section
/-! DEFINITION. How an engine issues one instruction: exceptions, repeats, delay slots and block ends (R331 to R335, R345, R368). Log entries: DEDUCED 64, 65. -/

namespace Sys2Proof.Machine

/-- What an issue answers: the device and engine after it, an exception with its code, or a stall in which nothing changes. -/
inductive Issued where
  | done (d : Dev) (x : EngSt)
  | exc (code : Nat)
  | stall

/-- An instruction as engine number e issues it. -/
abbrev EngOp := Nat → Dev → EngSt → Issued

/-- An instruction that touches its engine only. -/
def pureOp (f : EngSt → Except Nat EngSt) : EngOp := fun _ d x =>
  match f x with
  | .ok x => .done d x
  | .error c => .exc c

/-- Where an instruction must not stand (R333 to R335): anywhere R333 names; a move to lc, ls or le only in repeats; an RPTB may stand in an outer body. -/
inductive Rule where
  | free | never | noLoop | block
  deriving DecidableEq, Repr

/-- The register instance of engine number e. -/
def engIx (e : Nat) : Ix := { die := e / 256, u := e / 32 % 8, i := e % 32 }

/-- The engine e. -/
def Dev.eng (d : Dev) (e : Nat) : EngSt := Tbl.get EngSt.fresh d.en.eng e

/-- Set the engine e. -/
def Dev.setEng (d : Dev) (e : Nat) (x : EngSt) : Dev := { d with en := { d.en with eng := d.en.eng.set EngSt.fresh e x } }

/-- The pack q of base die b, by number 8b + q. -/
def Dev.packOf (d : Dev) (p : Nat) : PackSt := Tbl.get PackSt.fresh d.en.pack p

/-- Set a pack. -/
def Dev.setPack (d : Dev) (p : Nat) (x : PackSt) : Dev := { d with en := { d.en with pack := d.en.pack.set PackSt.fresh p x } }

/-- The state of an engine as `PK_ENG_STAT` codes it. -/
def Dev.engState (d : Dev) (e : Nat) : Nat := d.rd F.PK_ENG_STAT_state (engIx e)

/-- Set the state of an engine. -/
def Dev.setEngState (d : Dev) (e s : Nat) : Dev := d.st F.PK_ENG_STAT_state (engIx e) s

/-- Whether packs run in a mode (R352). -/
def Mode.engines : Mode → Bool
  | .rehearse | .onair | .bench | .repair | .safe => true
  | _ => false

/-! ### Positions (R333 to R335) -/

/-- Whether level L is active. -/
def EngSt.active (x : EngSt) (l : Nat) : Bool := x.rd .plain (locX (35 + 2 * l)) != 0

/-- Whether pc stands in the body of level L. -/
def EngSt.inBody (x : EngSt) (l : Nat) : Bool :=
  x.active l && decide (x.rd .plain (locX (34 + 2 * l)) ≤ x.pc) && decide (x.pc ≤ x.rd .plain (locX (35 + 2 * l)))

/-- Whether pc stands in a block body. -/
def EngSt.inBlock (x : EngSt) : Bool := x.inBody 0 || x.inBody 1

/-- Whether an instruction of rule r must not issue here. -/
def EngSt.forbids (x : EngSt) : Rule → Bool
  | .free => false
  | .never => x.redirect.isSome || x.rpt.isSome || x.inBlock
  | .noLoop => x.rpt.isSome || x.inBlock
  | .block => x.redirect.isSome || x.rpt.isSome || (x.inBlock && (match x.inner with | some p => decide (p ≠ x.pc) | none => false))

/-- Whether the boundary at hand is an acceptance point (R340). -/
def EngSt.acceptance (x : EngSt) : Bool := x.redirect.isNone && x.rpt.isNone && (!x.inBlock || x.atEnd)

/-! ### Ends of tasks (R345, R350, R380) -/

/-- pc and halt flags of a halted engine: the response to HALT and STEP. -/
def Dev.haltInfo (d : Dev) (e : Nat) : List Byte :=
  let x := d.eng e
  let a := engIx e
  numBytes x.pc 4 ++ numBytes (x.redirect.isSome.toNat + 2 * x.llCut.toNat + 4 * (d.taskOn e).isNone.toNat + 8 * x.excHeld.isSome.toNat +
    16 * d.rd F.PK_ENG_STAT_stream_pending a + 32 * d.rd F.PK_ENG_STAT_preempt_pending a) 1

/-- The engine is HALTED: a HALT of it that waits is answered. -/
def Dev.haltDone (d : Dev) (e : Nat) : Dev :=
  if d.lsh.wait = some (.halt e) then { d with lsh := { d.lsh with wait := none } }.emit (.leash 1 (d.haltInfo e)) else d

/-- The engine leaves its task: in-flight instructions have completed; `retire` takes it out of the pool (R353). With DEBUG pending it halts idle (R547). -/
def Dev.engLeave (d : Dev) (e : Nat) (x : EngSt) : Dev :=
  let d := d.setEng e { x.drain with redirect := none, rpt := none, ll := none, atEnd := false, excHeld := none, debug := false }
  let d := d.on (d.flag F.PK_ENG_CFG_retire (engIx e)) (fun d => { d with en := { d.en with out := addNew d.en.out e } })
  if x.debug then (d.setEngState e 3).haltDone e else d.setEngState e 0

/-- An exception at `pc` (R345): it is shown and counted; the task ends, or in BENCH and SAFE the engine halts at the instruction (R548). Earlier
instructions complete. -/
def Dev.engExc (d : Dev) (e : Nat) (x : EngSt) (code pc : Nat) : Dev :=
  let a := engIx e
  let d := ((d.st F.PK_ENG_STAT_exc a code).st F.PK_ENG_PC_exc_pc a pc).bump F.PK_ENG_CNT_exceptions a
  if x.excHalt && (d.mode == .bench || d.mode == .safe) then
    let d := match d.taskOn e with
      | some t => let (t, d) := d.clockTask e t; d.setTask e (some t)
      | none => d
    (d.setEng e { x.drain with pc := pc, excHeld := some code }).setEngState e 3
  else (d.taskEnd e stEXCEPTION code 0).engLeave e { x with pc := pc }

/-! ### Moving on (R333, R335, R368) -/

/-- A write that every read after this instruction sees. -/
def EngSt.wrSoon (x : EngSt) (loc v : Nat) : EngSt := x.wr loc v 1 1 1 1

/-- The block-end checks at the last instruction of level L's body: loop back, or end the level and fall through. -/
def EngSt.blockEnd (x : EngSt) (l : Nat) (next : EngSt → EngSt) : EngSt :=
  if x.active l && decide (x.rd .plain (locX (35 + 2 * l)) = x.pc) then
    let lc := x.rd .plain (locX (32 + l))
    if 0 < lc then { x.wrSoon (locX (32 + l)) (lc - 1) with pc := x.rd .plain (locX (34 + 2 * l)), atEnd := true }
    else next { x.wrSoon (locX (35 + 2 * l)) 0 with atEnd := true }
  else next x

/-- Where pc goes after the instruction at hand: the inner level is checked first. -/
def EngSt.advance (x : EngSt) : EngSt :=
  let x := { x with atEnd := false }
  x.blockEnd x.level.val (fun x => x.blockEnd (1 - x.level.val) (fun x => { x with pc := x.pc + 4 }))

/-- A return restores pc and st (R342). -/
def EngSt.reti (x : EngSt) : EngSt :=
  let st := x.rd .plain (locX 41)
  let y := (List.range 8).foldl (fun (y : EngSt) (i : Nat) => y.wrSoon (128 + i) (bits st i 1)) x
  { (y.wrSoon locRND (bits st 8 2)).wrSoon locSAT (bits st 10 1) with pc := x.rd .plain (locX 40) }

/-- After an instruction: pc advances, and a pending branch counts its delay slots down and then takes its target. -/
def EngSt.moveOn (x : EngSt) (branch : Bool) : EngSt :=
  let x := x.advance
  let x := match x.redirect with
    | none => x
    | some r =>
      if branch then x
      else if 1 < r.left then { x with redirect := some { r with left := r.left - 1 } }
      else if r.reti then { x.reti with redirect := none }
      else { x with redirect := none, pc := r.target }
  { x with n := x.n + 1 }

/-- Issue an instruction `k` times in consecutive cycles (R334); an exception ends the repeat on the issue that faults (R369). -/
def repeatIssue (op : EngOp) (e : Nat) : Nat → Dev → EngSt → Issued × EngSt × Dev
  | 0, d, x => (.done d x, x, d)
  | k + 1, d, x =>
    let x := (x.retire x.pend.length).landTapm false
    match op e d x with
    | .done d x => if k = 0 then (.done d x, x, d) else repeatIssue op e k d { x with n := x.n + 1 }
    | r => (r, x, d)

/-- The engine issues an instruction: fetch check, the places it must not stand (an RPT whose target is forbidden raises ILLEGAL itself), its effect, and the
move to the next. -/
def Dev.issueOp (d : Dev) (e : Nat) (rule : Rule) (op : EngOp) : Dev :=
  let x := d.eng e
  let d := d.count (e / 256) 6 208 (e % 256) (x.rpt.getD 1)
  if 2 ^ 18 ≤ x.pc then d.engExc e x excFETCH x.pc
  else if x.forbids rule then d.engExc e { x with rpt := none } excILLEGAL (if x.rpt.isSome then x.pc - 4 else x.pc)
  else
    let busy := (d.taskOn e).isSome
    match repeatIssue op e (x.rpt.getD 1) d { x with rpt := none } with
    | (.done d y, _, _) =>
      if d.engState e = 0 || (busy && (d.taskOn e).isNone) then d.setEng e y
      else d.setEng e (y.moveOn (x.redirect.isNone && y.redirect.isSome))
    | (.exc c, y, d) => d.engExc e y c x.pc
    | (.stall, _, _) => d

/-- The effect of an engine instruction: only an engine that runs, in a mode in which packs run, issues. -/
def Dev.run (d : Dev) (e : Nat) (rule : Rule) (op : EngOp) : Dev :=
  if d.engState e = 1 && d.mode.engines then d.issueOp e rule op else d

/-- An engine instruction as a command. -/
def State.runOp (s : State) (e : Fin 1024) (rule : Rule) (op : EngOp) : Result := s.act (fun d => d.run e.val rule op)

end Sys2Proof.Machine
end

