-- ==== Sys2Proof/Machine/EngAlu.lean ====
section
/-! DEFINITION. Engine instructions: the register and immediate ALU groups, vectors, block exponent and bit fields (R361, R362, R374, R376). -/

namespace Sys2Proof.Machine

/-! ### Shapes -/

/-- d = f(s, t) with a flag rule on operands and result. -/
def opRR (f : Nat → Nat → Nat) (fl : EngSt → Nat → Nat → Nat → EngSt) (d s t : Nat) : EngOp :=
  pureOp fun x => let r := f (x.g s) (x.g t) % 2 ^ 32; .ok (fl (x.wrG d r) (x.g s) (x.g t) r)

/-- d = f(s, constant) with a flag rule. -/
def opRI (f : Nat → Nat → Nat) (fl : EngSt → Nat → Nat → Nat → EngSt) (d s i : Nat) : EngOp :=
  pureOp fun x => let r := f (x.g s) i % 2 ^ 32; .ok (fl (x.wrG d r) (x.g s) i r)

/-- d = f(s) with a flag rule on the operand and result. -/
def opR (f : Nat → Nat) (fl : EngSt → Nat → Nat → EngSt) (d s : Nat) : EngOp :=
  pureOp fun x => let r := f (x.g s) % 2 ^ 32; .ok (fl (x.wrG d r) (x.g s) r)

/-- Flag rule: z and n. -/
def flZN (x : EngSt) (_ _ r : Nat) : EngSt := x.setZN r
/-- Flag rule: z. -/
def flZ (x : EngSt) (_ _ r : Nat) : EngSt := x.setZ r
/-- Flag rule of a sum. -/
def flAdd (x : EngSt) (a b _ : Nat) : EngSt := x.flagsAdd a b
/-- Flag rule of a difference. -/
def flSub (x : EngSt) (a b _ : Nat) : EngSt := x.flagsSub a b
/-- No flag. -/
def flNone (x : EngSt) (_ _ _ : Nat) : EngSt := x

/-- Lane-by-lane signed operation on vectors; the exact lanes wrap or saturate, and v tells of it when the row names v. -/
def opVV (f : Int → Int → Int) (sat flagV : Bool) (d s t : Nat) : EngOp := pureOp fun x =>
  if !(vecOk d && vecOk s && vecOk t) then .error excILLEGAL else
  let ex := fun l => f (sgn 16 (lane (x.pair s) l)) (sgn 16 (lane (x.pair t) l))
  let r := ofLanes (fun l => unsgn 16 (if sat then clampS 16 (ex l) else ex l))
  let y := (x.wrVec d r).setVZ r
  .ok (if flagV then y.setV ((List.range 4).any (fun l => decide (ex l ≠ clampS 16 (ex l)))) else y)

/-- Lane-by-lane shift by a constant of 0 to 15. -/
def opVS (f : Nat → Nat → Nat) (d s sh : Nat) : EngOp := pureOp fun x =>
  if !(vecOk d && vecOk s) || decide (15 < sh) then .error excILLEGAL else
  let r := ofLanes (fun l => f (lane (x.pair s) l) sh)
  .ok ((x.wrVec d r).setVZ r)

/-- Arithmetic right shift of a w-bit value. -/
def sraW (w a n : Nat) : Nat := unsgn w (sgn w a / ((2 ^ n : Nat) : Int))

/-- Sign-extended 16-bit immediate as a 32-bit number. -/
def sext16 (imm : BitVec 16) : Nat := unsgn 32 (sgn 16 imm.toNat)

/-! ### Scalar functions (R361) -/

/-- ADD. -/
def opAdd : Nat → Nat → Nat → EngOp := opRR (fun a b => a + b) flAdd
/-- SUB. -/
def opSub : Nat → Nat → Nat → EngOp := opRR (fun a b => a + (2 ^ 32 - b)) flSub
/-- AND. -/
def opAnd : Nat → Nat → Nat → EngOp := opRR (fun a b => a &&& b) flZN
/-- OR. -/
def opOr : Nat → Nat → Nat → EngOp := opRR (fun a b => a ||| b) flZN
/-- XOR. -/
def opXor : Nat → Nat → Nat → EngOp := opRR (fun a b => a ^^^ b) flZN
/-- SLL. -/
def opSll : Nat → Nat → Nat → EngOp := opRR (fun a b => a * 2 ^ (b % 32)) flZN
/-- SRL. -/
def opSrl : Nat → Nat → Nat → EngOp := opRR (fun a b => a / 2 ^ (b % 32)) flZN
/-- SRA. -/
def opSra : Nat → Nat → Nat → EngOp := opRR (fun a b => sraW 32 a (b % 32)) flZN
/-- SLLI. -/
def opSlli : Nat → Nat → Nat → EngOp := opRI (fun a b => a * 2 ^ b) flZN
/-- SRLI. -/
def opSrli : Nat → Nat → Nat → EngOp := opRI (fun a b => a / 2 ^ b) flZN
/-- SRAI. -/
def opSrai : Nat → Nat → Nat → EngOp := opRI (fun a b => sraW 32 a b) flZN
/-- MULH. -/
def opMulh : Nat → Nat → Nat → EngOp := opRR (fun a b => unsgn 32 (sgn 16 a * sgn 16 b)) flZN
/-- MIN. -/
def opMin : Nat → Nat → Nat → EngOp := opRR (fun a b => if sgn 32 a ≤ sgn 32 b then a else b) flZN
/-- MAX. -/
def opMax : Nat → Nat → Nat → EngOp := opRR (fun a b => if sgn 32 a ≤ sgn 32 b then b else a) flZN
/-- SLT. -/
def opSlt : Nat → Nat → Nat → EngOp := opRR (fun a b => (decide (sgn 32 a < sgn 32 b)).toNat) flZ
/-- SLTU. -/
def opSltu : Nat → Nat → Nat → EngOp := opRR (fun a b => (decide (a < b)).toNat) flZ
/-- ABS. -/
def opAbs : Nat → Nat → EngOp :=
  opR (fun a => unsgn 32 (clampS 32 ((sgn 32 a).natAbs : Int))) (fun x a r => (x.setZN r).setV (decide (a = 2 ^ 31)))
/-- NORM. -/
def opNorm : Nat → Nat → EngOp := opR (fun a => signCount 32 a) (fun x _ r => x.setZ r)
/-- SAT16. -/
def opSat16 : Nat → Nat → EngOp :=
  opR (fun a => unsgn 32 (clampS 16 (sgn 32 a))) (fun x a r => (x.setZN r).setV (decide (sgn 32 a ≠ clampS 16 (sgn 32 a))))
/-- BSWAP. -/
def opBswap : Nat → Nat → EngOp := opR swap32 (fun x _ _ => x)

/-! ### Vector functions (R361) -/

/-- VADD. -/
def opVadd : Nat → Nat → Nat → EngOp := opVV (fun a b => a + b) false true
/-- VSUB. -/
def opVsub : Nat → Nat → Nat → EngOp := opVV (fun a b => a - b) false true
/-- VADDS. -/
def opVadds : Nat → Nat → Nat → EngOp := opVV (fun a b => a + b) true true
/-- VSUBS. -/
def opVsubs : Nat → Nat → Nat → EngOp := opVV (fun a b => a - b) true true
/-- VMIN. -/
def opVmin : Nat → Nat → Nat → EngOp := opVV (fun a b => min a b) false false
/-- VMAX. -/
def opVmax : Nat → Nat → Nat → EngOp := opVV (fun a b => max a b) false false
/-- VSLL. -/
def opVsll : Nat → Nat → Nat → EngOp := opVS (fun a n => a * 2 ^ n)
/-- VSRL. -/
def opVsrl : Nat → Nat → Nat → EngOp := opVS (fun a n => a / 2 ^ n)
/-- VSRA. -/
def opVsra : Nat → Nat → Nat → EngOp := opVS (fun a n => sraW 16 a n)
/-- VABS. -/
def opVabs (d s : Nat) : EngOp := opVV (fun a _ => (a.natAbs : Int)) true true d s s

/-! ### Immediates (R362) -/

/-- ADDI. -/
def opAddi (d s : Nat) (imm : BitVec 16) : EngOp := opRI (fun a b => a + b) flAdd d s (sext16 imm)
/-- ANDI. -/
def opAndi (d s : Nat) (imm : BitVec 16) : EngOp := opRI (fun a b => a &&& b) flZN d s imm.toNat
/-- ORI. -/
def opOri (d s : Nat) (imm : BitVec 16) : EngOp := opRI (fun a b => a ||| b) flZN d s imm.toNat
/-- XORI. -/
def opXori (d s : Nat) (imm : BitVec 16) : EngOp := opRI (fun a b => a ^^^ b) flZN d s imm.toNat
/-- LUI. -/
def opLui (d s : Nat) (imm : BitVec 16) : EngOp := opRI (fun a b => b * 2 ^ 16 + a % 2 ^ 16) flNone d s imm.toNat
/-- SLTI. -/
def opSlti (d s : Nat) (imm : BitVec 16) : EngOp := opRI (fun a b => (decide (sgn 32 a < sgn 32 b)).toNat) flZ d s (sext16 imm)

/-! ### Block exponent (R337, R374, R375) -/

/-- Write bx: a SCALEB sees it at distance 1, a MOVG at 3. -/
def EngSt.wrBx (x : EngSt) (v : Nat) : EngSt := x.wr locBX v 1 1 1 3

/-- Lower bx to the smallest of some counts. -/
def EngSt.lowerBx (x : EngSt) (counts : List Nat) : EngSt := x.wrBx (counts.foldl min (x.rd .plain locBX))

/-- BEXP over the four lanes of a 64-bit vector. -/
def EngSt.bexp16 (x : EngSt) (v : Nat) : EngSt := x.lowerBx ((List.range 4).map (fun l => signCount 16 (lane v l)))

/-- The rounding mode in effect. -/
def EngSt.rnd (x : EngSt) : Nat := x.rd .late locRND

/-- Shift a w-bit value left by e, or right by sh − e with rounding. -/
def scale (w rnd e sh v : Nat) : Nat :=
  if e ≤ sh then unsgn w (shrRound rnd (sgn w v) (sh - e)) else v * 2 ^ (e - sh) % 2 ^ w

/-- BEXP.V. -/
def opBexpV (s : Nat) : EngOp := pureOp fun x => if vecOk s then .ok (x.bexp16 (x.pair s)) else .error excILLEGAL

/-- BEXP.M; `err` tells of an uncorrectable word. -/
def opBexpM (m : MemOp) (err : Bool) : EngOp := pureOp fun x =>
  match x.opM m 8 with
  | .error c => .error c
  | .ok (a, y) => if err then .error excMEM else .ok (y.bexp16 (x.load a 8))

/-- BEXP.A. -/
def opBexpA (a : Nat) : EngOp := pureOp fun x => .ok (x.lowerBx ((List.range 4).map (fun l => signCount 48 (x.acc a l))))

/-- BXRST. -/
def opBxrst : EngOp := pureOp fun x => .ok (x.wrBx 47)

/-- SCALEB.VR, and SCALEB.V with `sh` 0. -/
def opScalebVr (d s sh : Nat) : EngOp := pureOp fun x =>
  if !(vecOk d && vecOk s) || decide (15 < sh) then .error excILLEGAL else
  let e := min (x.rd .plain locBX) 15
  .ok (x.wrVecLoad d (ofLanes (fun l => scale 16 x.rnd e sh (lane (x.pair s) l))))

/-- SCALEB.AR, and SCALEB.A with `sh` 0. -/
def opScalebAr (a sh : Nat) : EngOp := pureOp fun x =>
  if 47 < sh then .error excILLEGAL else
  let e := x.rd .plain locBX
  .ok ((List.range 4).foldl (fun (y : EngSt) (l : Nat) => y.wrA a l (scale 48 x.rnd e sh (x.acc a l))) x)

/-! ### Bit fields (R376) -/

/-- The field of `width` bits at `pos`. -/
def extu (s pos width : Nat) : Nat := bits s pos width

/-- The field, sign-extended to 32 bits. -/
def exts (s pos width : Nat) : Nat := unsgn 32 (sgn width (bits s pos width))

/-- d with the field replaced by the low bits of s. -/
def insF (d s pos width : Nat) : Nat := d % 2 ^ pos + s % 2 ^ width * 2 ^ pos + d / 2 ^ (pos + width) * 2 ^ (pos + width)

/-- A bit-field instruction: position and width checked, z from the result. `f` takes d's old value, s, position, width. -/
def opField (f : Nat → Nat → Nat → Nat → Nat) (pw : EngSt → Nat × Nat) (d s : Nat) : EngOp := pureOp fun x =>
  let (pos, width) := pw x
  if width = 0 || decide (32 < pos + width) then .error excILLEGAL else
  let r := f (x.g d) (x.g s) pos width % 2 ^ 32
  .ok ((x.wrG d r).setZ r)

/-- Position and width of format F. -/
def pwImm (pos wm1 : Nat) (_ : EngSt) : Nat × Nat := (pos, wm1 + 1)

/-- Position and width from g[t]. -/
def pwReg (t : Nat) (x : EngSt) : Nat × Nat := (x.g t % 32, bits (x.g t) 8 6)

/-- EXTU. -/
def opExtu (d s pos wm1 : Nat) : EngOp := opField (fun _ s p w => extu s p w) (pwImm pos wm1) d s
/-- EXTS. -/
def opExts (d s pos wm1 : Nat) : EngOp := opField (fun _ s p w => exts s p w) (pwImm pos wm1) d s
/-- INS. -/
def opIns (d s pos wm1 : Nat) : EngOp := opField insF (pwImm pos wm1) d s
/-- EXTUR. -/
def opExtur (d s t : Nat) : EngOp := opField (fun _ s p w => extu s p w) (pwReg t) d s
/-- EXTSR. -/
def opExtsr (d s t : Nat) : EngOp := opField (fun _ s p w => exts s p w) (pwReg t) d s
/-- INSR. -/
def opInsr (d s t : Nat) : EngOp := opField insF (pwReg t) d s
/-- CLZ. -/
def opClz : Nat → Nat → EngOp := opR leadZeros (fun x _ r => x.setZ r)
/-- POPC. -/
def opPopc : Nat → Nat → EngOp := opR (fun a => ((List.range 32).map (fun i => bits a i 1)).sum) (fun x _ r => x.setZ r)
/-- BREV. -/
def opBrev : Nat → Nat → EngOp := opR (fun a => ((List.range 32).map (fun i => bits a (31 - i) 1 * 2 ^ i)).sum) (fun x _ r => x.setZ r)
/-- SHLD. -/
def opShld (d s t sh : Nat) : EngOp := opRR (fun a b => if sh = 0 then a else a * 2 ^ sh + b / 2 ^ (32 - sh)) flZ d s t

/-! ### The commands -/

/-- ADD: one issue of it on engine e. -/
def execAdd (e : Fin 1024) (d s t : Fin 32) (st : State) : Result := st.runOp e .free (opAdd d.val s.val t.val)

/-- SUB: one issue of it on engine e. -/
def execSub (e : Fin 1024) (d s t : Fin 32) (st : State) : Result := st.runOp e .free (opSub d.val s.val t.val)

/-- AND: one issue of it on engine e. -/
def execAnd (e : Fin 1024) (d s t : Fin 32) (st : State) : Result := st.runOp e .free (opAnd d.val s.val t.val)

/-- OR: one issue of it on engine e. -/
def execOr (e : Fin 1024) (d s t : Fin 32) (st : State) : Result := st.runOp e .free (opOr d.val s.val t.val)

/-- XOR: one issue of it on engine e. -/
def execXor (e : Fin 1024) (d s t : Fin 32) (st : State) : Result := st.runOp e .free (opXor d.val s.val t.val)

/-- SLL: one issue of it on engine e. -/
def execSll (e : Fin 1024) (d s t : Fin 32) (st : State) : Result := st.runOp e .free (opSll d.val s.val t.val)

/-- SRL: one issue of it on engine e. -/
def execSrl (e : Fin 1024) (d s t : Fin 32) (st : State) : Result := st.runOp e .free (opSrl d.val s.val t.val)

/-- SRA: one issue of it on engine e. -/
def execSra (e : Fin 1024) (d s t : Fin 32) (st : State) : Result := st.runOp e .free (opSra d.val s.val t.val)

/-- MULH: one issue of it on engine e. -/
def execMulh (e : Fin 1024) (d s t : Fin 32) (st : State) : Result := st.runOp e .free (opMulh d.val s.val t.val)

/-- MIN: one issue of it on engine e. -/
def execMin (e : Fin 1024) (d s t : Fin 32) (st : State) : Result := st.runOp e .free (opMin d.val s.val t.val)

/-- MAX: one issue of it on engine e. -/
def execMax (e : Fin 1024) (d s t : Fin 32) (st : State) : Result := st.runOp e .free (opMax d.val s.val t.val)

/-- SLT: one issue of it on engine e. -/
def execSlt (e : Fin 1024) (d s t : Fin 32) (st : State) : Result := st.runOp e .free (opSlt d.val s.val t.val)

/-- SLTU: one issue of it on engine e. -/
def execSltu (e : Fin 1024) (d s t : Fin 32) (st : State) : Result := st.runOp e .free (opSltu d.val s.val t.val)

/-- VADD: one issue of it on engine e. -/
def execVadd (e : Fin 1024) (d s t : Fin 32) (st : State) : Result := st.runOp e .free (opVadd d.val s.val t.val)

/-- VSUB: one issue of it on engine e. -/
def execVsub (e : Fin 1024) (d s t : Fin 32) (st : State) : Result := st.runOp e .free (opVsub d.val s.val t.val)

/-- VADDS: one issue of it on engine e. -/
def execVadds (e : Fin 1024) (d s t : Fin 32) (st : State) : Result := st.runOp e .free (opVadds d.val s.val t.val)

/-- VSUBS: one issue of it on engine e. -/
def execVsubs (e : Fin 1024) (d s t : Fin 32) (st : State) : Result := st.runOp e .free (opVsubs d.val s.val t.val)

/-- VMIN: one issue of it on engine e. -/
def execVmin (e : Fin 1024) (d s t : Fin 32) (st : State) : Result := st.runOp e .free (opVmin d.val s.val t.val)

/-- VMAX: one issue of it on engine e. -/
def execVmax (e : Fin 1024) (d s t : Fin 32) (st : State) : Result := st.runOp e .free (opVmax d.val s.val t.val)

/-- EXTUR: one issue of it on engine e. -/
def execExtur (e : Fin 1024) (d s t : Fin 32) (st : State) : Result := st.runOp e .free (opExtur d.val s.val t.val)

/-- EXTSR: one issue of it on engine e. -/
def execExtsr (e : Fin 1024) (d s t : Fin 32) (st : State) : Result := st.runOp e .free (opExtsr d.val s.val t.val)

/-- INSR: one issue of it on engine e. -/
def execInsr (e : Fin 1024) (d s t : Fin 32) (st : State) : Result := st.runOp e .free (opInsr d.val s.val t.val)

/-- SLLI: one issue of it on engine e. -/
def execSlli (e : Fin 1024) (d s sh : Fin 32) (st : State) : Result := st.runOp e .free (opSlli d.val s.val sh.val)

/-- SRLI: one issue of it on engine e. -/
def execSrli (e : Fin 1024) (d s sh : Fin 32) (st : State) : Result := st.runOp e .free (opSrli d.val s.val sh.val)

/-- SRAI: one issue of it on engine e. -/
def execSrai (e : Fin 1024) (d s sh : Fin 32) (st : State) : Result := st.runOp e .free (opSrai d.val s.val sh.val)

/-- VSLL: one issue of it on engine e. -/
def execVsll (e : Fin 1024) (d s sh : Fin 32) (st : State) : Result := st.runOp e .free (opVsll d.val s.val sh.val)

/-- VSRL: one issue of it on engine e. -/
def execVsrl (e : Fin 1024) (d s sh : Fin 32) (st : State) : Result := st.runOp e .free (opVsrl d.val s.val sh.val)

/-- VSRA: one issue of it on engine e. -/
def execVsra (e : Fin 1024) (d s sh : Fin 32) (st : State) : Result := st.runOp e .free (opVsra d.val s.val sh.val)

/-- ABS: one issue of it on engine e. -/
def execAbs (e : Fin 1024) (d s : Fin 32) (st : State) : Result := st.runOp e .free (opAbs d.val s.val)

/-- NORM: one issue of it on engine e. -/
def execNorm (e : Fin 1024) (d s : Fin 32) (st : State) : Result := st.runOp e .free (opNorm d.val s.val)

/-- SAT16: one issue of it on engine e. -/
def execSat16 (e : Fin 1024) (d s : Fin 32) (st : State) : Result := st.runOp e .free (opSat16 d.val s.val)

/-- BSWAP: one issue of it on engine e. -/
def execBswap (e : Fin 1024) (d s : Fin 32) (st : State) : Result := st.runOp e .free (opBswap d.val s.val)

/-- VABS: one issue of it on engine e. -/
def execVabs (e : Fin 1024) (d s : Fin 32) (st : State) : Result := st.runOp e .free (opVabs d.val s.val)

/-- CLZ: one issue of it on engine e. -/
def execClz (e : Fin 1024) (d s : Fin 32) (st : State) : Result := st.runOp e .free (opClz d.val s.val)

/-- POPC: one issue of it on engine e. -/
def execPopc (e : Fin 1024) (d s : Fin 32) (st : State) : Result := st.runOp e .free (opPopc d.val s.val)

/-- BREV: one issue of it on engine e. -/
def execBrev (e : Fin 1024) (d s : Fin 32) (st : State) : Result := st.runOp e .free (opBrev d.val s.val)

/-- ADDI: one issue of it on engine e. -/
def execAddi (e : Fin 1024) (d s : Fin 32) (imm : BitVec 16) (st : State) : Result := st.runOp e .free (opAddi d.val s.val imm)

/-- ANDI: one issue of it on engine e. -/
def execAndi (e : Fin 1024) (d s : Fin 32) (imm : BitVec 16) (st : State) : Result := st.runOp e .free (opAndi d.val s.val imm)

/-- ORI: one issue of it on engine e. -/
def execOri (e : Fin 1024) (d s : Fin 32) (imm : BitVec 16) (st : State) : Result := st.runOp e .free (opOri d.val s.val imm)

/-- XORI: one issue of it on engine e. -/
def execXori (e : Fin 1024) (d s : Fin 32) (imm : BitVec 16) (st : State) : Result := st.runOp e .free (opXori d.val s.val imm)

/-- LUI: one issue of it on engine e. -/
def execLui (e : Fin 1024) (d s : Fin 32) (imm : BitVec 16) (st : State) : Result := st.runOp e .free (opLui d.val s.val imm)

/-- SLTI: one issue of it on engine e. -/
def execSlti (e : Fin 1024) (d s : Fin 32) (imm : BitVec 16) (st : State) : Result := st.runOp e .free (opSlti d.val s.val imm)

/-- EXTU: one issue of it on engine e. -/
def execExtu (e : Fin 1024) (d s pos wm1 : Fin 32) (st : State) : Result := st.runOp e .free (opExtu d.val s.val pos.val wm1.val)

/-- EXTS: one issue of it on engine e. -/
def execExts (e : Fin 1024) (d s pos wm1 : Fin 32) (st : State) : Result := st.runOp e .free (opExts d.val s.val pos.val wm1.val)

/-- INS: one issue of it on engine e. -/
def execIns (e : Fin 1024) (d s pos wm1 : Fin 32) (st : State) : Result := st.runOp e .free (opIns d.val s.val pos.val wm1.val)

/-- SHLD: one issue of it on engine e. -/
def execShld (e : Fin 1024) (d s t sh : Fin 32) (st : State) : Result := st.runOp e .free (opShld d.val s.val t.val sh.val)

/-- BEXP.V: one issue of it on engine e. -/
def execBexpV (e : Fin 1024) (s : Fin 32) (st : State) : Result := st.runOp e .free (opBexpV s.val)

/-- BEXP.M: one issue of it on engine e. -/
def execBexpM (e : Fin 1024) (m : MemOp) (err : Bool) (st : State) : Result := st.runOp e .free (opBexpM m err)

/-- BEXP.A: one issue of it on engine e. -/
def execBexpA (e : Fin 1024) (a : Fin 4) (st : State) : Result := st.runOp e .free (opBexpA a.val)

/-- BXRST: one issue of it on engine e. -/
def execBxrst (e : Fin 1024) (st : State) : Result := st.runOp e .free opBxrst

/-- SCALEB.V: one issue of it on engine e. -/
def execScalebV (e : Fin 1024) (d s : Fin 32) (st : State) : Result := st.runOp e .free (opScalebVr d.val s.val 0)

/-- SCALEB.VR: one issue of it on engine e. -/
def execScalebVr (e : Fin 1024) (d s sh : Fin 32) (st : State) : Result := st.runOp e .free (opScalebVr d.val s.val sh.val)

/-- SCALEB.A: one issue of it on engine e. -/
def execScalebA (e : Fin 1024) (a : Fin 4) (st : State) : Result := st.runOp e .free (opScalebAr a.val 0)

/-- SCALEB.AR: one issue of it on engine e. -/
def execScalebAr (e : Fin 1024) (a : Fin 4) (sh : Fin 64) (st : State) : Result := st.runOp e .free (opScalebAr a.val sh.val)

end Sys2Proof.Machine
end

