-- ==== Sys2Proof/Machine/EngMac.lean ====
section
/-! DEFINITION. Engine instructions: multiply-accumulates and the accumulator group (R370 to R373). Log entries: DEDUCED 64. -/

namespace Sys2Proof.Machine

/-- A 16-bit operand, signed unless the `u` flag is set. -/
def op16 (u : Bool) (v : Nat) : Int := if u then ((v % 2 ^ 16 : Nat) : Int) else sgn 16 v

/-- One lane's accumulation: the new lane and the sticky flag that it sets. -/
def macLane (y : EngSt) (x : EngSt) (k l : Nat) (sub clr : Bool) (p : Int) : EngSt :=
  let acc : Int := if clr then 0 else sgn 48 (x.accNear k l)
  let v := if sub then acc - p else acc + p
  if v = clampS 48 v then y.wrA k l (unsgn 48 v)
  else if x.rd .late locSAT ≠ 0 then (y.wrA k l (unsgn 48 (clampS 48 v))).stick locSS true
  else (y.wrA k l (unsgn 48 v)).stick locSV true

/-- The four lanes; `x` is the engine as the instruction reads it, `y` after its post-modifies. -/
def macLanes (y x : EngSt) (k : Nat) (sub clr : Bool) (xs ys : Nat → Int) : EngSt :=
  (List.range 4).foldl (fun (y : EngSt) (l : Nat) => macLane y x k l sub clr (xs l * ys l)) y

/-- The X and Y operands of VMAC and TAPM: their addresses, and the engine after the post-modifies; the first lies in X, the second in Y. -/
def macAddrs (x : EngSt) (p : MacP) (wx wy : Nat) : Except Nat (Nat × Nat × EngSt) :=
  match x.opP p.i.val p.mi.val wx with
  | .error c => .error c
  | .ok (xa, x1) =>
    match x.opP p.j.val p.mj.val wy with
    | .error c => .error c
    | .ok (ya, _) =>
      if bankY xa || !bankY ya then .error excBANK
      else .ok (xa, ya, if p.mj.val = 0 then x1 else x1.setP p.j.val (x.circ p.j.val ya (x.stepP p.j.val p.mj.val wy)))

/-- The width of an operand. -/
def macW (bc : Bool) : Nat := if bc then 2 else 8

/-- Lane l of a memory operand. -/
def memLane (x : EngSt) (bc u : Bool) (a l : Nat) : Int := op16 u (x.load (if bc then a else a + 2 * l) 2)

/-- An operation that multiplies four times: block event 211 of PK (R523). -/
def fourTimes (f : EngSt → Except Nat EngSt) : EngOp := fun e d x =>
  match pureOp f e d x with
  | .done d y => .done (d.count (e / 256) 6 211 (e % 256) 4) y
  | r => r

/-- VMAC; `err` tells of an uncorrectable word. -/
def opVmac (p : MacP) (err : Bool) : EngOp := fourTimes fun x =>
  match macAddrs x p (macW p.bcx) (macW p.bcy) with
  | .error c => .error c
  | .ok (xa, ya, y) =>
    if err then .error excMEM
    else .ok (macLanes y x p.a.val p.sub p.clr (memLane x p.bcx p.ux xa) (memLane x p.bcy p.uy ya))

/-- TAPM: VMAC with a broadcast sample that moves one place along the delay line. -/
def opTapm (p : MacP) (err : Bool) : EngOp := fourTimes fun x =>
  if p.bcy || p.mj.val = 0 then .error excILLEGAL else
  match macAddrs x p (macW p.bcx) 2 with
  | .error c => .error c
  | .ok (xa, ya, y) =>
    let wa := x.circ p.j.val ya (-(x.stepP p.j.val p.mj.val 2))
    match x.addrCheck p.j.val wa 2 with
    | some c => .error c
    | none =>
      if !bankY wa then .error excBANK
      else if err then .error excMEM
      else
        let y := macLanes y x p.a.val p.sub p.clr (memLane x p.bcx p.ux xa) (fun _ => op16 p.uy (x.load ya 2))
        .ok { y.landTapm true with tapm := some (wa, x.load ya 2, x.n) }

/-- VMACR. -/
def opVmacr (q : MacQ) : EngOp := fourTimes fun x =>
  if !(vecOk q.s.val && vecOk q.t.val) then .error excILLEGAL else
  let o := fun (r : Nat) (bc u : Bool) (l : Nat) => op16 u (lane (x.pair r) (if bc then 0 else l))
  .ok (macLanes x x q.a.val q.sub q.clr (o q.s.val q.bcx q.ux) (o q.t.val q.bcy q.uy))

/-! ### Accumulator group (R372) -/

/-- Zero the lanes of an accumulator. -/
def EngSt.clearAcc (x : EngSt) (a : Nat) : EngSt := (List.range 4).foldl (fun (y : EngSt) (l : Nat) => y.wrA a l 0) x

/-- A lane shifted right with rounding, exact. -/
def accShift (x : EngSt) (a sh l : Nat) : Int := shrRound x.rnd (sgn 48 (x.acc a l)) sh

/-- The four lanes shifted, rounded and clamped to 16 bits. -/
def accPack (x : EngSt) (a sh : Nat) : Nat := ofLanes (fun l => unsgn 16 (clampS 16 (accShift x a sh l)))

/-- Whether a lane was clamped. -/
def accClamps (x : EngSt) (a sh : Nat) : Bool := (List.range 4).any (fun l => decide (accShift x a sh l ≠ clampS 16 (accShift x a sh l)))

/-- SACC. -/
def opSacc (a k am sh : Nat) (z : Bool) : EngOp := pureOp fun x =>
  if 47 < sh then .error excILLEGAL else
  match x.opP k am 8 with
  | .error c => .error c
  | .ok (p, y) =>
    let y := (y.store p 8 (accPack x a sh)).stick locSS (accClamps x a sh)
    .ok (if z then y.clearAcc a else y)

/-- PACK. -/
def opPack (g a sh : Nat) (z : Bool) : EngOp := pureOp fun x =>
  if decide (47 < sh) || !vecOk g then .error excILLEGAL else
  let y := (x.wrVecLoad g (accPack x a sh)).stick locSS (accClamps x a sh)
  .ok (if z then y.clearAcc a else y)

/-- CLRA. -/
def opClra (a : Nat) : EngOp := pureOp fun x => .ok (x.clearAcc a)

/-- ACCR. -/
def opAccr (g a l : Nat) : EngOp := pureOp fun x => .ok (x.wrLoad g (x.acc a l))

/-- ACCRH. -/
def opAccrh (g a l : Nat) : EngOp := pureOp fun x => .ok (x.wrLoad g (unsgn 32 (sgn 16 (x.acc a l / 2 ^ 32))))

/-- ACCW. -/
def opAccw (a l g : Nat) : EngOp := pureOp fun x => if vecOk g then .ok (x.wrA a l (x.pair g)) else .error excILLEGAL

/-! ### The commands -/

/-- VMAC: one issue of it on engine e. -/
def execVmac (e : Fin 1024) (p : MacP) (err : Bool) (s : State) : Result := s.runOp e .free (opVmac p err)

/-- TAPM: one issue of it on engine e. -/
def execTapm (e : Fin 1024) (p : MacP) (err : Bool) (s : State) : Result := s.runOp e .free (opTapm p err)

/-- VMACR: one issue of it on engine e. -/
def execVmacr (e : Fin 1024) (q : MacQ) (s : State) : Result := s.runOp e .free (opVmacr q)

/-- SACC: one issue of it on engine e. -/
def execSacc (e : Fin 1024) (a : Fin 4) (k : Fin 8) (am : Fin 4) (sh : Fin 64) (z : Bool) (s : State) : Result :=
  s.runOp e .free (opSacc a.val k.val am.val sh.val z)

/-- PACK: one issue of it on engine e. -/
def execPack (e : Fin 1024) (g : Fin 32) (a : Fin 4) (sh : Fin 64) (z : Bool) (s : State) : Result := s.runOp e .free (opPack g.val a.val sh.val z)

/-- CLRA: one issue of it on engine e. -/
def execClra (e : Fin 1024) (a : Fin 4) (s : State) : Result := s.runOp e .free (opClra a.val)

/-- ACCR: one issue of it on engine e. -/
def execAccr (e : Fin 1024) (g : Fin 32) (a l : Fin 4) (s : State) : Result := s.runOp e .free (opAccr g.val a.val l.val)

/-- ACCRH: one issue of it on engine e. -/
def execAccrh (e : Fin 1024) (g : Fin 32) (a l : Fin 4) (s : State) : Result := s.runOp e .free (opAccrh g.val a.val l.val)

/-- ACCW: one issue of it on engine e. -/
def execAccw (e : Fin 1024) (a l : Fin 4) (g : Fin 32) (s : State) : Result := s.runOp e .free (opAccw a.val l.val g.val)

end Sys2Proof.Machine
end

