-- ==== Sys2Proof/Machine/HostOps.lean ====
section
/-! DEFINITION. How Hearth takes a command from a function's ring and answers it (R453, R459 to R464, R473). Log entries: DEDUCED 75. -/

namespace Sys2Proof.Machine

/-- Whether Hearth serves rings: from start-up step 2 on, except in EMBER (R70, R473). -/
def Dev.served (d : Dev) : Bool := decide (2 ≤ d.rd F.HRT_BOOT_step {}) && d.mode != .ember

/-- Whether a function's ring is served: the function is present and its ring enabled. -/
def Dev.ringOpen (d : Dev) (fn : Nat) : Bool :=
  d.served && decide (d.rd F.HRT_FN_STAT_type (Ix.at fn) ≠ 0) && d.flag F.HRT_CQ_CFG_enable (Ix.at fn)

/-- Whether a command is denied to a virtual function (R453). -/
def vfDenies (group code : Nat) : Bool :=
  group = grpIMAGE || group = grpMODE || group = grpREPAIR || group = grpKILN || (group = grpKEY && code = 7) ||
  (group = grpQUERY && decide (3 < code))

/-- Whether a mode accepts a command (R473). -/
def Mode.takes (m : Mode) (group code : Nat) : Bool :=
  match m with
  | .cold | .load => group = grpQUERY || group = grpLOG || group = grpKEY || (group = grpIMAGE && code = 3) || (group = grpMODE && code = 2)
  | .ember => false
  | _ => true

/-- The status of a command that its mode does not accept: MODE for TXN commands (R127), STATE otherwise (R426, R464). -/
def modeStatus (group : Nat) : Nat := if group = grpTXN then 0x0B else if group = grpKEY then 0x03 else 0x01

/-- Take a command: the gates of R453 and R473, then its own effect. A command without a response yet answers later. A ring that is not served
takes nothing. -/
def Dev.command (d : Dev) (c : HostCmd) (group code : Nat) (f : Dev → Dev × Option Reply) : Dev :=
  if !d.ringOpen c.fn then d else
  let d := d.addWrap F.HRT_CQ_HEAD_taken (Ix.at c.fn)
  if d.isVf c.fn && vfDenies group code then d.respond c group code { status := 0x81 }
  else if !d.mode.takes group code then d.respond c group code { status := modeStatus group, detail := d.mode.code }
  else match f d with
    | (d, some r) => d.respond c group code r
    | (d, none) => d

/-- A refusal: nothing changes but the response. -/
def refuse (d : Dev) (status : Nat) (detail : Nat := 0) : Dev × Option Reply := (d, some { status := status, detail := detail })

/-- Success. -/
def done (d : Dev) (result : List Nat := []) : Dev × Option Reply := (d, some { status := 0, result := result })

end Sys2Proof.Machine
end

