-- ==== Sys2Proof/Machine/Crc.lean ====
section
/-! DEFINITION. The CRC-32 with the IEEE 802.3 polynomial (R87, R198, R200), and reading little-endian fields from bytes. Log entries: DEDUCED 97. -/

namespace Sys2Proof.Machine

/-- Shift a CRC-32 by one bit, reflected form. -/
def crcBit (c : BitVec 32) : BitVec 32 := if c.getLsbD 0 then (c >>> 1) ^^^ 0xEDB88320#32 else c >>> 1

/-- Take one byte into a CRC-32. -/
def crcByte (c : BitVec 32) (b : Byte) : BitVec 32 :=
  let x := c ^^^ b.zeroExtend 32
  crcBit (crcBit (crcBit (crcBit (crcBit (crcBit (crcBit (crcBit x)))))))

/-- The CRC-32 of a list of bytes. -/
def crc32 (bytes : List Byte) : Nat := (~~~ (bytes.foldl crcByte 0xFFFFFFFF#32)).toNat

/-- The little-endian number in a list of bytes. -/
def leNat : List Byte → Nat
  | [] => 0
  | b :: r => b.toNat + 256 * leNat r

/-- The field of n bytes at offset o. -/
def fieldAt (bytes : List Byte) (o n : Nat) : Nat := leNat ((bytes.drop o).take n)

/-- Whether the n bytes at offset o are zero. -/
def zeroAt (bytes : List Byte) (o n : Nat) : Bool := ((bytes.drop o).take n).all (fun b => b == 0#8)

end Sys2Proof.Machine
end

