-- ==== Sys2Proof/Machine/Fabric.lean ====
section
/-! DEFINITION. The logic fabric (chapter The Logic Fabric): the floor plan, the cell, carry and MAC functions as pure definitions, and the
commands on tap guards, PLLs, global nets and crossing bundles. What an image's frame bits connect is not modelled bit by bit: the spec
gives no bit places of the settings inside a frame (log entry 3). Log entries: DEDUCED 43, 45, 46; PRESUMED 44. -/

namespace Sys2Proof.Machine

/-! ### Floor plan (R151 to R153) -/

/-- Types of columns. -/
inductive ColType where
  | clockIo | logic | bram | deep | mac
  deriving DecidableEq, Repr

/-- The type of column c (R151): by its offset in its section of 90. -/
def colType (c : Nat) : ColType :=
  let o := c % 90
  if o = 0 then .clockIo
  else if [5, 11, 13, 17, 78, 83, 85, 89].contains o then .bram
  else if [6, 14, 79, 86].contains o then .mac
  else if o = 12 || o = 84 then .deep
  else .logic

/-- Minors of a column's frames (R92). -/
def ColType.minors : ColType → Nat
  | .clockIo => 64 | .logic => 24 | .bram => 20 | .deep => 20 | .mac => 24

/-- Whether a frame address names a frame (R92). -/
def frameExists (a : Nat) : Bool :=
  decide (a < 2 ^ 24) && decide (bits a 20 4 < 12) && decide (bits a 16 4 < 12) && decide (bits a 6 10 < 720) &&
  decide (bits a 0 6 < (colType (bits a 6 10)).minors)

/-- The ordinal of a block RAM or deep RAM column in its row: the columns of its type to its left (R152). -/
def colOrdinal (c : Nat) : Nat := ((List.range c).filter (fun x => colType x == colType c)).length

/-! ### The logic cell (R154, R155) -/

/-- The next value of a flip-flop: the first matching row of R154. -/
def ffNext (globalReset regionReset asyncSr syncSr edge ce initV srV dIn q : Bool) : Bool :=
  if globalReset || regionReset then initV
  else if asyncSr then srV
  else if edge && syncSr then srV
  else if edge && ce then dIn
  else q

/-- One bit of a carry chain: the carry out and the sum (R155). -/
def carryBit (p g c : Bool) : Bool × Bool := (if p then c else g, xor p c)

/-- A carry chain over its bits, lowest first: the sums and the carry out. -/
def carryChain : List (Bool × Bool) → Bool → List Bool × Bool
  | [], c => ([], c)
  | (p, g) :: r, c =>
    let (co, s) := carryBit p g c
    let (ss, last) := carryChain r co
    (s :: ss, last)

/-- The longest chain, in bits: 20 ricks of 16 cells of 2 bits. -/
def maxChain : Nat := 640

/-! ### Long lines (R158 to R160) -/

/-- The line number of R159. -/
def lineNumber (die : Nat) (vertical : Bool) (rowOrSection track : Nat) : Nat :=
  die * 2 ^ 28 + vertical.toNat * 2 ^ 27 + (if vertical then 1024 else 2048) * rowOrSection + track

/-- Whether a line number names a line (R156, R159). -/
def lineExists (n : Nat) : Bool :=
  decide (n / 2 ^ 28 < 12) && (if bits n 27 1 = 0 then decide (bits n 0 27 < 2048 * 12) else decide (bits n 0 27 < 1024 * 8))

/-- The tap that the guard lets drive a line: the lowest-numbered enabled one (R160). -/
def tapWinner (enabled : List Nat) : Option Nat :=
  enabled.foldl (fun b t => match b with | none => some t | some x => some (min x t)) none

/-! ### MAC blocks (R166) -/

/-- Modes of a MAC block with their operands. -/
inductive MacMode where
  | multiply
  | multiplyAdd (c : Int)
  | accumulate (p : Int) (load : Bool)
  | preAdd (dIn : Int) (minus : Bool)
  | cascade (pcin : Int)
  deriving DecidableEq, Repr

/-- The exact result of a mode. -/
def macExact (m : MacMode) (a b : Int) : Int :=
  match m with
  | .multiply => a * b
  | .multiplyAdd c => a * b + c
  | .accumulate p load => if load then a * b else p + a * b
  | .preAdd x minus => (if minus then a - x else a + x) * b
  | .cascade pcin => a * b + pcin

/-- Round half-up at bit k: the bits below k are dropped after half a unit is added. -/
def roundHalfUp (k : Nat) (x : Int) : Int := if k = 0 then x else (x + 2 ^ (k - 1)) / 2 ^ k * 2 ^ k

/-- Saturate to w bits, signed. -/
def satTo (w : Nat) (x : Int) : Int := max (-(2 ^ (w - 1) : Int)) (min ((2 ^ (w - 1) : Int) - 1) x)

/-- P with rounding at bit k and saturation to `sat` bits if set, else wrapped at 64 bits; with the sticky it sets (`sat`, `ovf`). -/
def macResult (m : MacMode) (a b : Int) (k : Nat) (sat : Option Nat) : Int × Bool × Bool :=
  let x := roundHalfUp k (macExact m a b)
  match sat with
  | some w => (satTo w x, decide (satTo w x ≠ x), false)
  | none => let y := signed 64 (x % 2 ^ 64).toNat; (y, false, decide (y ≠ x))

/-! ### Block RAM collisions (R164) -/

/-- What an address holds after two writes, port A's and port B's, whose edges fall at the given times in ps: within 300 ps port A's
word, otherwise the later. -/
def bramTwoWrites (tA tB wordA wordB : Nat) : Nat :=
  if tA < tB + 300 && decide (tB < tA + 300) then wordA else if tB < tA then wordA else wordB

/-! ### Pins (R177) -/

/-- The fabric die that GPIO pin n reaches. -/
def gpioDie (n : Nat) : Nat := 3 * (n / 48) + n % 48 / 16

/-- The fabric die that LVDS pair n reaches. -/
def lvdsDie (n : Nat) : Nat := 3 * (n / 8) + (if n % 8 < 3 then 0 else if n % 8 < 5 then 1 else 2)

/-- The endpoint ID of access point a of fabric die f (R175). -/
def apEndpoint (f a : Nat) : Nat := f / 3 * 256 + a * 8 + f % 3

/-- The base of access point a's target window (R175). -/
def apWindow (f a : Nat) : Nat := 0x4000000000 + f * 0x400000000 + a * 0x20000000

/-! ### Regions and frames -/

/-- The defined region of fabric die f that holds clock row r, column c, if any (R134). -/
def Dev.regionAt (d : Dev) (f r c : Nat) : Option Nat :=
  (List.range 64).find? (fun n =>
    let a := Ix.on f n
    d.flag F.FAB_RGN_DEF_defined a && decide (d.rd F.FAB_RGN_DEF_first_row a ≤ r) && decide (r ≤ d.rd F.FAB_RGN_DEF_last_row a) &&
    decide (d.rd F.FAB_RGN_DEF_first_col a ≤ c) && decide (c < d.rd F.FAB_RGN_DEF_first_col a + d.rd F.FAB_RGN_DEF_width a))

/-- The region that holds a frame, if any. -/
def Dev.frameRegion (d : Dev) (a : Nat) : Option Nat := d.regionAt (bits a 20 4) (bits a 16 4) (bits a 6 10)

/-- Whether a region of fabric die f has a twin (R141). -/
def Dev.hasTwin (d : Dev) (f n : Nat) : Bool := d.flag F.FAB_RGN_CTL_twin_valid (Ix.on f n)

/-- Severity for a fault of a frame's place: DEGRADE where its region has a twin, else STREAM. -/
def Dev.frameSev (d : Dev) (a : Nat) : Nat :=
  match d.frameRegion a with
  | some n => if d.hasTwin (bits a 20 4) n then sevDegrade else sevStream
  | none => sevStream

/-- TAP_CLASH (R160): a tap guard sees two enables; `frame` holds the second one. -/
def execTapClash (line : BitVec 32) (frame : BitVec 24) (s : State) : Result := s.act fun d =>
  let f := line.toNat / 2 ^ 28
  if !lineExists line.toNat || !frameExists frame.toNat then d else
  let a := Ix.onDie f
  let d := { d with fab := { d.fab with clashes := addNew d.fab.clashes (line.toNat, frame.toNat) } }
  let d := (((d.st F.FAB_STATUS_clash a 1).st F.FAB_CLASH_line a line.toNat).bump F.FAB_CLASH_count a).fabCount f 34 0 1
  d.occur { die := 4 + f, block := 0, inst := (d.frameRegion frame.toNat).getD 0, cls := 1, sev := d.frameSev frame.toNat,
            action := 1, detail := line.toNat }

/-- A frame is restored: the guards it made clash are quiet, and `clash` clears when none of the die sees two enables (R160). -/
def Dev.unclash (d : Dev) (frame : Nat) : Dev :=
  let f := bits frame 20 4
  let d := { d with fab := { d.fab with clashes := d.fab.clashes.filter (fun e => decide (e.2 ≠ frame)) } }
  d.stB F.FAB_STATUS_clash (Ix.onDie f) (d.fab.clashes.any (fun e => decide (e.1 / 2 ^ 28 = f)))

/-! ### PLLs and global nets (R161, R162, R167, R170, R171) -/

/-- The nets that PLL p of die f feeds. -/
def Dev.pllNets (d : Dev) (f p : Nat) : List (Nat × Nat) :=
  ((List.range 12).flatMap (fun g => (List.range 32).map (fun n => (g, n)))).filter (fun x => d.netPll x.1 x.2 == some (f, p))

/-- Gate a net: its flip-flops hold (R170). -/
def Dev.gateNet (d : Dev) (f n : Nat) : Dev := { d with fab := { d.fab with ungated := remove d.fab.ungated (netKey f n) } }

/-- Gate the nets of a PLL. -/
def Dev.gatePll (d : Dev) (f p : Nat) : Dev := (d.pllNets f p).foldl (fun (d : Dev) (x : Nat × Nat) => d.gateNet x.1 x.2) d

/-- Set the lock status of PLL p of die f in all the places that show it (R180). -/
def Dev.pllShow (d : Dev) (f p : Nat) (v : Bool) : Dev :=
  let d := d.stB F.FAB_PLL_STAT_locked (Ix.on f p) v
  let a := Ix.onDie f
  if p < 4 then
    let o := d.rd F.FAB_STATUS_pll_locked a
    d.st F.FAB_STATUS_pll_locked a (o - bits o p 1 * 2 ^ p + v.toNat * 2 ^ p)
  else
    let o := d.rd F.FAB_STATUS_spll_locked a
    d.st F.FAB_STATUS_spll_locked a (o - bits o (p - 4) 1 * 2 ^ (p - 4) + v.toNat * 2 ^ (p - 4))

/-- Whether PLL p of die f exists and is enabled by the program in effect. -/
def Dev.pllOn (d : Dev) (f p : Nat) : Bool := pllExists f p && d.flag F.FAB_PLL_CFG_enable (Ix.on f p)

/-- PLL_LOCK (R162, R170): the PLL locks and the nets it feeds are ungated. A stopped PLL, or one whose reference breaks the limits, does
not lock. -/
def execPllLock (f : Fin 12) (p : Fin 6) (s : State) : Result := s.act fun d =>
  let a := Ix.on f p
  if !d.pllOn f p || d.flag F.FAB_PLL_STAT_ref_bad a then d else
  let d := d.pllShow f p true
  (d.pllNets f p).foldl (fun (d : Dev) (x : Nat × Nat) => d.ungateNet x.1 x.2) d

/-- A record of class CLOCK that names a PLL. -/
def Dev.pllRecord (d : Dev) (f p sev : Nat) : Dev :=
  d.occur { die := 4 + f, block := 0, inst := p, cls := 2, sev := sev }

/-- PLL_LOCK_LATE (R162): not locked 10 ms after step 9; its record is raised to severity STREAM. -/
def execPllLockLate (f : Fin 12) (p : Fin 6) (s : State) : Result := s.act fun d =>
  if d.pllOn f p && d.fab.step9 && !d.flag F.FAB_PLL_STAT_locked (Ix.on f p) then d.pllRecord f p sevStream else d

/-- Whether a reference in kHz keeps PLL p of die f within the limits of R167. -/
def Dev.pllRefOk (d : Dev) (f p khz : Nat) : Bool :=
  let a := Ix.on f p
  pllInLimits khz (d.rd F.FAB_PLL_CFG_mult a) (d.rd F.FAB_PLL_CFG_div_in a) (d.rd F.FAB_PLL_CFG_div0 a) (d.rd F.FAB_PLL_CFG_div1 a)
    (d.rd F.FAB_PLL_CFG_div2 a) (d.rd F.FAB_PLL_CFG_div3 a) d.fuse.grade

/-- PLL_REF_MEASURED (R167): the reference of a pin or lane, measured for 10 µs when the PLL starts or relocks. Out of limits, the PLL
is held stopped with `ref_bad` and a record of class CLOCK and severity STREAM names it. -/
def execPllRefMeasured (f : Fin 12) (p : Fin 6) (khz : Fin 16777216) (s : State) : Result := s.act fun d =>
  let a := Ix.on f p
  if !d.pllOn f p || d.rd F.FAB_PLL_CFG_ref_sel a = 0 then d else
  let d := d.st F.FAB_PLL_STAT_ref_khz a khz
  if d.pllRefOk f p khz then d.st F.FAB_PLL_STAT_ref_bad a 0
  else (((d.st F.FAB_PLL_STAT_ref_bad a 1).pllShow f p false).gatePll f p).pllRecord f p sevStream

/-- PLL_LOCK_LOSS (R170): a locked PLL loses lock; its outputs are gated at once and the loss is counted. -/
def execPllLockLoss (f : Fin 12) (p : Fin 6) (s : State) : Result := s.act fun d =>
  let a := Ix.on f p
  if !d.flag F.FAB_PLL_STAT_locked a then d else
  ((d.pllShow f p false).st F.FAB_PLL_STAT_losses a (min 65535 (d.rd F.FAB_PLL_STAT_losses a + 1))).gatePll f p

/-- Set bit n of `net_stopped`. -/
def Dev.setStopped (d : Dev) (f n : Nat) (v : Bool) : Dev :=
  let a := Ix.onDie f
  let o := d.rd F.FAB_STATUS_net_stopped a
  d.st F.FAB_STATUS_net_stopped a (o - bits o n 1 * 2 ^ n + v.toNat * 2 ^ n)

/-- NET_STOPPED (R171): a monitored net without an edge for 10 µs. `aps` and `sps` are the access points and stream ports that the net
clocks by the image; they close, and the flip-flops hold. -/
def execNetStopped (f : Fin 12) (n : Fin 32) (aps : List (Fin 32)) (sps : List (Fin 64)) (allTwinned : Bool) (s : State) : Result := s.act fun d =>
  if !d.flag F.FAB_GNET_mon_en (Ix.on f n) || bits (d.rd F.FAB_STATUS_net_stopped (Ix.onDie f)) n 1 = 1 then d else
  let d := d.setStopped f n true
  let d := { d with fab := { d.fab with
    closedAp := aps.foldl (fun l (a : Fin 32) => addNew l (f.val * 32 + a.val, netKey f n)) d.fab.closedAp
    closedSp := sps.foldl (fun l (p : Fin 64) => addNew l (f.val * 64 + p.val, netKey f n)) d.fab.closedSp } }
  d.occur { die := 4 + f, block := 0, inst := n, cls := 2, sev := if allTwinned then sevDegrade else sevStream }

/-- NET_RESUMED (R171): 1 ms of continuous edges; the ports reopen and the flip-flops run on from their held values. -/
def execNetResumed (f : Fin 12) (n : Fin 32) (s : State) : Result := s.act fun d =>
  if bits (d.rd F.FAB_STATUS_net_stopped (Ix.onDie f)) n 1 = 0 then d else
  let d := d.setStopped f n false
  { d with fab := { d.fab with
    closedAp := d.fab.closedAp.filter (fun e => decide (e.2 ≠ netKey f n))
    closedSp := d.fab.closedSp.filter (fun e => decide (e.2 ≠ netKey f n)) } }

/-! ### Crossing bundles (R172, R173, R195, R196) -/

/-- The lower fabric die of pair 2b + q. -/
def pairDie (pair : Nat) : Nat := 3 * (pair / 2) + pair % 2

/-- Set a field of `FAB_XB_SUM` on both dies of a pair: they read the same values (R180). -/
def Dev.xbSet (d : Dev) (pair : Nat) (f : Fld) (v : Nat) : Dev :=
  (d.st f (Ix.on (pairDie pair) 1) v).st f (Ix.on (pairDie pair + 1) 0) v

/-- A field of the pair's summary. -/
def Dev.xbGet (d : Dev) (pair : Nat) (f : Fld) : Nat := d.rd f (Ix.on (pairDie pair) 1)

/-- Cycles flagged on `xb_err`: counted for the pair, and as the receiving die's event. -/
def Dev.xbErrors (d : Dev) (pair : Nat) (upper : Bool) (n : Nat) : Dev :=
  let d := (d.bump F.FAB_XB_SUM_err_cycles (Ix.on (pairDie pair) 1) n).bump F.FAB_XB_SUM_err_cycles (Ix.on (pairDie pair + 1) 0) n
  if upper then d.fabCount (pairDie pair + 1) 32 0 n else d.fabCount (pairDie pair) 33 0 n

/-- Repair-pool bundles of a pair (R196): 64. -/
def poolSize : Nat := 64

/-- Bundles of a pair (R172), the field map's key of a bundle. -/
def bundleKey (pair bundle : Nat) : Nat := pair * 4096 + bundle

/-- A record about a bundle, named by its receiving die, its region and its number. -/
def Dev.bundleRecord (d : Dev) (pair bundle : Nat) (upper : Bool) (rgn sev action : Nat) (repair : Bool) : Dev :=
  d.occur { die := 4 + pairDie pair + upper.toNat, block := 0, inst := rgn, cls := 6, sev := sev, action := action, sub := bundle,
            detail := bundleKey pair bundle, needs := repair, repair := repair, res := if repair then [bundleKey pair bundle] else [] }

/-- BUNDLE_REPAIR (R196): four parity errors within 1,024 cycles. With a shadow mismatch a free spare takes the wire; with none over two
rotations it takes the check wire's place; with both spares in use the whole bundle moves to a free pool bundle; with the pool used up
the fault goes to REPAIR and relocation of the region. -/
def execBundleRepair (pair : Fin 8) (bundle : Fin 4096) (upper : Bool) (err : BundleErr) (rgn : Fin 64) (s : State) : Result := s.act fun d =>
  let k := bundleKey pair bundle
  let wire := match err with | .wire k => k.val | .checkWire => 34
  let st := Tbl.get BundleSt.fresh d.fab.bundles k
  let d := d.xbErrors pair upper 4
  if st.taken.length < 2 then
    let last := decide (st.taken.length = 1)
    let d := { d with fab := { d.fab with bundles := d.fab.bundles.set BundleSt.fresh k { st with taken := st.taken ++ [wire] } },
                      crd := { d.crd with fieldMap := addNew d.crd.fieldMap (10000 + k, wire) } }
    let d := if last then (d.xbSet pair F.FAB_XB_SUM_one_spare (d.xbGet pair F.FAB_XB_SUM_one_spare - 1)).xbSet pair
        F.FAB_XB_SUM_two_spares (d.xbGet pair F.FAB_XB_SUM_two_spares + 1)
      else d.xbSet pair F.FAB_XB_SUM_one_spare (d.xbGet pair F.FAB_XB_SUM_one_spare + 1)
    d.bundleRecord pair bundle upper rgn (if last then sevDegrade else sevNote) 2 false
  else if d.xbGet pair F.FAB_XB_SUM_pool_used < poolSize then
    let d := { d with fab := { d.fab with bundles := d.fab.bundles.set BundleSt.fresh k { taken := [], pooled := true } },
                      crd := { d.crd with fieldMap := addNew d.crd.fieldMap (10000 + k, 63) } }
    let n := d.xbGet pair F.FAB_XB_SUM_pool_used + 1
    let d := (d.xbSet pair F.FAB_XB_SUM_pool_used n).xbSet pair F.FAB_XB_SUM_two_spares (d.xbGet pair F.FAB_XB_SUM_two_spares - 1)
    d.bundleRecord pair bundle upper rgn (if n = poolSize then sevDegrade else sevNote) 2 false
  else d.bundleRecord pair bundle upper rgn sevDegrade 13 true

end Sys2Proof.Machine
end

