-- ==== Sys2Proof/Machine/Cord.lean ====
section
/-! DEFINITION. Cords, light cords and the Virven Link (chapter of that name): the cord's two ends, credits and replay, training, repair
of wires, the capability exchange, and far mode. Log entries: DEDUCED 47, 48, 49, 50. -/

namespace Sys2Proof

open Machine

/-- Whether a cord is a light cord. -/
def CordId.isLight : CordId → Bool
  | .cord _ => false
  | .light _ => true

/-- A status field of a cord: the cord's own or the light cord's. -/
def CordId.fld (c : CordId) (f g : Fld) : Fld := if c.isLight then g else f

/-- Data wires of a full-width cord, spares, and the wires that narrowing needs. -/
def CordId.width (c : CordId) : Nat := if c.isLight then 16 else 64
/-- Spares. -/
def CordId.spares (c : CordId) : Nat := if c.isLight then 2 else 4
/-- Narrow width. -/
def CordId.half (c : CordId) : Nat := if c.isLight then 8 else 32

/-- FR and CR are wires of a cord (68, 69); a light cord carries both on its wavelengths. -/
def CordId.ctl (c : CordId) : List Nat := if c.isLight then [] else [68, 69]

/-- Wires that a spare can stand in for, lowest first. -/
def CordId.served (c : CordId) : List Nat := List.range c.width ++ c.ctl

/-- The spare wires' numbers. -/
def CordId.spareList (c : CordId) : List Nat := (List.range c.spares).map (fun i => c.width + i)

/-- Assign spares to bad wires in order: pairs of spare and wire, with the wires that got none. -/
def assign : List Nat → List Nat → List (Nat × Nat) × List Nat
  | _, [] => ([], [])
  | [], ws => ([], ws)
  | s :: ss, w :: ws => let (m, l) := assign ss ws; ((s, w) :: m, l)

/-- How a cord comes out of a test of its wires: full with a spare map, narrow with a spare map and its logical wires, or out. -/
inductive Width where
  | full (m : List (Nat × Nat))
  | narrow (m : List (Nat × Nat)) (l : List Nat)
  | out
  deriving DecidableEq, Repr

/-- The width that a cord's bad wires allow (R187, R191, R192). -/
def CordId.widthFor (c : CordId) (bad : List Nat) (narrowEn : Bool) : Width :=
  let good := c.spareList.filter (fun s => !bad.contains s)
  let (m, left) := assign good (c.served.filter (fun w => bad.contains w))
  if left.isEmpty then .full m
  else if left.contains 69 then .out
  else
    let (mc, leftC) := assign good (c.ctl.filter (fun w => bad.contains w))
    let l := ((List.range c.width ++ c.spareList).filter (fun w => !bad.contains w && !(mc.any (fun p => decide (p.1 = w))))).take c.half
    if narrowEn && leftC.isEmpty && decide (l.length = c.half) then .narrow mc l else .out

/-- The rate bits of a kind of link: cord, light cord, far mode. -/
def LinkId.rateMask : LinkId → Nat
  | .cord (.cord _) => 0x3
  | .cord (.light _) => 0x30
  | .far _ _ => 0x300

end Sys2Proof

namespace Sys2Proof.Machine

/-! ### Ends (R181, R204) -/

/-- The two base dies of a neighbouring pair: lower, higher. -/
def pairDies (p : Nat) : Nat × Nat := if p = 0 then (0, 1) else if p = 1 then (2, 3) else if p = 2 then (0, 2) else (1, 3)

/-- The key of a cord in `CrdSt.cords`. -/
def cordKey : CordId → Nat
  | .cord k => k
  | .light k => 1000 + k

/-- The key of a link. -/
def linkKey : LinkId → Nat
  | .cord c => cordKey c
  | .far b g => 2000 + 2 * b + g

/-- The register instances of both ends of a cord, sender first; the fabric die's end of a fabric cord has none. -/
def cordEnds : CordId → Option Ix × Option Ix
  | .cord k =>
    if k < 384 then
      let a := Ix.on (k / 96) (k % 96)
      if k.val % 32 < 16 then (none, some a) else (some a, none)
    else
      let p := (k.val - 384) / 64
      let n := 96 + 64 * (p / 2) + (k.val - 384) % 64
      let lo := Ix.on (pairDies p).1 n
      let hi := Ix.on (pairDies p).2 n
      if (k.val - 384) % 64 < 32 then (some lo, some hi) else (some hi, some lo)
  | .light k =>
    let p := k.val / 8
    let m := 8 * (p / 2) + k.val % 8
    let lo := Ix.on (pairDies p).1 m
    let hi := Ix.on (pairDies p).2 m
    if k.val % 8 < 4 then (some lo, some hi) else (some hi, some lo)

/-- The end that names a cord in fault records: the receiver's, or the sender's where the receiver is a fabric die. -/
def cordHome (c : CordId) : Ix :=
  match cordEnds c with
  | (_, some a) => a
  | (some a, none) => a
  | (none, none) => {}

/-- Set a field at both ends. -/
def Dev.cordSet (d : Dev) (c : CordId) (f g : Fld) (v : Nat) : Dev :=
  let e := cordEnds c
  let d := match e.1 with | some a => d.st (c.fld f g) a v | none => d
  match e.2 with | some a => d.st (c.fld f g) a v | none => d

/-- Count at one end. -/
def Dev.cordBump (d : Dev) (c : CordId) (rx : Bool) (f g : Fld) : Dev :=
  match (if rx then (cordEnds c).2 else (cordEnds c).1) with
  | some a => d.bump (c.fld f g) a
  | none => d

/-- A field read at the home end. -/
def Dev.cordGet (d : Dev) (c : CordId) (f g : Fld) : Nat := d.rd (c.fld f g) (cordHome c)

/-- State of a cord (R204). -/
def Dev.cordState (d : Dev) (c : CordId) : Nat := d.cordGet c F.CRD_CORD_STAT_state F.CRD_LC_STAT_state

/-- Set the state of a cord. -/
def Dev.setCordState (d : Dev) (c : CordId) (v : Nat) : Dev := d.cordSet c F.CRD_CORD_STAT_state F.CRD_LC_STAT_state v

/-- What a cord holds. -/
def Dev.cord (d : Dev) (c : CordId) : CordSt := Tbl.get CordSt.fresh d.crd.cords (cordKey c)

/-- Change what a link holds. -/
def Dev.setLink (d : Dev) (k : Nat) (x : CordSt) : Dev :=
  { d with crd := { d.crd with cords := d.crd.cords.set CordSt.fresh k x } }

/-- Keep the ledger's count of one virtual channel of a cord at its receiving base die (R499): pool kind 1. -/
def Dev.cordLedger (d : Dev) (c : CordId) (old new : CordSt) (vc : Nat) : Dev :=
  let a := match cordEnds c with
    | (_, some a) => a
    | (some a, none) => a
    | (none, none) => {}
  let inst := ((if c.isLight then 224 else 0) + a.i) * 4 + vc
  let o := old.outst.getD vc 0
  let n := new.outst.getD vc 0
  if o < n then d.issue a.die 1 inst (n - o) else if n < o then d.giveBack a.die 1 inst (o - n) else d

/-- Change what a cord holds; the ledger follows its outstanding credits. -/
def Dev.setCord (d : Dev) (c : CordId) (x : CordSt) : Dev :=
  let old := d.cord c
  (List.range 4).foldl (fun (d : Dev) (v : Nat) => d.cordLedger c old x v) (d.setLink (cordKey c) x)

/-- Whether a cord is ACTIVE, held included. -/
def Dev.cordUp (d : Dev) (c : CordId) : Bool := d.cordState c = 2 || d.cordState c = 3 || d.cordState c = 4

/-- A fault record about a cord. -/
def Dev.cordRecord (d : Dev) (c : CordId) (sev action wire : Nat) : Dev :=
  let a := cordHome c
  d.occur { die := a.die, block := 10, inst := a.i, cls := 5, sev := sev, action := action, sub := wire, detail := cordKey c }

/-- Change element i of a list of counts. -/
def bumpAt (l : List Nat) (i : Nat) (f : Nat → Nat) : List Nat := l.set i (f (l.getD i 0))

/-! ### Wires (R183, R187, R191, R193, R194) -/

/-- The wires that the fuse map and the field map mark bad (R187, R203). -/
def Dev.mappedBad (d : Dev) (c : CordId) : List Nat :=
  ((d.fuse.spareMap ++ d.crd.fieldMap).filter (fun e => decide (e.1 = cordKey c))).map (·.2)

/-- Show a spare map in the cord's registers at both ends. -/
def Dev.showMap (d : Dev) (c : CordId) (m : List (Nat × Nat)) : Dev :=
  let w := fun s => (m.find? (fun p => decide (p.1 = s))).map (·.2)
  let d := d.cordSet c F.CRD_CORD_STAT_spares_used F.CRD_LC_STAT_spares_used m.length
  let e := cordEnds c
  let put := fun (d : Dev) (o : Option Ix) =>
    match o with
    | none => d
    | some a =>
      if c.isLight then (d.st F.CRD_LC_MAP_w16 a ((w 16).getD 31)).st F.CRD_LC_MAP_w17 a ((w 17).getD 31)
      else (((d.st F.CRD_CORD_MAP_s0_wire a ((w 64).getD 127)).st F.CRD_CORD_MAP_s1_wire a ((w 65).getD 127)).st
        F.CRD_CORD_MAP_s2_wire a ((w 66).getD 127)).st F.CRD_CORD_MAP_s3_wire a ((w 67).getD 127)
  put (put d e.1) e.2

/-- The spare map that the registers show. -/
def Dev.spareMapOf (d : Dev) (c : CordId) : List (Nat × Nat) :=
  let a := cordHome c
  let l := if c.isLight then [(16, d.rd F.CRD_LC_MAP_w16 a), (17, d.rd F.CRD_LC_MAP_w17 a)]
    else [(64, d.rd F.CRD_CORD_MAP_s0_wire a), (65, d.rd F.CRD_CORD_MAP_s1_wire a), (66, d.rd F.CRD_CORD_MAP_s2_wire a),
          (67, d.rd F.CRD_CORD_MAP_s3_wire a)]
  l.filter (fun p => decide (p.2 ≠ if c.isLight then 31 else 127))

/-- Mark wires bad and show their number. -/
def Dev.markBad (d : Dev) (c : CordId) (ws : List Nat) : Dev :=
  let x := d.cord c
  let bad := ws.foldl addNew x.bad
  (d.setCord c { x with bad := bad }).cordSet c F.CRD_CORD_STAT_bad_wires F.CRD_LC_STAT_bad_waves bad.length

/-- Whether narrowing is allowed at the cord's home end. -/
def Dev.narrowEn (d : Dev) (c : CordId) : Bool := d.flag F.CRD_CFG_narrow_en (Ix.onDie (cordHome c).die)

/-- The cord goes out of service (R192): unacknowledged flits are discarded, and the severity is STREAM when one of them is not a line unit
of a twin slot; the credits outstanding are counted back before it may retrain (R197). -/
def Dev.cordOut (d : Dev) (c : CordId) : Dev :=
  let x := d.cord c
  let sev := if x.replay.any (fun f => !f.twin) then sevStream else sevDegrade
  let d := d.setCord c { x with replay := [], hold := false, test := none, waitW := [], nak := false, tries := 0,
                                owed := x.outst.any (fun n => decide (0 < n)) }
  (d.setCordState c 5).cordRecord c sev 11 0

/-! ### Training (R187, R194) -/

/-- Whether an end of the cord lies on a base die in reset. -/
def Dev.cordEndReset (d : Dev) (c : CordId) : Bool :=
  let r := fun (o : Option Ix) => match o with | some a => d.clk.inReset.contains a.die | none => false
  r (cordEnds c).1 || r (cordEnds c).2

/-- A newly found bad wire joins the field map and a NOTE record names it. -/
def Dev.learn (d : Dev) (c : CordId) (w : Nat) : Dev :=
  ({ d with crd := { d.crd with fieldMap := addNew d.crd.fieldMap (cordKey c, w) } }).cordRecord c sevNote 2 w

/-- CORD_TRAINING (R187): steps 1 to 3 of training. `clk0` and `clk1` say which forwarded clock gives lock, `failed` which wires failed the
PRBS test. A light cord recovers its clock from the data. Step 4 follows as CAPABILITY_RECORD. -/
def execCordTraining (c : CordId) (clk0 clk1 : Bool) (failed : List (Fin 70)) (s : State) : Result := s.act fun d =>
  let x := d.cord c
  if d.cordEndReset c || x.owed || !x.replay.isEmpty then d else
  let bad0 := failed.map (·.val)
  let d := d.on x.retest (fun d => { d with crd := { d.crd with
    fieldMap := d.crd.fieldMap.filter (fun e => decide (e.1 ≠ cordKey c) || bad0.contains e.2) } })
  let new := bad0.filter (fun w => !(d.mappedBad c).contains w)
  let d := new.foldl (fun d w => d.learn c w) d
  let bad := (d.mappedBad c ++ bad0).foldl addNew []
  let d := (d.setCord c CordSt.fresh).markBad c bad
  let d := d.cordSet c F.CRD_CORD_STAT_cap_err F.CRD_LC_STAT_cap_err 0
  let noClock := !c.isLight && !clk0 && !clk1
  let d := if c.isLight then d else
    let v := if clk0 then 0 else 1
    let d := match (cordEnds c).1 with | some a => d.st F.CRD_CORD_STAT_ck_spare a v | none => d
    match (cordEnds c).2 with | some a => d.st F.CRD_CORD_STAT_ck_spare a v | none => d
  if noClock then d.cordOut c else
  match c.widthFor bad (d.narrowEn c) with
  | .out => d.cordOut c
  | .full m => (d.showMap c m).setCordState c 1
  | .narrow m l => ((d.showMap c m).setCord c { d.cord c with narrow := l }).setCordState c 1

/-- CORD_TRAINING_TIMEOUT (R187): not ACTIVE 200 µs (100 µs for a light cord) after training started. -/
def execCordTrainingTimeout (c : CordId) (s : State) : Result := s.act fun d =>
  if d.cordState c = 1 then (d.setCordState c 5).cordRecord c sevDegrade 11 0 else d

/-! ### Flits, credits and replay (R185, R186, R199) -/

/-- Whether the sender may put a flit in a slot: a new one needs a credit and room in the replay buffer, and none is new during a hold;
a replayed one is in the replay buffer. -/
def CordSt.maySend (x : CordSt) (f : CordFlit) : Bool :=
  x.replay.contains f ||
  (decide (f.seq.val = x.nextSeq) && !x.hold && decide (x.replay.length < 32) && decide (x.outst.getD f.vc 0 < x.limit.getD f.vc 0))

/-- The sender's side of a slot. -/
def CordSt.send (x : CordSt) (f : CordFlit) : CordSt :=
  if x.replay.contains f then x
  else { x with replay := x.replay ++ [f], nextSeq := (x.nextSeq + 1) % 64, outst := bumpAt x.outst f.vc (· + 1) }

/-- CORD_FLIT_SLOT (R186): a flit is sent, checked by parity and CRC-8, and delivered to the receiver's buffer in sequence; the receiver
discards a flit that fails, and every later one until the replay. -/
def execCordFlitSlot (c : CordId) (flit : CordFlit) (checksOk : Bool) (s : State) : Result := s.act fun d =>
  let x := d.cord c
  if !d.cordUp c || d.mode == .ember || !x.maySend flit then d else
  let x := x.send flit
  if !checksOk then (d.setCord c { x with nak := true }).cordBump c true F.CRD_CORD_STAT_crc_err F.CRD_LC_STAT_crc_err
  else if flit.seq.val = x.expect then
    d.setCord c { x with nak := false, tries := 0, expect := (x.expect + 1) % 64, buffer := bumpAt x.buffer flit.vc (· + 1) }
  else d.setCord c x

/-- One millisecond in ROOT cycles. -/
def msCycles : Nat := 3200000

/-- A credit return or acknowledge that the partner's record does not allow is ignored and counted; the fourth within 1 ms retrains the link
with a record of severity STREAM (R199). -/
def Dev.badConduct (d : Dev) (c : CordId) : Dev :=
  let d := d.cordBump c false F.CRD_CORD_STAT_bad_conduct F.CRD_LC_STAT_bad_conduct
  let x := d.cord c
  let l := (x.conduct.filter (fun t => decide (d.root < t + msCycles))) ++ [d.root]
  if l.length < 4 then d.setCord c { x with conduct := l }
  else ((d.setCord c { x with conduct := [] }).setCordState c 1).cordRecord c sevStream 8 0

/-- Take a returned credit. -/
def Dev.takeCredit (d : Dev) (c : CordId) (vc : Nat) : Dev :=
  let x := d.cord c
  if x.outst.getD vc 0 = 0 then d.badConduct c
  else d.setCord c { x with outst := bumpAt x.outst vc (· - 1), counted := bumpAt x.counted vc (fun n => (n + 1) % 32) }

/-- Drop acknowledged flits: those up to and including sequence `ack`. -/
def dropAcked (ack : Nat) : List CordFlit → List CordFlit
  | [] => []
  | f :: r => if f.seq.val = ack then r else dropAcked ack r

/-- Take an acknowledged sequence: of an unacknowledged flit, or the last acknowledged one again; any other names a sequence that was never
sent. -/
def Dev.takeAck (d : Dev) (c : CordId) (ack : Nat) : Dev :=
  let x := d.cord c
  if x.replay.any (fun f => decide (f.seq.val = ack)) then d.setCord c { x with replay := dropAcked ack x.replay }
  else if (ack + 1 + x.replay.length) % 64 = x.nextSeq then d
  else d.badConduct c

/-- CORD_CREDIT_FIELD (R185, R186): a CR field returns a credit and acknowledges a sequence; with NAK it carries the sequence that the
receiver expects, and the sender replays from there. The receiver's buffer entry is free whether or not the field arrives whole. -/
def execCordCreditField (c : CordId) (credit : Option (Fin 4)) (ack : Fin 64) (nak crcOk : Bool) (s : State) : Result := s.act fun d =>
  if !d.cordUp c || d.mode == .ember then d else
  let x := d.cord c
  let d := match credit with
    | some v => d.setCord c { x with buffer := bumpAt x.buffer v (· - 1) }
    | none => d
  if !crcOk then d.cordBump c false F.CRD_CORD_STAT_crc_err F.CRD_LC_STAT_crc_err else
  let d := match credit with | some v => d.takeCredit c v | none => d
  if nak then
    let d := d.takeAck c ((ack.val + 63) % 64)
    (d.setCord c { d.cord c with tries := max 1 (d.cord c).tries }).cordBump c false F.CRD_CORD_STAT_replays F.CRD_LC_STAT_replays
  else d.takeAck c ack

/-- TOTAL (R186): the returns that CRC failures lost are credited; a count beyond what is outstanding is ignored and counted. -/
def execTotal (c : CordId) (vc : Fin 4) (count : Fin 32) (crcOk : Bool) (s : State) : Result := s.act fun d =>
  if !d.cordUp c || d.mode == .ember then d else
  if !crcOk then d.cordBump c false F.CRD_CORD_STAT_crc_err F.CRD_LC_STAT_crc_err else
  let x := d.cord c
  let lost := (count.val + 32 - x.counted.getD vc 0) % 32
  if x.outst.getD vc 0 < lost then d.badConduct c
  else d.setCord c { x with outst := bumpAt x.outst vc (· - lost), counted := x.counted.set vc count.val }

/-- Hold the cord's data (R189). -/
def Dev.holdCord (d : Dev) (c : CordId) : Dev := (d.setCord c { d.cord c with hold := true }).setCordState c 4

/-- REPLAY_TIMEOUT (R186, R192): a replay not begun within 64 slots of the NAK is repeated once; after a second failure the cord is held and
its wires retested, and after a retest it goes out of service. -/
def execReplayTimeout (c : CordId) (s : State) : Result := s.act fun d =>
  let x := d.cord c
  if !d.cordUp c || x.tries = 0 then d
  else if x.tries = 1 then
    (d.setCord c { x with tries := 2 }).cordBump c false F.CRD_CORD_STAT_replays F.CRD_LC_STAT_replays
  else if x.retested then d.cordOut c
  else (d.setCord c { x with tries := 0, retested := true }).holdCord c

/-! ### Repair of wires (R188 to R191) -/

/-- Free good spares. -/
def Dev.freeSpares (d : Dev) (c : CordId) : List Nat :=
  c.spareList.filter (fun s => !(d.cord c).bad.contains s && !((d.spareMapOf c).any (fun p => decide (p.1 = s))))

/-- Give the next wire a spare to be tested, or where none is free hold the cord for narrowing (a data wire, FR) or take it out of
service (CR, or narrowing not allowed). -/
def Dev.trySpare (d : Dev) (c : CordId) (wire : Nat) : Dev :=
  match d.freeSpares c with
  | s :: _ => (d.setCord c { d.cord c with test := some (s, wire) }).holdCord c
  | [] => if wire = 69 || !d.narrowEn c then d.cordOut c else (d.setCord c { d.cord c with test := none, waitW := [] }).holdCord c

/-- WIRE_FAILED (R188, R189): the receiving end declares a wire failed. A wire that a spare has taken over fails as that spare. A clock
moves to the other one; with both failed the cord is out of service. Wires declared while a spare is under test join the same remap. -/
def execWireFailed (c : CordId) (wire : Fin 72) (s : State) : Result := s.act fun d =>
  let x := d.cord c
  if !d.cordUp c || (c.isLight && decide (18 ≤ wire.val)) || x.bad.contains wire.val then d else
  let d := d.markBad c [wire]
  if 70 ≤ wire.val then
    if x.bad.contains 70 || x.bad.contains 71 then d.cordOut c
    else if wire.val = 70 then d.cordSet c F.CRD_CORD_STAT_ck_spare F.CRD_CORD_STAT_ck_spare 1
    else d.cordSet c F.CRD_CORD_STAT_ck_spare F.CRD_CORD_STAT_ck_spare 0
  else
    let m := d.spareMapOf c
    if c.spareList.contains wire.val then
      let d := d.showMap c (m.filter (fun p => decide (p.1 ≠ wire.val)))
      match m.find? (fun p => decide (p.1 = wire.val)) with
      | none => d
      | some p => if x.test.isSome then d.setCord c { d.cord c with waitW := (d.cord c).waitW ++ [p.2] } else d.trySpare c p.2
    else if x.test.isSome then d.setCord c { d.cord c with waitW := (d.cord c).waitW ++ [wire.val] }
    else d.trySpare c wire

/-- REMAP (R185, R189): the control field with the wire number reaches the sender, which stops new flits until RESUME. -/
def execRemap (c : CordId) (wire : Fin 72) (s : State) : Result := s.act fun d =>
  if !d.cordUp c then d
  else if (d.cord c).test.isNone && decide (wire.val < 70) && !((d.spareMapOf c).any (fun p => decide (p.2 = wire.val))) then
    (d.markBad c [wire]).trySpare c wire
  else d.holdCord c

/-- SPARE_TEST_DONE (R189, R190): a spare that passes takes the wire, joins the field map and is logged (DEGRADE for the last spare); one that
fails is marked bad and the next is tried. -/
def execSpareTestDone (c : CordId) (pass : Bool) (s : State) : Result := s.act fun d =>
  let x := d.cord c
  match x.test with
  | none => d
  | some (sp, w) =>
    let d := d.setCord c { x with test := none }
    if !pass then ((d.markBad c [sp]).trySpare c w)
    else
      let d := d.showMap c (d.spareMapOf c ++ [(sp, w)])
      let d := { d with crd := { d.crd with fieldMap := addNew d.crd.fieldMap (cordKey c, w) } }
      let d := d.cordRecord c (if (d.freeSpares c).isEmpty then sevDegrade else sevNote) 2 w
      match x.waitW with
      | [] => d
      | w' :: r => (d.setCord c { d.cord c with waitW := r }).trySpare c w'

/-- RESUME (R189): the hold ends and the sender replays from the last acknowledged sequence. -/
def execResume (c : CordId) (s : State) : Result := s.act fun d =>
  let x := d.cord c
  if d.cordState c ≠ 4 || x.test.isSome then d else
  let d := (d.setCord c { x with hold := false }).setCordState c (if x.narrow.isEmpty then 2 else 3)
  if x.replay.isEmpty then d else d.cordBump c false F.CRD_CORD_STAT_replays F.CRD_LC_STAT_replays

/-- Restart after a retest of every wire: with its bad wires the cord runs full, narrow or goes out of service. -/
def Dev.restart (d : Dev) (c : CordId) (failed : List Nat) (mustNarrow : Bool) : Dev :=
  let d := d.markBad c failed
  let x := d.cord c
  match c.widthFor x.bad (d.narrowEn c) with
  | .out => d.cordOut c
  | .full m =>
    if mustNarrow || !x.narrow.isEmpty then
      let mc := m.filter (fun p => c.ctl.contains p.2)
      let l := ((List.range c.width ++ c.spareList).filter
        (fun w => !x.bad.contains w && !(mc.any (fun p => decide (p.1 = w))))).take c.half
      ((d.showMap c mc).setCord c { x with narrow := l, hold := false, test := none, waitW := [] }).setCordState c 3
    else ((d.showMap c m).setCord c { x with hold := false, test := none, waitW := [] }).setCordState c 2
  | .narrow m l =>
    ((d.showMap c m).setCord c { x with narrow := l, hold := false, test := none, waitW := [] }).setCordState c 3

/-- NARROW (R191): the cord holds, retests every data wire and spare, restarts on its lowest-numbered good wires and replays; it is logged
with severity DEGRADE. -/
def execNarrow (c : CordId) (failed : List (Fin 70)) (s : State) : Result := s.act fun d =>
  if !d.cordUp c then d
  else if !d.narrowEn c then d.cordOut c
  else
    let d := d.restart c (failed.map (·.val)) true
    if d.cordState c = 3 then d.cordRecord c sevDegrade 3 0 else d

/-- RETEST (R185, R186): every wire is retested and the cord restarts at the width its wires allow. -/
def execRetest (c : CordId) (failed : List (Fin 70)) (s : State) : Result := s.act fun d =>
  if !d.cordUp c then d else
  let was := (d.cord c).narrow.isEmpty
  let d := d.restart c (failed.map (·.val)) false
  if was && decide (d.cordState c = 3) then d.cordRecord c sevDegrade 3 0 else d

/-- CORD_OUT_OF_SERVICE (R192). -/
def execCordOutOfService (c : CordId) (s : State) : Result := s.act fun d =>
  if d.cordUp c || d.cordState c = 1 then d.cordOut c else d

/-! ### The capability exchange (R198, R199) -/

/-- Whether a record is valid (R198): length, magic, reserved bytes, ranges and CRC-32. -/
def capValid (far : Bool) (r : List Byte) : Bool :=
  decide (r.length = 64) && decide (r.take 4 = [0x56#8, 0x4C#8, 0x4E#8, 0x4B#8]) && zeroAt r 0x1A 2 && zeroAt r 0x29 3 && zeroAt r 0x2D 15 &&
  decide (fieldAt r 0x1C 4 < 64) && decide (fieldAt r 0x0B 1 ≤ 1) && decide (fieldAt r 0x11 1 ≤ 1) && decide (fieldAt r 0x12 1 ≤ 64) &&
  decide (fieldAt r 0x13 1 ≤ 2) && decide (fieldAt r 0x2C 1 ≤ if far then 3 else 0) && decide (crc32 (r.take 0x3C) = fieldAt r 0x3C 4)

/-- Set bits among the low `n` of a number. -/
def popBits (n v : Nat) : Nat := ((List.range n).filter (fun i => decide (bits v i 1 = 1))).length

/-- The settings of R199 from the partner's record: the code of the first failure (0 for none) and whether the link runs narrow. -/
def capSettings (l : LinkId) (ownBad ownSpares ownWidth ownMin : Nat) (r : List Byte) : Nat × Bool :=
  let theirBad := popBits 72 (fieldAt r 0x20 9)
  let reach := fun w sp bad m => decide (m ≤ w + sp - bad)
  let full := decide (ownBad ≤ ownSpares) && decide (theirBad ≤ fieldAt r 0x10 1)
  let narrow := reach ownWidth ownSpares ownBad ownMin && reach (fieldAt r 0x0E 1) (fieldAt r 0x10 1) theirBad (fieldAt r 0x0F 1)
  if fieldAt r 4 1 ≠ 1 then (2, false)
  else if fieldAt r 0x0C 2 &&& 0x0333 &&& l.rateMask = 0 then (3, false)
  else if !full && !narrow then (4, false)
  else if fieldAt r 0x16 1 = 0 then (5, false)
  else if fieldAt r 0x1C 4 % 2 = 0 then (6, false)
  else (0, !full)

/-- Set a link's `cap_err`. -/
def Dev.setCapErr (d : Dev) (l : LinkId) (v : Nat) : Dev :=
  match l with
  | .cord c => d.cordSet c F.CRD_CORD_STAT_cap_err F.CRD_LC_STAT_cap_err v
  | .far b g => d.st F.CRD_FAR_STAT_cap_err (Ix.on b g) v

/-- Whether a link is in its capability exchange. -/
def Dev.inExchange (d : Dev) (l : LinkId) : Bool :=
  match l with
  | .cord c => decide (d.cordState c = 1)
  | .far b g => decide (d.rd F.CRD_FAR_STAT_state (Ix.on b g) = 2)

/-- Take a link down. -/
def Dev.linkDown (d : Dev) (l : LinkId) : Dev :=
  match l with
  | .cord c => d.setCordState c 0
  | .far b g => d.st F.CRD_FAR_STAT_state (Ix.on b g) 0

/-- The link becomes ACTIVE with the partner's credits; a far-mode group shows the accepted record and the round trip it measured, which is
a free value. -/
def Dev.linkUp (d : Dev) (l : LinkId) (narrow : Bool) (r : List Byte) : Dev :=
  let x := Tbl.get CordSt.fresh d.crd.cords (linkKey l)
  let d := d.setLink (linkKey l) { x with limit := (List.range 4).map (fun v => fieldAt r (0x14 + v) 1), outst := [0, 0, 0, 0] }
  match l with
  | .cord c => d.setCordState c (if narrow || !x.narrow.isEmpty then 3 else 2)
  | .far b g =>
    let a := Ix.on b g
    let d := (List.range 8).foldl (fun d w => d.st F.CRD_FAR_CAP_bytes { a with j := w } (fieldAt r (8 * w) 8)) d
    let (v, d) := d.draw 16
    (d.st F.CRD_FAR_STAT_rtt_ns a v).st F.CRD_FAR_STAT_state a (if d.rd F.CRD_FAR_STAT_lanes_up a = 15 then 3 else 4)

/-- The bad wires, spares, width and narrowest width of this device's end. -/
def Dev.ownEnd (d : Dev) (l : LinkId) : Nat × Nat × Nat × Nat :=
  match l with
  | .cord c => ((d.cord c).bad.length, c.spares, c.width, if d.narrowEn c then c.half else c.width)
  | .far b g => (4 - popBits 4 (d.rd F.CRD_FAR_STAT_lanes_up (Ix.on b g)), 0, 4, 1)

/-- A capability record arrives on a link in its exchange (R198, R199): an invalid one is dropped and counted; the second of two identical valid
ones is accepted and gives the link its settings. -/
def Dev.takeRecord (d : Dev) (l : LinkId) (r : List Byte) : Dev :=
  if !d.inExchange l then d else
  let far := match l with | .far _ _ => true | _ => false
  let x := Tbl.get CordSt.fresh d.crd.cords (linkKey l)
  if !capValid far r then
    let d := (d.setLink (linkKey l) { x with lastRec := [], recSeen := 0 }).setCapErr l 1
    match l with
    | .cord c => d.cordBump c true F.CRD_CORD_STAT_crc_err F.CRD_LC_STAT_crc_err
    | .far _ _ => d
  else
    let same := decide (x.recSeen = 1) && decide (x.lastRec = r.map (·.toNat))
    if !same then d.setLink (linkKey l) { x with lastRec := r.map (·.toNat), recSeen := 1 }
    else
      let d := d.setLink (linkKey l) { x with lastRec := [], recSeen := 0 }
      let (bad, sp, w, m) := d.ownEnd l
      let (err, narrow) := capSettings l bad sp w m r
      let d := d.setCapErr l err
      if err ≠ 0 then d.linkDown l else d.linkUp l narrow r

/-- CAPABILITY_RECORD (R198). -/
def execCapabilityRecord (l : LinkId) (bytes : List Byte) (s : State) : Result := s.act fun d => d.takeRecord l bytes

/-- CAP_TIMEOUT (R198): no record accepted within 1 ms; the link stays down. -/
def execCapTimeout (l : LinkId) (s : State) : Result := s.act fun d =>
  if d.inExchange l then (d.setCapErr l 7).linkDown l else d

/-! ### Far mode (R200, R201) -/

/-- A fault record about far-mode group g of base die b: instance 224 + g, after the cord indexes (log entry). -/
def Dev.farRecord (d : Dev) (b g sev action : Nat) (lane : Nat) : Dev :=
  d.occur { die := b, block := 10, inst := 224 + g, cls := 5, sev := sev, action := action, sub := lane }

/-- The far-mode link is lost (R197, R201). -/
def Dev.farLost (d : Dev) (b g : Nat) : Dev :=
  let k := 2000 + 2 * b + g
  let x := Tbl.get CordSt.fresh d.crd.cords k
  let d := d.setLink k { x with replay := [], nak := false, hold := false, owed := x.outst.any (fun n => decide (0 < n)) }
  (d.st F.CRD_FAR_STAT_state (Ix.on b g) 0).farRecord b g sevStream 11 0

/-- A far flit in sequence is delivered; its packet's tail is checked against R201. -/
def Dev.farFlit (d : Dev) (b g seq vc : Nat) (tail : Bool) (src dst : Nat) : Dev :=
  let k := 2000 + 2 * b + g
  let x := Tbl.get CordSt.fresh d.crd.cords k
  if seq ≠ x.expect then d.setLink k { x with nak := true } else
  let d := d.setLink k { x with nak := false, expect := (x.expect + 1) % 4096, buffer := bumpAt x.buffer vc (· + 1) }
  let a := Ix.on b g
  d.on (tail && (decide (src / 1024 ≠ d.rd F.CRD_FAR_CFG_pkg a) || decide (dst / 1024 ≠ 0))) (fun d => d.bump F.CRD_FAR_STAT_bad_pkts a)

/-- The link word of a far frame: a returned credit, an acknowledge or a NAK. -/
def Dev.farLinkWord (d : Dev) (b g : Nat) (f : FarFrame) : Dev :=
  let k := 2000 + 2 * b + g
  let x := Tbl.get CordSt.fresh d.crd.cords k
  let d := match f.credit with
    | some v => if x.outst.getD v 0 = 0 then d else d.setLink k { x with outst := bumpAt x.outst v (· - 1) }
    | none => d
  let x := Tbl.get CordSt.fresh d.crd.cords k
  let d := d.setLink k { x with replay := x.replay.filter (fun e => decide (f.ack % 64 < e.seq.val)) }
  d.on f.nak (fun d => d.bump F.CRD_FAR_STAT_replays (Ix.on b g))

/-- FAR_FRAME (R200): a frame on a far-mode lane, by type. A frame that fails its CRC-32 is discarded and NAKed. -/
def execFarFrame (b : Fin 4) (g : Fin 2) (frame : FarFrame) (s : State) : Result := s.act fun d =>
  let a := Ix.on b g
  let k := 2000 + 2 * b.val + g.val
  let st := d.rd F.CRD_FAR_STAT_state a
  if !d.flag F.CRD_FAR_CFG_enable a || st < 2 then d else
  if !frame.crcOk then d.setLink k { Tbl.get CordSt.fresh d.crd.cords k with nak := true } else
  match frame.kind with
  | .capability r => d.takeRecord (.far b g) r
  | .idle => if st < 3 then d else d.farLinkWord b g frame
  | .control cmd => if st < 3 then d else
      (d.setLink k { Tbl.get CordSt.fresh d.crd.cords k with hold := decide (cmd.val ≠ 3) }).farLinkWord b g frame
  | .flit seq vc tail src dst => if st < 3 then d else (d.farFlit b g seq vc tail src dst).farLinkWord b g frame

/-- FAR_LANE_RESTRIPE (R200): a lane loses lock; the group restripes over the lanes that remain without loss of data. -/
def execFarLaneRestripe (b : Fin 4) (g : Fin 2) (lane : Fin 4) (s : State) : Result := s.act fun d =>
  let a := Ix.on b g
  let up := d.rd F.CRD_FAR_STAT_lanes_up a
  if d.rd F.CRD_FAR_STAT_state a < 3 || bits up lane 1 = 0 then d else
  let d := d.st F.CRD_FAR_STAT_lanes_up a (up - 2 ^ lane.val)
  if up = 2 ^ lane.val then d.farLost b g
  else (d.st F.CRD_FAR_STAT_state a 4).farRecord b g sevDegrade 3 lane

/-- FAR_PARTNER_SILENT (R201): the partner has not answered for 1 ms. -/
def execFarPartnerSilent (b : Fin 4) (g : Fin 2) (s : State) : Result := s.act fun d =>
  if d.rd F.CRD_FAR_STAT_state (Ix.on b g) < 3 then d else d.farLost b g

end Sys2Proof.Machine
end

