-- ==== Sys2Proof/Machine/Noc.lean ====
section
/-! DEFINITION. The network on chip (chapter of that name): routers and their ports, routing, the checks of packets, requests and their
responses, and domains that close. Log entries: DEDUCED 36, 47, 51, 54; PRESUMED 44. -/

namespace Sys2Proof

/-- Whether a packet is a non-posted request. -/
def NocPkt.nonPosted (p : NocPkt) : Bool := p.op.val = 0 || p.op.val = 1

/-- The destination's package number. -/
def NocPkt.pkg (p : NocPkt) : Nat := p.dst.toNat / 1024

/-- The destination router, base die × 32 + router. -/
def NocPkt.dstRouter (p : NocPkt) : Nat := p.dst.toNat % 1024 / 8

/-- The destination's index in a routing table (R216). -/
def NocPkt.entry (p : NocPkt) : Nat := if p.pkg = 0 then p.dstRouter else 127 + p.pkg

/-- Whether the virtual channel matches the opcode (R211). -/
def NocPkt.vcOk (p : NocPkt) : Bool :=
  match p.op.val with
  | 0 | 1 | 2 => p.vc.val = 0
  | 3 => p.vc.val = 1
  | 4 => p.vc.val = 2
  | _ => p.vc.val = 3

/-- Whether every field is in range (R209 to R211). -/
def NocPkt.fieldsOk (p : NocPkt) : Bool :=
  !p.resv && decide (p.op.val ≤ 5) && p.vcOk && decide (p.addr.toNat / 2 ^ 48 % 256 = 0) &&
  (if p.op.val = 0 then decide (1 ≤ p.rdLen.val) else p.rdLen.val = 0) && (p.op.val = 3 || p.code.val = 0) &&
  (!(p.op.val = 1 || p.op.val = 2) || p.full || p.len.val = 1) && (p.op.val ≠ 5 || decide (p.len.val < 16))

end Sys2Proof

namespace Sys2Proof.Machine

/-! ### Addresses (R208) -/

/-- The endpoint ID of port p of router r of base die b. -/
def endpoint (b r p : Nat) : Nat := b * 256 + r * 8 + p

/-- The fixed decoder of R208: the destination endpoint ID of an address; none where no row matches. -/
def Dev.decodeAddr (d : Dev) (addr : Nat) : Option Nat :=
  let x := addr % 2 ^ 46
  let pkg := addr / 2 ^ 46 % 4
  if pkg ≠ 0 then some (pkg * 1024)
  else if x < 8 * 0x600000000 then
    let k := x / 0x600000000
    some (endpoint (k / 2) ((if k % 2 = 0 then 0 else 24) + bits x 10 3) 3)
  else if 0x4000000000 ≤ x && decide (x < 0x4000000000 + 12 * 0x400000000) then
    let f := (x - 0x4000000000) / 0x400000000
    some (endpoint (f / 3) ((x - 0x4000000000) % 0x400000000 / 0x20000000) (f % 3))
  else if 0x8000000000 ≤ x && decide (x < 0x8000000000 + 32 * 0x1000000) then
    let p := (x - 0x8000000000) / 0x1000000
    some (endpoint (p / 8) (8 + p % 8) 3)
  else if 0xC000000000 ≤ x && decide (x < 0xC080000000) then some (endpoint d.hearthDie 18 4)
  else if 0xF000000000 ≤ x && decide (x < 0xF040000000) then some (endpoint ((x - 0xF000000000) / 0x10000000) 17 4)
  else if 0xF400000000 ≤ x && decide (x < 0xF40C000000) then some (endpoint ((x - 0xF400000000) / 0x1000000 / 3) 17 4)
  else none

/-! ### Ports and neighbours (R205, R207) -/

/-- The router at the far end of a port. -/
def neighbour (b r p : Nat) : Option (Nat × Nat) :=
  if !hasPort b r p then none else
  match p with
  | 8 => some (b, r - 8)
  | 9 => some (b, r + 1)
  | 10 => some (b, r + 8)
  | 11 => some (b, r - 1)
  | 12 => some (b ^^^ 1, rtRow r * 8 + (7 - rtCol r))
  | 13 => some (b ^^^ 2, (3 - rtRow r) * 8 + rtCol r)
  | 14 => some (b ^^^ 1, rtRow r * 8 + (7 - rtCol r))
  | 15 => some (b ^^^ 2, (3 - rtRow r) * 8 + rtCol r)
  | _ => none

/-- Every router with its number across the device: base die × 32 + router. -/
def allRouters : List Nat := List.range 128

/-- The pair of neighbouring base dies that a cross port leads over (R181). -/
def portPair (b p : Nat) : Nat := if p = 12 || p = 14 then b / 2 else 2 + b % 2

/-- The four cords, or the one light cord, that carry a cross port's outgoing flits (R207). -/
def portCords (b r p : Nat) : List CordId :=
  let q := portPair b p
  let low := if p = 12 || p = 14 then decide (b % 2 = 0) else decide (b < 2)
  let g := if p = 12 then 2 * rtRow r + (if rtCol r = 7 || rtCol r = 0 then 0 else 1) else rtCol r
  let l := if p = 14 then rtRow r else rtCol r / 2
  if p = 12 || p = 13 then
    (List.range 4).map (fun i => CordId.cord (Fin.ofNat 640 (384 + 64 * q + 4 * g + i + if low then 0 else 32)))
  else if p = 14 || p = 15 then [CordId.light (Fin.ofNat 32 (8 * q + l + if low then 0 else 4))]
  else []

/-- The cord that a packet takes (R214): (`src` + `vc`) mod n of the n cords in service. -/
def Dev.cordFor (d : Dev) (b r p : Nat) (pkt : NocPkt) : Option CordId :=
  let l := (portCords b r p).filter (fun c => d.cordUp c)
  if l.isEmpty then none else l[(pkt.src.toNat + pkt.vc.val) % l.length]?

/-- The state of router r of base die b. -/
def Dev.rtState (d : Dev) (b r : Nat) : Nat := d.rd F.NOC_RT_STAT_state (Ix.on b r)

/-- Set a router's state, with its bit of `rt_down`. -/
def Dev.setRtState (d : Dev) (b r v : Nat) : Dev :=
  let a := Ix.onDie b
  let o := d.rd F.NOC_STATUS_rt_down a
  (d.st F.NOC_RT_STAT_state (Ix.on b r) v).st F.NOC_STATUS_rt_down a (o - bits o r 1 * 2 ^ r + (if v = 1 then 0 else 2 ^ r))

/-- Whether an output port is usable: it exists, is not marked down, and a cross port has a cord in service (R214, R220). -/
def Dev.portUsable (d : Dev) (b r p : Nat) : Bool :=
  hasPort b r p && !d.noc.portDown.contains (b * 32 + r, p) && (decide (p < 12) || (portCords b r p).any (fun c => d.cordUp c))

/-! ### Domains (R224, R225) -/

/-- Whether a domain takes no new packets: marked closing, or drained. -/
def Dev.domShut (d : Dev) (x : Dom) : Bool := d.noc.closing.contains x || d.noc.drained.contains x

/-- Whether access point a of fabric die f is closed: its die or base die in reset or closing, its net stopped, or the region that claims it in
reset or closing. -/
def Dev.apClosed (d : Dev) (f a : Nat) : Bool :=
  d.dieOff (f / 3) || d.dieOff (4 + f) || d.domShut (.fabric (Fin.ofNat 12 f)) || d.fab.closedAp.any (fun e => decide (e.1 = f * 32 + a)) || d.fab.dieSwap.contains f ||
  (List.range 64).any (fun n => d.flag F.FAB_RGN_DEF_defined (Ix.on f n) && bits (d.rd F.FAB_RGN_AP_ap (Ix.on f n)) a 1 = 1 &&
    (d.fab.regionReset.contains (f * 64 + n) || d.domShut (.region (Fin.ofNat 12 f) (Fin.ofNat 64 n))))

/-- Whether port group g of base die b owns a lane of a lane group that is closing or off (R225, R294). -/
def Dev.pgShut (d : Dev) (b g : Nat) : Bool :=
  (List.range 8).any (fun k => d.domShut (.lanes (Fin.ofNat 4 b) (Fin.ofNat 8 k)) &&
    (List.range 4).any (fun i => decide (d.rd F.LN_CFG_pg (Ix.on b (4 * k + i)) = g)))

/-- Whether the endpoint at a local port lies in a domain that is closing or off (R225). -/
def Dev.localShut (d : Dev) (b r p : Nat) : Bool :=
  d.dieOff b ||
  (if p < 3 then d.apClosed (3 * b + p) r
   else if p = 3 then
     (if rtRow r = 0 then d.domShut (.stack (Fin.ofNat 8 (2 * b)))
      else if rtRow r = 3 then d.domShut (.stack (Fin.ofNat 8 (2 * b + 1)))
      else if rtRow r = 1 then d.domShut (.pack (Fin.ofNat 32 (8 * b + rtCol r)))
      else false)
   else if p = 4 && 8 ≤ r && decide (r ≤ 13) then d.pgShut b (r - 8)
   else false)

/-- The far-mode group that holds package number n (R201). -/
def Dev.farGroup (d : Dev) (n : Nat) : Option (Nat × Nat) :=
  ((List.range 8).find? (fun k => d.flag F.CRD_FAR_CFG_enable (Ix.on (k / 2) (k % 2)) &&
    decide (d.rd F.CRD_FAR_CFG_pkg (Ix.on (k / 2) (k % 2)) = n))).map (fun k => (k / 2, k % 2))

/-- Whether the far-mode group for a package is lost or fenced. -/
def Dev.farShut (d : Dev) (n : Nat) : Bool :=
  match d.farGroup n with
  | none => true
  | some g => decide (d.rd F.CRD_FAR_STAT_state (Ix.on g.1 g.2) < 3) || d.mode == .safe ||
      d.domShut (.far (Fin.ofNat 4 g.1) (Fin.ofNat 2 g.2))

/-! ### Routing (R216, R218, R220, R221) -/

/-- A routing entry in the bank of the packet's epoch: port, alternate, valid, alternate valid. -/
def Dev.routeEntry (d : Dev) (b r e : Nat) (epoch : Bool) : Nat :=
  let a : Ix := { die := b, i := r, j := e }
  let now := d.plainValue .NOC_ROUTE a
  if epoch == d.flag F.NOC_STATUS_epoch (Ix.onDie b) then now
  else (Tbl.get none d.noc.oldRoutes ((b * 32 + r) * 256 + e)).getD now

/-- What a router does with a packet it has taken in. -/
inductive RouteTo where
  | deliver (port : Nat)
  | forward (port : Nat)
  | hold
  | noroute
  | domoff
  deriving DecidableEq, Repr

/-- The routing decision of router r of base die b. -/
def Dev.route (d : Dev) (b r : Nat) (p : NocPkt) : RouteTo :=
  if p.pkg = 0 && p.dstRouter = b * 32 + r then
    let q := p.dst.toNat % 8
    if !attached b r q d.fuse.hostaSplit then .noroute
    else if d.localShut b r q && p.op.val ≠ 3 then .domoff
    else .deliver q
  else if p.pkg ≠ 0 && d.farShut p.pkg && p.op.val ≠ 3 then .domoff
  else
    let e := d.routeEntry b r p.entry p.epoch
    if bits e 8 1 = 0 then .noroute
    else
      let primary := bits e 0 4
      let port := if d.portUsable b r primary then some primary
        else if bits e 9 1 = 1 && d.portUsable b r (bits e 4 4) then some (bits e 4 4) else none
      match port with
      | none => .hold
      | some q => match neighbour b r q with
        | some n => if n.1 ≠ b && d.dieOff n.1 && p.op.val ≠ 3 then .domoff else .forward q
        | none => .forward q

/-! ### Injection and response -/

/-- `birth` of a packet injected now (R209). -/
def Dev.birthNow (d : Dev) : Fin 16 := Fin.ofNat 16 (d.root / 2 ^ 18)

/-- Send a packet into the network, stamped with the epoch and birth of its injection (R218, R223). -/
def Dev.inject (d : Dev) (p : NocPkt) : Dev :=
  d.emit (.noc { p with epoch := d.flag F.NOC_STATUS_epoch (Ix.onDie (p.src.toNat / 256 % 4)), birth := d.birthNow })

/-- The response to a request (R210, R211): data only with DONE or POISON. -/
def respPkt (p : NocPkt) (code : Nat) (data : List Word64) : NocPkt :=
  { id := p.id, op := 3, vc := 1, len := Fin.ofNat 32 (if code = 0 || code = 4 then (data.length + 15) / 16 else 0), rdLen := 0, tag := p.tag,
    code := Fin.ofNat 8 code, full := false, addr := 0, be := 0, dst := p.src, src := p.dst, epoch := p.epoch, birth := p.birth,
    poison := decide (code = 4), resv := false, data := if code = 0 || code = 4 then data else [] }

/-- Answer a non-posted request; a posted one gets no response. -/
def Dev.answer (d : Dev) (p : NocPkt) (code : Resp) (data : List Word64) : Dev :=
  d.on p.nonPosted (fun d => d.inject (respPkt p code.code data))

/-- A request that a router answers itself with NOROUTE or DOMOFF, or a posted one that it discards and counts (R221). -/
def Dev.synth (d : Dev) (b r : Nat) (p : NocPkt) (code : Resp) : Dev :=
  if p.nonPosted then d.inject (respPkt p code.code []) else d.bump F.NOC_RT_STAT_dropped (Ix.on b r)

/-! ### Router buffers and credits (R213, R226) -/

/-- The ledger instance of a router input's virtual channel. -/
def inputInst (r inp vc : Nat) : Nat := (r * 16 + inp) * 4 + vc

/-- Take a packet out of the router buffer that holds it, its credits counted back. -/
def Dev.unbuffer (d : Dev) (id : Nat) : Dev :=
  match d.noc.bufs.find? (fun x => decide (x.pkt.id = id)) with
  | none => d
  | some x =>
    ({ d with noc := { d.noc with bufs := d.noc.bufs.filter (fun y => decide (y.pkt.id ≠ id)) } }).giveBack (x.router / 32) 0
      (inputInst (x.router % 32) x.inp x.pkt.vc) x.credits

/-- Put a packet in a router's input buffer: it holds a credit for each flit that finds one of the 8 places. -/
def Dev.buffer (d : Dev) (b r inp : Nat) (p : NocPkt) (port : Option Nat) : Dev :=
  let n := min (p.len.val + 1) (8 - d.ledOut b 0 (inputInst r inp p.vc))
  let x : NocBuf := { router := b * 32 + r, inp := inp, credits := n, pkt := p, port := port }
  ({ d with noc := { d.noc with bufs := d.noc.bufs ++ [x] } }).issue b 0 (inputInst r inp p.vc) n

/-- Count discards at a router; the first in any 1 ms logs a record of severity NOTE (R212). -/
def Dev.dropAt (d : Dev) (b r : Nat) : Dev :=
  let d := d.bump F.NOC_RT_STAT_dropped (Ix.on b r)
  let quiet := match Tbl.get none d.noc.lastDrop (b * 32 + r) with
    | none => true
    | some t => decide (t + msCycles ≤ d.root)
  if quiet then
    ({ d with noc := { d.noc with lastDrop := d.noc.lastDrop.set none (b * 32 + r) (some d.root) } }).occur
      { die := b, block := 2, inst := r, cls := 8, sev := sevNote }
  else d

/-- Where a packet goes from a router (R216, R220, R221). -/
def Dev.place (d : Dev) (b r inp : Nat) (p : NocPkt) : Dev :=
  match d.route b r p with
  | .deliver q => d.buffer b r inp p (some q)
  | .forward q => d.buffer b r inp p (some q)
  | .hold => d.buffer b r inp p none
  | .noroute => d.synth b r p .noroute
  | .domoff => d.synth b r p .domoff

/-- NOC_FLIT_CHECK (R212): a packet enters a router at an input port. `corrected` single-bit errors are corrected and counted; `bad` says that a
flit is uncorrectable, disagrees with the head, or that the tail is misplaced. A packet that fails a check is discarded whole. A router that
is not in service takes nothing: the packet is lost in it (R220). -/
def execNocFlitCheck (b : Fin 4) (r : Fin 32) (inp : Fin 16) (p : NocPkt) (corrected : Nat) (bad : Bool) (s : State) : Result := s.act fun d =>
  if d.mode == .ember then d else
  let d := d.unbuffer p.id
  if d.rtState b r ≠ 1 && d.rtState b r ≠ 2 then d else
  let d := d.on (decide (0 < corrected)) (fun d => d.bump F.NOC_RT_STAT_ecc_corr (Ix.on b r) corrected)
  if bad || !p.fieldsOk || (decide (p.src.toNat / 1024 ≠ 0) && decide (p.pkg ≠ 0)) then d.dropAt b r
  else d.place b r inp p

/-- ROUTE_HOLD_EXPIRED (R220): a packet held for `hold_max` with no usable port is answered NOROUTE. -/
def execRouteHoldExpired (id : Nat) (s : State) : Result := s.act fun d =>
  match d.noc.bufs.find? (fun x => decide (x.pkt.id = id) && x.port.isNone) with
  | none => d
  | some x => (d.unbuffer id).synth (x.router / 32) (x.router % 32) x.pkt .noroute

/-- Held packets take a port that has come back. -/
def Dev.retryHeld (d : Dev) : Dev :=
  (d.noc.bufs.filter (fun x => x.port.isNone)).foldl (fun (d : Dev) (x : NocBuf) =>
    match d.route (x.router / 32) (x.router % 32) x.pkt with
    | .hold => d
    | _ => (d.unbuffer x.pkt.id).place (x.router / 32) (x.router % 32) x.inp x.pkt) d

/-- Discard packets of the network by age or epoch drain: counted in `aged`, credits counted back (R218, R223). -/
def Dev.ageOut (d : Dev) (x : NocBuf) : Dev :=
  (d.unbuffer x.pkt.id).bump F.NOC_RT_STAT_aged (Ix.on (x.router / 32) (x.router % 32))

/-- PACKET_AGE_DISCARD (R223): a packet whose age is 12 birth units or more is discarded. -/
def execPacketAgeDiscard (id : Nat) (s : State) : Result := s.act fun d =>
  match d.noc.bufs.find? (fun x => decide (x.pkt.id = id)) with
  | none => d
  | some x => if 12 ≤ (d.birthNow.val + 16 - x.pkt.birth.val) % 16 then d.ageOut x else d

/-! ### Router failure (R220, R226) -/

/-- The resource number of the routing tables in the handling order (R217, R482). -/
def resRoutes : Nat := 2 ^ 40

/-- Every port of the device that leads to router n (base die × 32 + router). -/
def portsTo (n : Nat) : List (Nat × Nat) :=
  allRouters.flatMap (fun m => ((List.range 16).filter (fun p => neighbour (m / 32) (m % 32) p == some (n / 32, n % 32))).map (fun p => (m, p)))

/-- Hold credits against a failed unit: `LDG_POOL_HELD` (R30, R504). -/
def Dev.heldCredits (d : Dev) (b k n : Nat) : Dev := d.st F.LDG_POOL_HELD_count (Ix.on b k) (d.rd F.LDG_POOL_HELD_count (Ix.on b k) + n)

/-- Packets of one epoch or caught in a router leave without their credits: those stay outstanding against the unit. -/
def Dev.loseAt (d : Dev) (n : Nat) : Dev :=
  let lost := d.noc.bufs.filter (fun x => decide (x.router = n))
  let d := { d with noc := { d.noc with bufs := d.noc.bufs.filter (fun x => decide (x.router ≠ n)) } }
  d.heldCredits (n / 32) 0 ((lost.map (·.credits)).sum)

/-- ROUTER_FAILED (R220): each neighbour marks its port towards the router as down; the packets inside it, or on their way to it, are lost; the
handling commits a table set that routes around it, and the severity is DEGRADE when only protected traffic passed through. -/
def execRouterFailed (b : Fin 4) (r : Fin 32) (protectedOnly : Bool) (s : State) : Result := s.act fun d =>
  let n := b.val * 32 + r.val
  if d.rtState b r = 4 || d.rtState b r = 0 then d else
  let d := d.setRtState b r 4
  let d := { d with noc := { d.noc with portDown := (portsTo n).foldl addNew d.noc.portDown } }
  let d := d.loseAt n
  let toward := d.noc.bufs.filter (fun x => match x.port with
    | some p => neighbour (x.router / 32) (x.router % 32) p == some (b.val, r.val)
    | none => false)
  let d := toward.foldl (fun (d : Dev) (x : NocBuf) => d.unbuffer x.pkt.id) d
  d.occur { die := b, block := 2, inst := r, cls := 8, sev := if protectedOnly then sevDegrade else sevStream, action := 6,
            needs := true, repair := true, res := [resRoutes] }

/-- A router returns to service after Kiln has reset it with empty buffers: its neighbours' ports are usable and its held credits are counted
back (R226). -/
def Dev.routerBack (d : Dev) (b r : Nat) : Dev :=
  let n := b * 32 + r
  let d := d.setRtState b r 1
  let d := { d with noc := { d.noc with portDown := d.noc.portDown.filter (fun e => !(portsTo n).contains e) } }
  let held := (List.range 64).map (fun i => (r * 64 + i, d.ledOut b 0 (r * 64 + i)))
  let d := held.foldl (fun (d : Dev) (e : Nat × Nat) => d.giveBack b 0 e.1 e.2) d
  (d.st F.LDG_POOL_HELD_count (Ix.on b 0) (d.rd F.LDG_POOL_HELD_count (Ix.on b 0) - (held.map (·.2)).sum)).retryHeld

/-! ### Epochs (R218) -/

/-- Old-epoch packets in routers. -/
def Dev.oldBufs (d : Dev) : List NocBuf :=
  d.noc.bufs.filter (fun x => x.pkt.epoch != d.flag F.NOC_STATUS_epoch (Ix.onDie (x.router / 32)))

/-- Set a field of `NOC_STATUS` on every base die. -/
def Dev.nocAll (d : Dev) (f : Fld) (v : Nat) : Dev := (List.range 4).foldl (fun d b => d.st f (Ix.onDie b) v) d

/-- A commit that changes routing entries switches the injection epoch (R218); `old` holds the entries it replaced. -/
def Dev.switchEpoch (d : Dev) (old : List (Nat × Nat)) : Dev :=
  let d := { d with noc := { d.noc with oldRoutes := old.foldl (fun (t : Tbl (Option Nat)) (e : Nat × Nat) => t.set none e.1 (some e.2)) [] } }
  (d.nocAll F.NOC_STATUS_epoch (1 - d.rd F.NOC_STATUS_epoch {})).nocAll F.NOC_STATUS_epoch_draining 1

/-- Show the count of old-epoch flits of each die, and end the drain where none is left. -/
def Dev.drainSum (d : Dev) : Dev :=
  if !d.flag F.NOC_STATUS_epoch_draining {} then d else
  let old := d.oldBufs
  let n := fun b => ((old.filter (fun x => decide (x.router / 32 = b))).map (fun x => x.pkt.len.val + 1)).sum
  let d := (List.range 4).foldl (fun (d : Dev) (b : Nat) => d.st F.NOC_STATUS_old_flits (Ix.onDie b) (min (2 ^ 20 - 1) (n b))) d
  if old.isEmpty then { (d.nocAll F.NOC_STATUS_epoch_draining 0) with noc := { d.noc with oldRoutes := [] } } else d

/-- EPOCH_DRAIN_SUM (R218). -/
def execEpochDrainSum (s : State) : Result := s.act fun d => d.drainSum

/-- Discard every old-epoch flit; a record of severity NOTE names each router that held one. -/
def Dev.drainOut (d : Dev) : Dev :=
  let old := d.oldBufs
  let d := old.foldl (fun (d : Dev) (x : NocBuf) => d.ageOut x) d
  let routers := old.foldl (fun l x => addNew l x.router) []
  routers.foldl (fun (d : Dev) (n : Nat) => d.occur { die := n / 32, block := 2, inst := n % 32, cls := 8, sev := sevNote }) d

/-- EPOCH_DRAIN_TIMEOUT (R218): 1 ms after the commit cycle. -/
def execEpochDrainTimeout (s : State) : Result := s.act fun d =>
  if d.flag F.NOC_STATUS_epoch_draining {} then (d.drainOut).drainSum else d

/-! ### Initiators (R175, R211, R222, R223, R230) -/

/-- The key of a request. -/
def reqKey (src tag : Nat) : Nat := src * 4096 + tag

/-- The request of an initiator's tag. -/
def Dev.req (d : Dev) (src tag : Nat) : Option NocReq := Tbl.get none d.noc.reqs (reqKey src tag)

/-- Whether a tag waits out its quarantine. -/
def Dev.quarantined (d : Dev) (src tag : Nat) : Bool := d.noc.quarantine.contains (reqKey src tag)

/-- The instance of an initiator's registers. -/
def initIx (src : Nat) : Ix := Ix.on (src / 256 % 4) (src % 256)

/-- The access point of an endpoint: fabric die and number. -/
def apOf (src : Nat) : Option (Nat × Nat) :=
  if src < 1024 && src % 8 < 3 then some (src / 256 * 3 + src % 8, src / 8 % 32) else none

/-- The latency bin of R230 for a latency in ns. -/
def latencyBin (ns : Nat) : Nat :=
  if ns < 16 then 0 else ((List.range 15).find? (fun k => decide (1 ≤ k) && decide (ns < 2 ^ (k + 4)))).getD 15

/-- Count an error response at an initiator. -/
def Dev.countErr (d : Dev) (src code : Nat) : Dev :=
  let a := initIx src
  match code with
  | 2 => d.bump F.NOC_INIT_ERR_noroute a
  | 3 => d.bump F.NOC_INIT_ERR_timeouts a
  | 6 => d.bump F.NOC_INIT_ERR_domoff a
  | 7 => d.bump F.NOC_INIT_ERR_reject a
  | _ => d

/-- Statistics of a completed request (R230). -/
def Dev.initStats (d : Dev) (src : Nat) (q : NocReq) (code : Nat) : Dev :=
  let a := initIx src
  if !d.flag F.NOC_CFG_stats_en (Ix.onDie a.die) || code = 3 then d else
  let h : Ix := { a with j := latencyBin ((d.root - q.since) * 5 / 16) }
  let d := d.st F.NOC_INIT_HIST_count h (min (2 ^ 48 - 1) (d.rd F.NOC_INIT_HIST_count h + 1))
  if code ≠ 0 then d
  else if q.write then d.addWrap F.NOC_INIT_WR_bytes a q.bytes else d.addWrap F.NOC_INIT_RD_bytes a q.bytes

/-- `hist_clr` (R230). -/
def Dev.clearInitStats (d : Dev) (a : Ix) : Dev :=
  let d := (List.range 16).foldl (fun (d : Dev) (k : Nat) => d.st F.NOC_INIT_HIST_count { a with j := k } 0) d
  ((d.st F.NOC_INIT_RD_bytes a 0).st F.NOC_INIT_WR_bytes a 0).st F.NOC_INIT_CFG_hist_clr a 0

/-- Complete a request of an initiator with a code: it is counted, and an access point answers its user. -/
def Dev.completeReq (d : Dev) (src tag code : Nat) (data : List Word64) : Dev :=
  match d.req src tag with
  | none => d
  | some q =>
    let d := { d with noc := { d.noc with reqs := d.noc.reqs.set none (reqKey src tag) none } }
    let d := (d.countErr src code).initStats src q code
    match apOf src with
    | some x => d.emit (.apReply x.1 x.2 (tag % 256) code data)
    | none => d

/-- AP_REQUEST (R175, R208, R211): a request of access point a of fabric die f, of `len` + 1 flits. A request with any of address bits
[55:48] set, or with a tag that is outstanding (a quarantined tag is not reused, R223), is answered REJECT there and counted. An address that no
row of the decoder matches is answered NOROUTE. A request beyond 31 flits, or a partial write beyond one flit, goes as several packets. -/
def execApRequest (f : Fin 12) (a : Fin 32) (addr : BitVec 63) (write : Bool) (len : Fin 32) (tag : BitVec 8) (full : Bool)
    (be : List (BitVec 128)) (data : List Word64) (s : State) : Result := s.act fun d =>
  let src := apEndpoint f a
  let t := tag.toNat
  if d.apClosed f a || d.mode == .ember then d
  else if addr.toNat / 2 ^ 48 % 256 ≠ 0 || (d.req src t).isSome || d.quarantined src t then
    (d.countErr src 7).emit (.apReply f a t 7 [])
  else
    let flits := len.val + 1
    let step := if write && !full then 1 else 31
    let parts := (flits + step - 1) / step
    let d := d.fabCount f 35 a 1
    let q : NocReq := { parts := parts, code := 0, write := write, bytes := 128 * flits, since := d.root }
    let d := { d with noc := { d.noc with reqs := d.noc.reqs.set none (reqKey src t) (some q) } }
    match d.decodeAddr (addr.toNat % 2 ^ 48) with
    | none => d.completeReq src t 2 []
    | some dst =>
      (List.range parts).foldl (fun (d : Dev) (i : Nat) =>
        let n := min step (flits - i * step)
        d.inject { id := 0, op := if write then 1 else 0, vc := 0, len := if write then Fin.ofNat 32 n else 0,
                   rdLen := if write then 0 else Fin.ofNat 32 n, tag := BitVec.ofNat 12 t, code := 0, full := write && full,
                   addr := addr + BitVec.ofNat 63 (128 * step * i), be := if write && !full then be.getD i 0 else 0,
                   dst := BitVec.ofNat 12 dst, src := BitVec.ofNat 12 src, epoch := false, birth := 0, poison := false, resv := false,
                   data := if write then (data.drop (16 * step * i)).take (16 * n) else [] }) d

/-- A response that reaches a region in reset is counted there (R136). -/
def Dev.regionDrops (d : Dev) (src : Nat) : Dev :=
  match apOf src with
  | some x => (List.range 64).foldl (fun (d : Dev) (n : Nat) =>
      d.on (d.fab.regionReset.contains (x.1 * 64 + n) && bits (d.rd F.FAB_RGN_AP_ap (Ix.on x.1 n)) x.2 1 = 1)
        (fun d => d.bump F.FAB_RGN_STAT_dropped_rsp (Ix.on x.1 n))) d
  | none => d

/-- RSP (R16, R211, R223): a response reaches its initiator. It answers one packet of the request; with the last one the request completes with
the first code other than DONE. A response to a request that ended as TIMEOUT is discarded and counted as late, and ends the tag's
quarantine. A response that arrives for an initiator inside a closing domain is discarded (R171, R224). -/
def execRsp (p : NocPkt) (s : State) : Result := s.act fun d =>
  let d := d.unbuffer p.id
  let src := p.dst.toNat
  let t := p.tag.toNat
  if src ≥ 1024 || p.op.val ≠ 3 then d
  else if d.localShut (src / 256) (src / 8 % 32) (src % 8) then
    ({ d with noc := { d.noc with reqs := d.noc.reqs.set none (reqKey src t) none } }).regionDrops src
  else if d.quarantined src t then
    ({ d with noc := { d.noc with quarantine := remove d.noc.quarantine (reqKey src t) } }).bump F.NOC_INIT_ERR_late (initIx src)
  else match d.req src t with
    | none => d.bump F.NOC_INIT_ERR_late (initIx src)
    | some q =>
      let code := if q.code ≠ 0 then q.code else p.code.val
      if 1 < q.parts then
        { d with noc := { d.noc with reqs := d.noc.reqs.set none (reqKey src t) (some { q with parts := q.parts - 1, code := code }) } }
      else d.completeReq src t code p.data

/-- INITIATOR_TIMEOUT (R222, R223): the request completes with TIMEOUT and its tag is quarantined; the timer stops in EMBER. -/
def execInitiatorTimeout (src : Fin 1024) (tag : BitVec 12) (s : State) : Result := s.act fun d =>
  if d.mode == .ember || (d.req src tag.toNat).isNone then d else
  let d := d.completeReq src tag.toNat 3 []
  { d with noc := { d.noc with quarantine := addNew d.noc.quarantine (reqKey src tag.toNat) } }

/-- TAG_QUARANTINE_END (R223): after 4 ms the tag may be used again. -/
def execTagQuarantineEnd (src : Fin 1024) (tag : BitVec 12) (s : State) : Result := s.act fun d =>
  { d with noc := { d.noc with quarantine := remove d.noc.quarantine (reqKey src tag.toNat) } }

/-- TARGET_LATE_FAULT (R223): a target that has not completed a request 1 ms after taking it answers FAULT and does not report the later
completion. -/
def execTargetLateFault (src : BitVec 12) (tag : BitVec 12) (s : State) : Result := s.act fun d =>
  match d.noc.taken.find? (fun p => decide (p.src = src) && decide (p.tag = tag)) with
  | none => d
  | some p => ({ d with noc := { d.noc with taken := d.noc.taken.filter (fun q => decide (q ≠ p)) } }).answer p .fault []

/-! ### Closing domains (R224) -/

/-- The die code of a domain that is a die. -/
def domDie : Dom → Option Nat
  | .base b => some b
  | .fabric f => some (4 + f.val)
  | _ => none

/-- Mark a domain closing: its edge ports answer DOMOFF from now on. -/
def Dev.closeDom (d : Dev) (x : Dom) : Dev :=
  if d.domShut x then d else
  let d := { d with noc := { d.noc with closing := addNew d.noc.closing x } }
  match domDie x with
  | some n => { d with clk := { d.clk with closing := addNew d.clk.closing n } }
  | none => d

/-- Whether a packet in a router buffer is inside a domain: in a router of the base die, or at the local port of its unit. -/
def Dev.inside (d : Dev) (x : Dom) (y : NocBuf) : Bool :=
  let r := y.router % 32
  let b := y.router / 32
  match x with
  | .base n => b = n.val
  | .fabric f => b = f.val / 3 && y.port = some (f.val % 3) && y.pkt.dstRouter = y.router
  | .pack p => b = p.val / 8 && r = 8 + p.val % 8 && y.port = some 3
  | .stack k => b = k.val / 2 && rtRow r = (if k.val % 2 = 0 then 0 else 3) && y.port = some 3
  | .lanes n _ => b = n.val && decide (8 ≤ r) && decide (r ≤ 13) && y.port = some 4 && d.pgShut b (r - 8)
  | _ => false

/-- End of the drain: flits still inside are discarded, their credits counted back, and the domain may be powered off or reset. -/
def Dev.endDrain (d : Dev) (x : Dom) : Dev :=
  if !d.noc.closing.contains x then d else
  let d := (d.noc.bufs.filter (d.inside x)).foldl (fun (d : Dev) (y : NocBuf) => d.unbuffer y.pkt.id) d
  { d with noc := { d.noc with closing := remove d.noc.closing x, drained := addNew d.noc.drained x } }

/-- The closing mark clears. -/
def Dev.openDom (d : Dev) (x : Dom) : Dev :=
  let d := { d with noc := { d.noc with closing := remove d.noc.closing x, drained := remove d.noc.drained x } }
  match domDie x with
  | some n => { d with clk := { d.clk with closing := remove d.clk.closing n } }
  | none => d

/-- DOMAIN_CLOSE (R224, step 1). -/
def execDomainClose (dom : Dom) (s : State) : Result := s.act fun d => d.closeDom dom

/-- DOMAIN_DRAIN_END (R224, step 3). -/
def execDomainDrainEnd (dom : Dom) (s : State) : Result := s.act fun d => d.endDrain dom

/-- DOMAIN_REOPEN (R224): the domain accepts packets on the cycle its closing mark clears. -/
def execDomainReopen (dom : Dom) (s : State) : Result := s.act fun d => (d.openDom dom).retryHeld

/-! ### Load (R227) -/

/-- UTILISATION_WINDOW (R227): the utilisation of each output over a window of 1,024 NOC cycles. -/
def execUtilisationWindow (b : Fin 4) (r : Fin 32) (util : List (Fin 101)) (s : State) : Result := s.act fun d =>
  let a := Ix.onDie b
  let n := b.val * 32 + r.val
  let top := util.foldl (fun m u => max m u.val) 0
  let d := d.st F.NOC_RT_STAT_util (Ix.on b r) top
  let on := decide (d.rd F.NOC_CFG_thr_on a < top) || (d.noc.throttling.contains n && decide (d.rd F.NOC_CFG_thr_off a ≤ top))
  let d := { d with noc := { d.noc with throttling := if on then addNew d.noc.throttling n else remove d.noc.throttling n } }
  d.stB F.NOC_STATUS_throttling a (d.noc.throttling.any (fun m => decide (m / 32 = b.val)))

end Sys2Proof.Machine
end

