-- ==== Sys2Proof/Machine/MemOps.lean ====
section
/-! DEFINITION. Reading and writing HBM through a controller: the checks of R423, the levels of R422, and the counters, tags and generations of
FULL regions (R429 to R440). Log entries: DEDUCED 5, 74; DESIGN CHOICE 6. -/

namespace Sys2Proof.Machine

/-! ### Stacks -/

/-- Bytes of a stack's address range (R21). -/
def stackBytes : Nat := 0x600000000

/-- The register instance of stack k's controller: base die k / 2, controller k mod 2. -/
def ctlIx (k : Nat) : Ix := { die := k / 2, u := k % 2 }

/-- Region n of stack k. -/
def rgnIx (k n : Nat) : Ix := { die := k / 2, u := k % 2, i := n }

/-- Whether stack k's controller serves requests. -/
def Dev.stackUp (d : Dev) (k : Nat) : Bool := decide (d.rd F.HBM_STATUS_state (ctlIx k) = 2)

/-- Pages are 4 KiB, blocks 64 bytes, units 2 MiB. -/
def unitBytes : Nat := 0x200000

/-- The key of a region's record. -/
def rgnKey (k n : Nat) : Nat := k * 64 + n

/-- The key of a page's counter block. -/
def pageKey (k n p : Nat) : Nat := rgnKey k n * 2 ^ 24 + p

/-- The state of a key ID; key ID 0 is always ACTIVE (R424). -/
def Dev.keyState (d : Dev) (key : Nat) : Nat := if key = 0 then 1 else d.rd F.CRY_KEYSTATE_state (Ix.at key)

/-- The level of a key ID. -/
def Dev.keyLevel (d : Dev) (key : Nat) : Nat := if key = 0 then 0 else d.rd F.CRY_KEYSTATE_level (Ix.at key)

/-- The region of a FULL key ID that holds the byte at stack offset o and serves requests (R423, R429). -/
def Dev.regionOf (d : Dev) (k key o : Nat) : Option Nat :=
  (List.range 64).find? (fun n =>
    let a := rgnIx k n
    let s := d.rd F.CRY_RGN_state a
    (s = 2 || s = 3 || s = 4) && decide (d.rd F.CRY_RGN_key_id a = key) && decide (d.rd F.CRY_RGN_EXT_base a * unitBytes ≤ o) &&
    decide (o < (d.rd F.CRY_RGN_EXT_base a + d.rd F.CRY_RGN_EXT_size a) * unitBytes))

/-- The checks of R423 on a request of n bytes, in their order: DONE where it may be served. -/
def Dev.memCheck (d : Dev) (key addr n : Nat) : Resp :=
  let k := addr / stackBytes
  let o := addr % stackBytes
  if 8 ≤ k then .noroute
  else if !d.stackUp k then .domoff
  else if d.keyState key ≠ 1 then .keyoff
  else if d.keyLevel key = 3 then .keyoff
  else if d.keyLevel key = 2 && (List.range ((o % 64 + n + 63) / 64)).any (fun i => (d.regionOf k key (o / 64 * 64 + 64 * i)).isNone) then .keyoff
  else .done

/-! ### Blocks -/

/-- The counter block of a page. -/
def Dev.pageCtr (d : Dev) (k n p : Nat) : PageCtr := Tbl.get { major := 0, minors := [], gen := 0 } d.mem.page (pageKey k n p)

/-- Write a counter block. -/
def Dev.setPage (d : Dev) (k n p : Nat) (x : PageCtr) : Dev :=
  { d with mem := { d.mem with page := d.mem.page.set { major := 0, minors := [], gen := 0 } (pageKey k n p) x } }

/-- A region's record. -/
def Dev.rgnRec (d : Dev) (k n : Nat) : RgnRec := Tbl.get RgnRec.fresh d.mem.rgn (rgnKey k n)

/-- Write a region's record. -/
def Dev.setRgnRec (d : Dev) (k n : Nat) (x : RgnRec) : Dev := { d with mem := { d.mem with rgn := d.mem.rgn.set RgnRec.fresh (rgnKey k n) x } }

/-- The page and block in its page of stack offset o of region n. -/
def Dev.pageOf (d : Dev) (k n o : Nat) : Nat × Nat :=
  let r := o - d.rd F.CRY_RGN_EXT_base (rgnIx k n) * unitBytes
  (r / 4096, r % 4096 / 64)

/-- Whether a page lies in a POISON extent (R439). -/
def Dev.inExtent (d : Dev) (k n p : Nat) : Bool := (d.rgnRec k n).extents.any (fun e => decide (e.1 ≤ p) && decide (p < e.1 + e.2))

/-- The context in which key ID `key` writes or reads the block at stack offset o of stack k: its derived key, and for FULL the
generation, major and minor that make the IV (R422, R432). -/
def Dev.sealFor (d : Dev) (key k o : Nat) : List Nat :=
  if d.keyLevel key = 0 then []
  else if d.keyLevel key = 1 then [1, Tbl.get 0 d.mem.keyVal key]
  else match d.regionOf k key o with
    | none => []
    | some n =>
      let (p, i) := d.pageOf k n o
      let c := d.pageCtr k n p
      [2, Tbl.get 0 d.mem.keyVal key, key, rgnKey k n, c.gen, c.major, Tbl.get 0 c.minors i]

/-- What stands beside a block. -/
def Dev.blkMeta (d : Dev) (blk : Nat) : BlkMeta := Tbl.get BlkMeta.fresh d.mem.blk blk

/-- Change it. -/
def Dev.setBlk (d : Dev) (blk : Nat) (m : BlkMeta) : Dev := { d with mem := { d.mem with blk := d.mem.blk.set BlkMeta.fresh blk m } }

/-- A byte as it reads in a context. -/
def Dev.byteAs (d : Dev) (cx : List Nat) (addr : Nat) : Byte :=
  let b := Tbl.get 0#8 d.mem.hbm addr
  let m := d.blkMeta (addr / 64)
  if m.ctx = cx then b else Config.wrongKeyByte addr m.ctx cx b

/-- Store a byte. -/
def Dev.putByte (d : Dev) (addr : Nat) (b : Byte) : Dev := { d with mem := { d.mem with hbm := d.mem.hbm.set 0#8 addr b } }

/-- A data block whose tag fails (R440): POISON, a record of class INTEGRITY, DEVICE from the 17th within 1 s. -/
def Dev.tagFailure (d : Dev) (k n : Nat) : Dev :=
  let r := d.rgnRec k n
  let l := (r.tagFails.filter (fun t => decide (d.root < t + 1000 * msCycles))) ++ [d.root]
  let d := (d.setRgnRec k n { r with tagFails := l }).bump F.CRY_CNT_integrity (ctlIx k)
  d.occur { die := k / 2, block := 3, inst := k % 2 * 52, cls := 14, sev := if 16 < l.length then sevDevice else sevStream, detail := rgnKey k n,
            needs := decide (16 < l.length) }

/-- A FULL access looks up the counter and tag caches, whose replacement the spec leaves open: each miss is a free value (R434, R449). -/
def Dev.cacheUse (d : Dev) (k : Nat) : Dev :=
  let (c, d) := d.draw 1
  let (t, d) := d.draw 1
  let a := ctlIx k
  let d := (d.addWrap F.CRY_CACHE_ctr_miss a c).addWrap F.CRY_CACHE_tag_miss a t
  (d.count a.die 3 216 (52 * a.u) c).count a.die 3 217 (52 * a.u) t

/-- Whether a block reads POISON, with the device after the read: a poison code word, a FULL block never written, in a POISON extent, or whose tag
fails (R417, R430, R439, R440). -/
def Dev.readBlock (d : Dev) (key k o : Nat) : Bool × Dev :=
  let blk := (k * stackBytes + o) / 64
  let m := d.blkMeta blk
  if d.keyLevel key ≠ 2 then (m.poison, d)
  else match d.regionOf k key o with
    | none => (m.poison, d)
    | some n =>
      let d := d.cacheUse k
      let (p, i) := d.pageOf k n o
      if m.poison || d.inExtent k n p || Tbl.get 0 (d.pageCtr k n p).minors i = 0 then (true, d)
      else if m.ctx ≠ d.sealFor key k o then (true, d.tagFailure k n)
      else (false, d)

/-- One key-slot reference is taken and returned (R441). -/
def Dev.keyRef (d : Dev) (k key : Nat) : Dev :=
  let inst := k % 2 * 128 + key
  (d.issue (k / 2) 4 inst 1).giveBack (k / 2) 4 inst 1

/-- Read n bytes at a device address of HBM under a key ID: the response code, the bytes, the device. -/
def Dev.memRead (d : Dev) (key addr n : Nat) : Resp × List Byte × Dev :=
  match d.memCheck key addr n with
  | .done =>
    let k := addr / stackBytes
    let o := addr % stackBytes
    let d := d.keyRef k key
    let (bad, d) := (List.range ((o % 64 + n + 63) / 64)).foldl (fun (x : Bool × Dev) (i : Nat) =>
      let (b, d) := x.2.readBlock key k (o / 64 * 64 + 64 * i)
      (x.1 || b, d)) (false, d)
    let bytes := (List.range n).map (fun i => d.byteAs (d.sealFor key k (o + i)) (addr + i))
    (if bad then .poison else .done, bytes, d)
  | r => (r, [], d)

/-! ### FULL writes (R430, R433, R437, R438) -/

/-- The highest major of the generation that a page belongs to: during a sweep a page not yet swept takes it from the old generation (R438). -/
def Dev.majorHw (d : Dev) (k n gen : Nat) : Nat :=
  if gen = d.rd F.CRY_RGN_generation (rgnIx k n) then d.rd F.CRY_RGN_CTR_major_hw (rgnIx k n) else (d.rgnRec k n).oldHw

/-- Raise it. -/
def Dev.setMajorHw (d : Dev) (k n gen v : Nat) : Dev :=
  if gen = d.rd F.CRY_RGN_generation (rgnIx k n) then d.st F.CRY_RGN_CTR_major_hw (rgnIx k n) v
  else d.setRgnRec k n { d.rgnRec k n with oldHw := v }

/-- Re-encrypt every written block of a page under the page's counter block as it now is. -/
def Dev.resealPage (d : Dev) (key k n p : Nat) (blocks : List Nat) : Dev :=
  blocks.foldl (fun (d : Dev) (i : Nat) =>
    let o := d.rd F.CRY_RGN_EXT_base (rgnIx k n) * unitBytes + p * 4096 + i * 64
    let blk := (k * stackBytes + o) / 64
    d.setBlk blk { d.blkMeta blk with ctx := d.sealFor key k o }) d

/-- Start a rekey sweep (R438). -/
def Dev.startSweep (d : Dev) (k n : Nat) : Dev :=
  let a := rgnIx k n
  let d := d.setRgnRec k n { d.rgnRec k n with oldHw := d.rd F.CRY_RGN_CTR_major_hw a }
  (((d.st F.CRY_RGN_generation a (d.rd F.CRY_RGN_generation a + 1)).st F.CRY_RGN_CTR_major_hw a 0).st F.CRY_RGN_CTR_sweep a 0).st F.CRY_RGN_state a 3

/-- The blocks of a page that have been written. -/
def PageCtr.written (c : PageCtr) : List Nat := (List.range 64).filter (fun i => decide (0 < Tbl.get 0 c.minors i))

/-- Rewrite a page for a block whose minor would pass 127 (R437): a new major above every one used, every written block at minor 1. The sweep of R438
starts when the highest major reaches its threshold. A rewrite sooner than 1 µs after the last of its region counts as a held write. -/
def Dev.rewritePage (d : Dev) (key k n p : Nat) : Dev :=
  let a := ctlIx k
  let r := d.rgnRec k n
  let soon := match r.lastRewrite with | some t => decide (d.root < t + 3200) | none => false
  let d := d.on soon (fun d => d.bump F.CRY_CNT_held_writes a)
  let d := (d.setRgnRec k n { r with lastRewrite := some d.root }).bump F.CRY_CNT_minor_ovf a
  let d := d.count a.die 3 218 (52 * a.u) 1
  let c := d.pageCtr k n p
  let major := d.majorHw k n c.gen + 1
  let d := d.setMajorHw k n c.gen major
  let d := d.setPage k n p { c with major := major, minors := c.written.map (fun i => (i, 1)) }
  let d := d.resealPage key k n p c.written
  if 2 ^ 32 - 2 ^ 20 ≤ major && decide (d.rd F.CRY_RGN_state (rgnIx k n) ≠ 3) && decide (d.rd F.CRY_RGN_generation (rgnIx k n) < 2 ^ 24 - 1)
  then d.startSweep k n else d

/-- Advance the counter of a FULL block for a write. The write of a block in a POISON extent is answered FAULT (R439), and so is one that needs a new
major when the generations are used up (R438). -/
def Dev.countBlock (d : Dev) (key k o : Nat) : Bool × Dev :=
  match d.regionOf k key o with
  | none => (true, d)
  | some n =>
    let d := d.cacheUse k
    let (p, i) := d.pageOf k n o
    let c := d.pageCtr k n p
    let m := Tbl.get 0 c.minors i
    if d.inExtent k n p then (false, d)
    else if d.flag F.CRY_RGN_wide (rgnIx k n) || m < 127 then (true, d.setPage k n p { c with minors := c.minors.set 0 i (m + 1) })
    else if 2 ^ 32 - 1 ≤ d.majorHw k n c.gen then (false, d)
    else (true, d.rewritePage key k n p)

/-- Whether the bytes of a block that a write leaves out read back as they were: the block was last written in the writer's own context, for FULL
at any counter value but "not written". -/
def Dev.keepsRest (d : Dev) (key k o : Nat) : Bool :=
  if d.keyLevel key = 2 then
    match d.regionOf k key o with
    | some n => let (p, i) := d.pageOf k n o; decide (Tbl.get 0 (d.pageCtr k n p).minors i ≠ 0)
    | none => false
  else decide ((d.blkMeta ((k * stackBytes + o) / 64)).ctx = d.sealFor key k o)

/-- Write the bytes of one block: those not written are read in the writer's context and kept (R423), and everything is sealed in it. -/
def Dev.sealBlock (d : Dev) (key k o : Nat) (keeps : Bool) (bytes : List (Nat × Byte)) (poison : Bool) : Dev :=
  let base := k * stackBytes + o / 64 * 64
  let old := (d.blkMeta (base / 64)).ctx
  let new := d.sealFor key k o
  let rest := if keeps then [] else (List.range 64).map (fun i => (base + i, Config.wrongKeyByte (base + i) old new (Tbl.get 0#8 d.mem.hbm (base + i))))
  let d := (rest ++ bytes).foldl (fun (d : Dev) (e : Nat × Byte) => d.putByte e.1 e.2) d
  d.setBlk (base / 64) { ctx := new, poison := poison }

/-- Write bytes at a device address of HBM under a key ID; each is given with its address. The response is DONE, the failing check of R423, or FAULT
where a FULL block takes no write. -/
def Dev.memWrite (d : Dev) (key addr n : Nat) (bytes : List (Nat × Byte)) (poison : Bool) : Resp × Dev :=
  match d.memCheck key addr n with
  | .done =>
    let k := addr / stackBytes
    let o := addr % stackBytes
    let d := d.keyRef k key
    (List.range ((o % 64 + n + 63) / 64)).foldl (fun (x : Resp × Dev) (i : Nat) =>
      let ob := o / 64 * 64 + 64 * i
      let part := bytes.filter (fun e => decide (e.1 / 64 = (k * stackBytes + ob) / 64))
      if part.isEmpty then x else
      let keeps := x.2.keepsRest key k ob
      let (ok, d) := if x.2.keyLevel key = 2 then x.2.countBlock key k ob else (true, x.2)
      if ok then (x.1, d.sealBlock key k ob keeps part poison) else (.fault, d)) (.done, d)
  | r => (r, d)

/-- Consecutive bytes from an address, little-endian, of 64-bit words. -/
def wordBytes (addr : Nat) (ws : List Word64) : List (Nat × Byte) :=
  (List.range (8 * ws.length)).map (fun i => (addr + i, BitVec.ofNat 8 ((ws.getD (i / 8) 0).toNat / 2 ^ (8 * (i % 8)))))

/-- 64-bit words of bytes, little-endian. -/
def bytesWords (l : List Byte) : List Word64 :=
  (List.range ((l.length + 7) / 8)).map (fun i => BitVec.ofNat 64 (leNat ((l.drop (8 * i)).take 8)))

end Sys2Proof.Machine
end

