-- ==== Sys2Proof/Machine/Switch.lean ====
section
/-! DEFINITION. The Stream Switch: slots and their routes, admission, the sink slice's checks and releases, the twin-path merge, frame stores and
delivery engines (R231 to R259). Log entries: DEDUCED 55, 56, 57; DESIGN CHOICE 15; PRESUMED 44. -/

namespace Sys2Proof

/-- The 128-bit header of a fragment (R232); an out-of-place bit is shown in [63]. -/
def LineFrag.header (x : LineFrag) : BitVec 128 :=
  BitVec.ofNat 128 (x.seq.toNat + x.slot.val * 2 ^ 32 + x.frag.val * 2 ^ 44 + x.first.toNat * 2 ^ 52 + x.last.toNat * 2 ^ 53 +
    x.kind.val * 2 ^ 54 + x.copyB.toNat * 2 ^ 57 + x.rpt.toNat * 2 ^ 58 + x.resv.toNat * 2 ^ 63 + x.line.toNat * 2 ^ 64 +
    x.frame.toNat * 2 ^ 80 + x.bytes.val * 2 ^ 96 + x.depart.toNat * 2 ^ 112)

/-- Flits of a fragment: its head and one payload flit for every 128 bytes. -/
def LineFrag.flits (x : LineFrag) : Nat := 1 + (x.bytes.val + 127) / 128

/-- Serial-number order (R234): a is later than b. -/
def laterSeq (a b : BitVec 32) : Bool := decide (1 ≤ (a - b).toNat) && decide ((a - b).toNat < 2 ^ 31)

end Sys2Proof

namespace Sys2Proof.Machine

/-! ### Slots -/

/-- The register instance of a global slot. -/
def slotIx (g : Nat) : Ix := Ix.on (g / 1024) (g % 1024)

/-- The slot's state beside its registers. -/
def Dev.slot (d : Dev) (g : Nat) : SlotSt := Tbl.get SlotSt.fresh d.ssw.slots g

/-- Change it. -/
def Dev.setSlot (d : Dev) (g : Nat) (x : SlotSt) : Dev := { d with ssw := { d.ssw with slots := d.ssw.slots.set SlotSt.fresh g x } }

/-- Whether a slot carries units. -/
def Dev.slotOn (d : Dev) (g : Nat) : Bool := d.flag F.SSW_SLOT_CFG_enable (slotIx g)

/-- Enabled slots in order. -/
def Dev.slotsOn (d : Dev) : List Nat := (List.range 4096).filter (fun g => d.slotOn g)

/-- The enabled slots of base die b that name a source (R236). -/
def Dev.slotsFrom (d : Dev) (b t u i : Nat) : List Nat :=
  ((List.range 1024).map (fun s => b * 1024 + s)).filter (fun g =>
    let a := slotIx g
    d.slotOn g && decide (d.rd F.SSW_SLOT_CFG_src_type a = t) && decide (d.rd F.SSW_SLOT_CFG_src_unit a = u) && decide (d.rd F.SSW_SLOT_CFG_src_idx a = i))

/-- Whether a slot is one of a twin pair (R247). -/
def Dev.twinned (d : Dev) (g : Nat) : Bool := d.flag F.SSW_SLOT_TWIN_twin_valid (slotIx g)

/-- The other slot of a pair. -/
def Dev.twinOf (d : Dev) (g : Nat) : Nat := d.rd F.SSW_SLOT_TWIN_twin (slotIx g)

/-- The merge that a slot feeds: its own, or for a pair the one of the lower slot number. -/
def Dev.mergeKey (d : Dev) (g : Nat) : Nat := if d.twinned g then min g (d.twinOf g) else g

/-- The merge. -/
def Dev.mrg (d : Dev) (g : Nat) : MergeSt := Tbl.get MergeSt.start d.ssw.merges (d.mergeKey g)

/-- Change it. -/
def Dev.setMrg (d : Dev) (g : Nat) (m : MergeSt) : Dev :=
  { d with ssw := { d.ssw with merges := d.ssw.merges.set MergeSt.start (d.mergeKey g) m } }

/-- A record about a slot: block SSW of its slice, class SWITCH. -/
def slotOcc (g sev : Nat) (detail : Nat := 0) : Occ := { die := g / 1024, block := 1, inst := g % 1024, cls := 9, sev := sev, detail := detail }

/-- Whether n ROOT cycles are at least k unit periods of a slot: T / `units` of its generator, or for kind 4 one word time (R248, R53). -/
def Dev.periodsPast (d : Dev) (g k n : Nat) : Bool :=
  let a := slotIx g
  let u := d.rd F.SSW_SLOT_RATE_units a
  if d.rd F.SSW_SLOT_CFG_kind a = 4 then decide (16 * 1000 * k ≤ 5 * n * u) else
  let c := d.rd F.SSW_SLOT_CFG_cg a
  let cg := Ix.on (c / 64) (c % 64)
  decide (16 * k * d.rd F.HT_CG_CFG_period_num cg * 10 ^ 9 ≤ 5 * n * u * d.rd F.HT_CG_CFG_period_den cg)

/-! ### Routes and reservations (R236, R240 to R243) -/

/-- Rounded up. -/
def ceilDiv (a b : Nat) : Nat := (a + b - 1) / b

/-- Flits of one unit (R242). -/
def unitFlits (u : Nat) : Nat := ceilDiv u 1920 + ceilDiv u 128

/-- The reservation of a slot (R242). -/
def Dev.slotResv (d : Dev) (g : Nat) : Nat :=
  let a := slotIx g
  let u := d.rd F.SSW_SLOT_RATE_unit_bytes a
  let n := d.rd F.SSW_SLOT_RATE_units a
  if d.rd F.SSW_SLOT_CFG_kind a = 4 then
    ceilDiv (8192 * (n + 4 * (min n (d.rd F.SSW_SLOT_RATE_peak a - n) + ceilDiv n 30))) 100
  else
    let c := d.rd F.SSW_SLOT_CFG_cg a
    let cg := Ix.on (c / 64) (c % 64)
    ceilDiv (256 * unitFlits u * n * 640 * d.rd F.HT_CG_CFG_period_den cg) (d.rd F.HT_CG_CFG_period_num cg * 10 ^ 9)

/-- The buffer allotment of a slot at its sink slice (R255). -/
def Dev.slotAllot (d : Dev) (g : Nat) : Nat :=
  if d.rd F.SSW_SLOT_CFG_src_type (slotIx g) = 3 then 32
  else ceilDiv (d.slotResv g * d.rd F.SSW_SLOT_RATE_lat (slotIx g)) 524288 + 32

/-- A hop of a route: router (base die × 32 + router), the port it leaves by, and the cord a cross port uses. -/
structure Hop where
  router : Nat
  port : Nat
  cord : Option CordId
  deriving DecidableEq, Repr

/-- The cord of a cross port that `src` and virtual channel 3 select. -/
def Dev.streamCord (d : Dev) (b r p src : Nat) : Option CordId :=
  let l := (portCords b r p).filter (fun c => d.cordUp c)
  if l.isEmpty then none else l[(src + 3) % l.length]?

/-- Walk a route by each entry's primary port, or its alternate where the primary is down, over at most n routers (R240); none where it has no bound. -/
def Dev.walk (d : Dev) (src dst dstPort : Nat) : Nat → Nat → Option (List Hop)
  | 0, _ => none
  | n + 1, x =>
    if x = dst then some [⟨x, dstPort, none⟩] else
    let a : Ix := { die := x / 32, i := x % 32, j := dst }
    let p0 := d.rd F.NOC_ROUTE_port a
    let p := if d.portUsable (x / 32) (x % 32) p0 then p0 else if d.flag F.NOC_ROUTE_alt_valid a then d.rd F.NOC_ROUTE_alt a else p0
    if !d.flag F.NOC_ROUTE_valid a || decide (p < 8) || !d.portUsable (x / 32) (x % 32) p || decide (d.rtState (x / 32) (x % 32) ≠ 1) then none
    else match neighbour (x / 32) (x % 32) p with
      | none => none
      | some (b, r) => (d.walk src dst dstPort n (b * 32 + r)).map (fun l => ⟨x, p, if 12 ≤ p then d.streamCord (x / 32) (x % 32) p src else none⟩ :: l)

/-- The endpoint a slot's source sends from (R236). -/
def Dev.slotSrc (d : Dev) (g : Nat) : Nat :=
  let a := slotIx g
  let t := d.rd F.SSW_SLOT_CFG_src_type a
  let u := d.rd F.SSW_SLOT_CFG_src_unit a
  if t = 0 then endpoint a.die (8 + u) 4 else if t = 1 then endpoint a.die (8 + u) 3
  else endpoint a.die (16 + d.rd F.SSW_SLOT_CFG_sw_port a) 3

/-- The endpoint of the sink slice's switch port. -/
def Dev.slotDst (d : Dev) (g : Nat) : Nat :=
  endpoint (d.rd F.SSW_SLOT_CFG_sink_die (slotIx g)) (16 + d.rd F.SSW_SLOT_CFG_sw_port (slotIx g)) 3

/-- Whether the source lies in the sink's own slice: a fabric or frame-store source of the sink's base die. -/
def Dev.ownSlice (d : Dev) (g : Nat) : Bool :=
  decide (2 ≤ d.rd F.SSW_SLOT_CFG_src_type (slotIx g)) && decide (d.rd F.SSW_SLOT_CFG_sink_die (slotIx g) = g / 1024)

/-- The route of a slot to its sink slice: no hops inside the slice; none where it has no bound. -/
def Dev.slotRoute (d : Dev) (g : Nat) : Option (List Hop) :=
  if d.ownSlice g then some [] else d.walk (d.slotSrc g) (d.slotDst g / 8) (d.slotDst g % 8) 64 (d.slotSrc g / 8)

/-- Whether a cord or light cord runs narrowed. -/
def Dev.cordNarrow (d : Dev) (c : CordId) : Bool := decide (d.cordState c = 3)

/-- Latency of a cross-port hop in NOC cycles (R182). -/
def Dev.cordLatency (d : Dev) : CordId → Nat
  | .cord k => if d.cordNarrow (.cord k) then 21 else 16
  | .light k => if d.cordNarrow (.light k) then 26 else 24

/-- The bound B of a route in NOC cycles (R240). -/
def Dev.routeBound (d : Dev) (l : List Hop) : Nat :=
  if l.isEmpty then 0 else 4 + 4 * l.length + (l.filterMap (fun h => h.cord.map (fun c => d.cordLatency c))).sum

/-- Links of R243 by number: a router's output below 10,000; an injection port from 10,000; a cord from 100,000, a light cord from 101,000; a bonded
fabric path from 200,000. -/
def hopLink (h : Hop) : Nat :=
  match h.cord with
  | some (.cord k) => 100000 + k
  | some (.light k) => 101000 + k
  | none => h.router * 16 + h.port

/-- The limit of a link (R243). -/
def Dev.linkLimit (d : Dev) (l : Nat) : Nat :=
  if 200000 ≤ l then 419430
  else if 101000 ≤ l then (if d.cordNarrow (.light (Fin.ofNat 32 (l - 101000))) then 58254 else 116508)
  else if 100000 ≤ l then (if d.cordNarrow (.cord (Fin.ofNat 640 (l - 100000))) then 23301 else 46603)
  else 209715

/-- Links of a walk from an endpoint. -/
def Dev.legLinks (d : Dev) (src dst : Nat) : List Nat :=
  match d.walk src (dst / 8) (dst % 8) 64 (src / 8) with
  | some l => (10000 + src) :: l.map hopLink
  | none => []

/-- The stacks of a frame store. -/
def Dev.storeStacks (d : Dev) (k : Nat) : List Nat :=
  let a := Ix.on (k / 64) (k % 64)
  d.rd F.SSW_FS_CFG_stack a :: (if d.flag F.SSW_FS_CFG_mirrored a then [d.rd F.SSW_FS_CFG_mirror_stack a] else [])

/-- Every link that a slot reserves, with its reservation there (R236, R242, R243): the way to the sink slice, the bonded path of a fabric end, the way
on to a NoC sink, and for a writer one eighth to each controller port of each stack. -/
def Dev.slotLinks (d : Dev) (g : Nat) : List (Nat × Nat) :=
  let a := slotIx g
  let r := d.slotResv g
  let src := d.slotSrc g
  let mid := d.slotDst g
  let sd := d.rd F.SSW_SLOT_CFG_sink_die a
  let su := d.rd F.SSW_SLOT_CFG_sink_unit a
  let lead := if d.ownSlice g then [] else d.legLinks src mid
  let up := if d.rd F.SSW_SLOT_CFG_src_type a = 2 then [200000 + 2 * (3 * a.die + d.rd F.SSW_SLOT_CFG_src_unit a)] else []
  let tail := match d.rd F.SSW_SLOT_CFG_sink_type a with
    | 0 => (d.legLinks mid (endpoint sd (8 + su) 4)).map (fun l => (l, r))
    | 1 => (d.legLinks mid (endpoint sd (8 + su) 3)).map (fun l => (l, r))
    | 2 => [(200000 + 2 * (3 * sd + su) + 1, r)]
    | _ => (d.storeStacks (d.rd F.SSW_SLOT_CFG_fs a)).flatMap (fun k => (List.range 8).flatMap (fun c =>
        (d.legLinks mid (endpoint (k / 2) ((if k % 2 = 0 then 0 else 24) + c) 3)).map (fun l => (l, ceilDiv r 8))))
  (lead ++ up).map (fun l => (l, r)) ++ tail

/-- The sums of every link over a list of slots. -/
def Dev.linkSums (d : Dev) (gs : List Nat) : Tbl Nat :=
  gs.foldl (fun (t : Tbl Nat) (g : Nat) => (d.slotLinks g).foldl (fun (t : Tbl Nat) (e : Nat × Nat) => t.modify 0 e.1 (· + e.2)) t) []

/-! ### Admission (R244) -/

/-- Whether the copies of a pair agree (R247). -/
def Dev.twinsOk (d : Dev) (g : Nat) : Bool :=
  let h := d.twinOf g
  let same := fun (f : Fld) => decide (d.rd f (slotIx g) = d.rd f (slotIx h))
  d.slotOn h && d.twinned h && decide (d.twinOf h = g) && decide (d.rd F.SSW_SLOT_TWIN_copy (slotIx g) ≠ d.rd F.SSW_SLOT_TWIN_copy (slotIx h)) &&
  same F.SSW_SLOT_CFG_sink_type && same F.SSW_SLOT_CFG_sink_die && same F.SSW_SLOT_CFG_sink_unit && same F.SSW_SLOT_CFG_sink_idx &&
  same F.SSW_SLOT_CFG_fs && same F.SSW_SLOT_CFG_kind && same F.SSW_SLOT_CFG_cg && same F.SSW_SLOT_RATE_unit_bytes && same F.SSW_SLOT_RATE_units &&
  decide (g / 1024 ≠ h / 1024) && decide (d.rd F.SSW_SLOT_CFG_kind (slotIx g) ≠ 4)

/-- Whether the routes of a pair share no router, cord or light cord (R24). -/
def Dev.disjoint (d : Dev) (g : Nat) : Bool :=
  match d.slotRoute g, d.slotRoute (d.twinOf g) with
  | some l, some m => l.all (fun h => m.all (fun k => decide (h.router ≠ k.router) && (h.cord.isNone || decide (h.cord ≠ k.cord))))
  | _, _ => true

/-- The key of a slot's sink: a frame store's writer side, or a port. -/
def Dev.sinkKey (d : Dev) (g : Nat) : Nat :=
  let a := slotIx g
  let t := d.rd F.SSW_SLOT_CFG_sink_type a
  if t = 3 then 3 * 4096 + d.rd F.SSW_SLOT_CFG_fs a
  else t * 4096 + d.rd F.SSW_SLOT_CFG_sink_die a * 512 + d.rd F.SSW_SLOT_CFG_sink_unit a * 64 + d.rd F.SSW_SLOT_CFG_sink_idx a

/-- Whether two unrelated slots name one sink. -/
def Dev.sinkTaken (d : Dev) (gs : List Nat) (g : Nat) : Bool :=
  gs.any (fun h => decide (h ≠ g) && decide (d.sinkKey h = d.sinkKey g) && !(d.twinned g && decide (d.twinOf g = h)))

/-- The writer slot of a store among a list. -/
def Dev.writerOf (d : Dev) (gs : List Nat) (k : Nat) : Option Nat :=
  gs.find? (fun g => d.rd F.SSW_SLOT_CFG_sink_type (slotIx g) = 3 && decide (d.rd F.SSW_SLOT_CFG_fs (slotIx g) = k))

/-- First byte and size in its stack of a store (R251). -/
def Dev.storeSpan (d : Dev) (gs : List Nat) (k : Nat) : Nat × Nat :=
  let a := Ix.on (k / 64) (k % 64)
  (d.rd F.SSW_FS_CFG_base a * unitBytes,
   match d.writerOf gs k with
   | some g => d.rd F.SSW_FS_CFG_depth a * d.rd F.SSW_SLOT_RATE_units (slotIx g) * d.rd F.SSW_SLOT_RATE_unit_bytes (slotIx g)
   | none => 0)

/-- Stores in use. -/
def Dev.storesOn (d : Dev) : List Nat := (List.range 256).filter (fun k => d.flag F.SSW_FS_CFG_enable (Ix.on (k / 64) (k % 64)))

/-- Whether a slot's frame store fits (R236, R251): it is in use, it lies within its stacks and overlaps no other store, the reader's slice has a copy, the
writer's sink slice the primary one. -/
def Dev.storeFits (d : Dev) (gs : List Nat) (g : Nat) : Bool :=
  let a := slotIx g
  let reader := d.rd F.SSW_SLOT_CFG_src_type a = 3
  let writer := d.rd F.SSW_SLOT_CFG_sink_type a = 3
  if !reader && !writer then true else
  let k := d.rd F.SSW_SLOT_CFG_fs a
  let (lo, n) := d.storeSpan gs k
  d.storesOn.contains k && decide (lo + n ≤ stackBytes) &&
  (!reader || (d.storeStacks k).any (fun s => decide (s / 2 = a.die))) &&
  (!writer || decide ((d.storeStacks k).headD 0 / 2 = d.rd F.SSW_SLOT_CFG_sink_die a)) &&
  d.storesOn.all (fun m => decide (m = k) ||
    (let (lo', n') := d.storeSpan gs m
     (d.storeStacks k).all (fun s => !(d.storeStacks m).contains s) || decide (lo + n ≤ lo') || decide (lo' + n' ≤ lo)))

/-- Buffers that the slots of a list take of slice b. -/
def Dev.allotSum (d : Dev) (gs : List Nat) (b : Nat) : Nat :=
  ((gs.filter (fun g => decide (d.rd F.SSW_SLOT_CFG_sink_die (slotIx g) = b))).map (fun g => d.slotAllot g)).sum

/-- Buffers of slice b that the slots in effect hold. -/
def Dev.allotNow (d : Dev) (b : Nat) : Nat :=
  (d.slotsOn.map (fun g => if d.rd F.SSW_SLOT_CFG_sink_die (slotIx g) = b then d.rd F.SSW_SLOT_STAT_allot (slotIx g) else 0)).sum

/-- The buffers a change from `d` to `new` adds on slice b. -/
def growth (d new : Dev) (b : Nat) : Nat := new.allotSum new.slotsOn b - d.allotNow b

/-- Admission of R244 for the change from `d` to `new`: the first failure in the order of the codes, then of slots. -/
def admission (d new : Dev) : Option (Nat × Nat) :=
  let gs := new.slotsOn
  let sums := new.linkSums gs
  let first := fun (c : Nat) (p : Nat → Bool) => (gs.find? p).map (fun g => (c, g))
  let tries : List (Option (Nat × Nat)) :=
    [first 1 (fun g => (new.slotLinks g).any (fun e => decide (new.linkLimit e.1 < Tbl.get 0 sums e.1))),
     first 2 (fun g => let b := new.rd F.SSW_SLOT_CFG_sink_die (slotIx g); decide (65536 < d.ledOut b 2 0 + growth d new b)),
     first 3 (fun g => match new.slotRoute g with
       | some l => decide (new.rd F.SSW_SLOT_RATE_lat (slotIx g) < 2 * new.routeBound l)
       | none => true),
     first 4 (fun g => new.twinned g && !new.twinsOk g),
     first 5 (fun g => new.twinned g && !new.disjoint g),
     first 6 (fun g => new.sinkTaken gs g),
     first 7 (fun g => !new.storeFits gs g)]
  tries.findSome? (fun x => x)

/-- Record a refused admission in the slice of the slot it names. -/
def Dev.admissionFailed (d : Dev) (e : Nat × Nat) : Dev :=
  (d.st F.SSW_STATUS_adm_err (Ix.onDie (e.2 / 1024)) e.1).st F.SSW_STATUS_adm_slot (Ix.onDie (e.2 / 1024)) e.2

/-- Arming reserves the growth of the allotments from those of `old`, in force before, to those of `new` (R255). -/
def Dev.reserveBuffers (d : Dev) (t : Nat) (old new : Dev) : Dev :=
  (List.range 4).foldl (fun (d : Dev) (b : Nat) =>
    let n := growth old new b
    { (d.issue b 2 0 n) with ssw := { d.ssw with reserved := d.ssw.reserved.set 0 (t * 4 + b) n } }) d

/-! ### Link sums (R245, R259) -/

/-- Recompute every link's sum, `SSW_RESV`, and the slots that are overbooked: those that cross a link over its limit, and with `bounds` those whose
`lat` no longer covers their route. -/
def Dev.recompute (d : Dev) (bounds : Bool) : Dev :=
  let gs := d.slotsOn
  let sums := d.linkSums gs
  let ovr := sums.filter (fun e => decide (d.linkLimit e.1 < e.2))
  let isOver := fun (g : Nat) => (d.slotLinks g).any (fun e => ovr.any (fun o => decide (o.1 = e.1))) ||
    (bounds && (match d.slotRoute g with | some l => decide (d.rd F.SSW_SLOT_RATE_lat (slotIx g) < 2 * d.routeBound l) | none => false))
  let d := gs.foldl (fun (d : Dev) (g : Nat) =>
    (d.on (bounds && isOver g && !d.flag F.SSW_SLOT_STAT_overbooked (slotIx g)) (fun d => d.occur (slotOcc g sevDegrade))).stB
      F.SSW_SLOT_STAT_overbooked (slotIx g) (isOver g)) d
  let d := (List.range 4).foldl (fun (d : Dev) (b : Nat) =>
    d.stB F.SSW_STATUS_overbooked (Ix.onDie b) (gs.any (fun g => decide (g / 1024 = b) && isOver g))) d
  allRouters.foldl (fun (d : Dev) (x : Nat) => (List.range 16).foldl (fun (d : Dev) (o : Nat) =>
    let a : Ix := { die := x / 32, i := x % 32, j := o }
    let links := if o < 12 then [x * 16 + o] else ((portCords (x / 32) (x % 32) o).filter (fun c => d.cordUp c)).map (fun c => hopLink ⟨x, o, some c⟩)
    let best := links.foldl (fun (m : Nat) (l : Nat) => if Tbl.get 0 sums m < Tbl.get 0 sums l then l else m) (links.headD 0)
    let present := hasPort (x / 32) (x % 32) o && !links.isEmpty
    ((d.st F.SSW_RESV_resv a (if present then min (Tbl.get 0 sums best) (2 ^ 19 - 1) else 0)).st F.SSW_RESV_limit a
      (if present then d.linkLimit best else 0)).stB F.SSW_RESV_overbooked a (present && links.any (fun l => ovr.any (fun e => decide (e.1 = l))))) d) d

/-- LINK_RECOMPUTE (R245). -/
def execLinkRecompute (s : State) : Result := s.act fun d => d.recompute true

/-! ### Commit (R246, R255, R256) -/

/-- The fields whose change is a switch: source, sink, pairing, store. -/
def switchFields : List Fld :=
  [F.SSW_SLOT_CFG_src_type, F.SSW_SLOT_CFG_src_unit, F.SSW_SLOT_CFG_src_idx, F.SSW_SLOT_CFG_sink_type, F.SSW_SLOT_CFG_sink_die,
   F.SSW_SLOT_CFG_sink_unit, F.SSW_SLOT_CFG_sink_idx, F.SSW_SLOT_CFG_fs, F.SSW_SLOT_TWIN_twin, F.SSW_SLOT_TWIN_twin_valid, F.SSW_SLOT_TWIN_copy]

/-- Whether a slot is switched between two devices. -/
def switched (old new : Dev) (g : Nat) : Bool := switchFields.any (fun f => decide (old.rd f (slotIx g) ≠ new.rd f (slotIx g)))

/-- Return the buffers of an old allotment (R256): once nothing held departed before the change. -/
def Dev.returnExtra (d : Dev) (g : Nat) : Dev :=
  let x := d.slot g
  if x.held.isEmpty && decide (0 < x.extra) then
    (d.giveBack (d.rd F.SSW_SLOT_CFG_sink_die (slotIx g)) 2 0 x.extra).setSlot g { x with extra := 0 }
  else d

/-- A commit has applied: one slot takes its new reservation, allotment and state. -/
def Dev.slotCommit (old : Dev) (d : Dev) (g : Nat) : Dev :=
  let a := slotIx g
  let was := old.slotOn g
  let on := d.slotOn g
  if !was && !on then d else
  let x := d.slot g
  let oa := old.rd F.SSW_SLOT_STAT_allot a
  let ob := old.rd F.SSW_SLOT_CFG_sink_die a
  let nb := d.rd F.SSW_SLOT_CFG_sink_die a
  let na := if on then d.slotAllot g else 0
  let d := if ob = nb then (if oa ≤ na then d.issue nb 2 0 (na - oa) else d) else (d.giveBack ob 2 0 oa).issue nb 2 0 na
  let shrink := if ob = nb then oa - na else 0
  let sw := was && on && switched old d g
  let relat := decide (old.rd F.SSW_SLOT_RATE_lat a ≠ d.rd F.SSW_SLOT_RATE_lat a)
  let x := { x with
    extra := x.extra + shrink
    swC := if sw || (was && !on) || relat then some d.root else x.swC
    oldLat := old.rd F.SSW_SLOT_RATE_lat a
    stamp := if !was || sw then 0 else x.stamp
    drop := if !was then none else x.drop
    lastSeq := if !was || sw then none else x.lastSeq }
  let d := (d.setSlot g x).on (!was || sw) (fun d => d.setMrg g { d.mrg g with fresh := true, recent := [] })
  let d := (d.st F.SSW_SLOT_STAT_resv a (if on then d.slotResv g else 0)).st F.SSW_SLOT_STAT_allot a na
  let d := d.on (!on || !was) (fun d => ((d.st F.SSW_SLOT_STAT_prot a 0).st F.SSW_SLOT_STAT_copy_lost a 0).st F.SSW_SLOT_STAT_skew_now a 0)
  let d := d.st F.SSW_SLOT_STAT_state a (if !on then 0 else if !was then 1 else if sw then 5 else d.rd F.SSW_SLOT_STAT_state a)
  d.returnExtra g

/-- What a commit does in the Stream Switch: `old` is the device before it, t the transaction whose reservation is used up. -/
def Dev.switchCommit (d old : Dev) (t : Option Nat) : Dev :=
  let d := match t with | some t => d.unreserve t | none => d
  ((List.range 4096).foldl (fun (d : Dev) (g : Nat) => Dev.slotCommit old d g) d).recompute false

/-- R250: at C − 32, the twinned slots whose source port a twinned region of fabric die f claims enter SWAPPING. -/
def Dev.enterSwapping (d : Dev) (f n : Nat) : Dev :=
  if !d.flag F.FAB_RGN_CTL_twin_valid (Ix.on f n) then d else
  d.slotsOn.foldl (fun (d : Dev) (g : Nat) =>
    let a := slotIx g
    if d.rd F.SSW_SLOT_CFG_src_type a = 2 && decide (3 * a.die + d.rd F.SSW_SLOT_CFG_src_unit a = f) &&
       bits (d.rd F.FAB_RGN_SP_sp (Ix.on f n)) (d.rd F.SSW_SLOT_CFG_src_idx a) 1 = 1 && d.twinned g
    then (d.st F.SSW_SLOT_STAT_prot a 3).setSlot g { d.slot g with swapRel := none } else d) d

/-- The region's reset has been released: the 64 unit periods of R250 begin. -/
def Dev.swapReleased (d : Dev) (f n : Nat) : Dev :=
  d.slotsOn.foldl (fun (d : Dev) (g : Nat) =>
    let a := slotIx g
    if d.rd F.SSW_SLOT_STAT_prot a = 3 && d.rd F.SSW_SLOT_CFG_src_type a = 2 && decide (3 * a.die + d.rd F.SSW_SLOT_CFG_src_unit a = f) &&
       bits (d.rd F.FAB_RGN_SP_sp (Ix.on f n)) (d.rd F.SSW_SLOT_CFG_src_idx a) 1 = 1
    then d.setSlot g { d.slot g with swapRel := some d.root } else d) d

/-! ### Discards and records (R238, R241, R246) -/

/-- Discard what is held of the slot's unit with sequence number `seq`; with `more` the unit's later fragments are dropped as they come. -/
def Dev.dropUnit (d : Dev) (g : Nat) (seq : BitVec 32) (more : Bool) : Dev :=
  let x := d.slot g
  (d.setSlot g { x with held := x.held.filter (fun y => decide (y.seq ≠ seq)), drop := if more then some seq else none }).returnExtra g

/-- A bad unit (R237, R238): counted, and recorded with severity NOTE when it is the slot's first in 1 ms. -/
def Dev.badUnit (d : Dev) (g : Nat) : Dev :=
  let x := d.slot g
  let quiet := match x.lastBad with | some t => decide (d.root < t + msCycles) | none => false
  let d := d.bump F.SSW_SLOT_ERR_bad_units (slotIx g)
  if quiet then d else (d.setSlot g { x with lastBad := some d.root }).occur (slotOcc g sevNote)

/-- The ROOT cycle at which a fragment departed (R232): its 16 bits against the count at hand, at most 2^15 cycles away. -/
def Dev.departRoot (d : Dev) (x : LineFrag) : Nat :=
  let ahead := (x.depart.toNat + 2 ^ 16 - d.root % 2 ^ 16) % 2 ^ 16
  if ahead < 2 ^ 15 then d.root + ahead else d.root - (2 ^ 16 - ahead)

/-- The `lat` that a fragment is held by (R246): the old one when it departed before C. -/
def Dev.latOf (d : Dev) (g : Nat) (x : LineFrag) : Nat :=
  match (d.slot g).swC with
  | some c => if d.departRoot x < c then (d.slot g).oldLat else d.rd F.SSW_SLOT_RATE_lat (slotIx g)
  | none => d.rd F.SSW_SLOT_RATE_lat (slotIx g)

/-- Its due cycle (R239). -/
def Dev.dueAt (d : Dev) (g : Nat) (x : LineFrag) : Nat := d.departRoot x + d.latOf g x

/-! ### The merge (R248, R249) -/

/-- A copy of a pair is lost (R249): `copy_lost`, the pair UNPROTECTED, a record of severity DEGRADE, or STREAM where the other copy is lost as well. -/
def Dev.copyLost (d : Dev) (g : Nat) : Dev :=
  let a := slotIx g
  if !d.twinned g || d.flag F.SSW_SLOT_STAT_copy_lost a then d else
  let h := slotIx (d.twinOf g)
  let both := d.flag F.SSW_SLOT_STAT_copy_lost h
  let d := (d.st F.SSW_SLOT_STAT_copy_lost a 1).st F.SSW_SLOT_STAT_prot a 2
  let d := (d.st F.SSW_SLOT_STAT_prot h 2).setSlot g { d.slot g with inWin := 0 }
  d.occur (slotOcc g (if both then sevStream else sevDegrade))

/-- A unit of a copy fell within the window: a lost copy rejoins after `rejoin` of them, SWAPPING ends, and a pair whose copies both run is PROTECTED. -/
def Dev.inWindow (d : Dev) (g : Nat) : Dev :=
  if !d.twinned g then d else
  let a := slotIx g
  let x := d.slot g
  let h := d.twinOf g
  let otherOk := !d.flag F.SSW_SLOT_STAT_copy_lost (slotIx h) && (d.slot h).lastSeq.isSome
  let protect := fun (d : Dev) => if otherOk then (d.st F.SSW_SLOT_STAT_prot a 1).st F.SSW_SLOT_STAT_prot (slotIx h)
      (if d.rd F.SSW_SLOT_STAT_prot (slotIx h) = 3 then 3 else 1) else d
  if d.rd F.SSW_SLOT_STAT_prot a = 3 then protect ((d.st F.SSW_SLOT_STAT_prot a 2).setSlot g { x with swapRel := none })
  else if d.flag F.SSW_SLOT_STAT_copy_lost a then
    if d.rd F.SSW_SLOT_TWIN_rejoin a ≤ x.inWin + 1 then
      (protect ((d.st F.SSW_SLOT_STAT_copy_lost a 0).setSlot g { x with inWin := 0 })).occur (slotOcc g sevNote)
    else d.setSlot g { x with inWin := x.inWin + 1 }
  else protect d

/-- A unit outside the window: counted `stale`, and its copy is lost (R249), unless the slot is SWAPPING (R250). -/
def Dev.outWindow (d : Dev) (g : Nat) : Dev :=
  let d := d.bump F.SSW_SLOT_MRG_stale (slotIx g)
  let d := d.setSlot g { d.slot g with inWin := 0 }
  if d.rd F.SSW_SLOT_STAT_prot (slotIx g) = 3 then d else d.copyLost g

/-- The merge's decision on a released unit (R248): whether it is delivered. -/
def Dev.mergeUnit (d : Dev) (g : Nat) (seq : BitVec 32) : Bool × Dev :=
  let a := slotIx g
  let m := d.mrg g
  let d := d.setSlot g { d.slot g with lastAt := some d.root, lastSeq := some seq }
  let deliver := fun (d : Dev) (keep : List (BitVec 32)) =>
    let d := d.setMrg g { fresh := false, high := seq, recent := (keep ++ [seq]).drop (keep.length + 1 - 64), lastAt := d.root }
    let d := d.st F.SSW_SLOT_STAT_skew_now a 0
    let h := d.twinOf g
    let d := match d.twinned g, (d.slot h).lastSeq with
      | true, some q => d.st F.SSW_SLOT_STAT_skew_now (slotIx h) (if laterSeq seq q then min 127 (seq - q).toNat else 0)
      | _, _ => d
    (d.on (decide (d.rd F.SSW_SLOT_STAT_state a ≠ 0)) (fun d => d.st F.SSW_SLOT_STAT_state a 2)).inWindow g
  if m.fresh then (true, deliver d [])
  else
    let w := d.rd F.SSW_SLOT_TWIN_skew_max a
    let up := (seq - m.high).toNat
    let down := (m.high - seq).toNat
    if 1 ≤ up && decide (up ≤ w) then
      (true, deliver (d.bump F.SSW_SLOT_MRG_lost a (up - 1)) m.recent)
    else if down < w && m.recent.contains seq then
      (false, (((d.bump F.SSW_SLOT_MRG_dup a).st F.SSW_SLOT_STAT_skew_now a (min 127 down)).on
        (decide (d.rd F.SSW_SLOT_STAT_state a ≠ 0)) (fun d => d.st F.SSW_SLOT_STAT_state a 2)).inWindow g)
    else (false, d.outWindow g)

/-- MERGE_SILENCE (R248, R249): nothing from a copy for `loss_units` unit periods. The copy is lost; a merge that delivered nothing starts afresh. -/
def execMergeSilence (g : Fin 4096) (s : State) : Result := s.act fun d =>
  let g := g.val
  let a := slotIx g
  let k := d.rd F.SSW_SLOT_TWIN_loss_units a
  let silent := fun (x : Option Nat) => match x with | some t => d.periodsPast g k (d.root - t) | none => true
  if !d.slotOn g then d else
  let m := d.mrg g
  let starved := !m.fresh && d.periodsPast g k (d.root - m.lastAt)
  let other := d.twinned g && !silent (d.slot (d.twinOf g)).lastAt
  let d := d.on (d.twinned g && silent (d.slot g).lastAt && decide (d.rd F.SSW_SLOT_STAT_prot a ≠ 3) && (other || starved)) (fun d => d.copyLost g)
  d.on starved (fun d => d.setMrg g { d.mrg g with fresh := true })

/-- SWAPPING_TIMEOUT (R250): 64 unit periods have passed since the region's release. -/
def execSwappingTimeout (g : Fin 4096) (s : State) : Result := s.act fun d =>
  let g := g.val
  match (d.slot g).swapRel with
  | some t =>
    if d.rd F.SSW_SLOT_STAT_prot (slotIx g) = 3 && d.periodsPast g 64 (d.root - t) then
      (((d.st F.SSW_SLOT_STAT_prot (slotIx g) 2).setSlot g { d.slot g with swapRel := none })).copyLost g
    else d
  | none => d

/-! ### Delivery (R239, R248, R252, R256) -/

/-- Store k's state beside its registers. -/
def Dev.fsOf (d : Dev) (k : Nat) : FsSt := Tbl.get FsSt.fresh d.ssw.fs k

/-- Change it. -/
def Dev.setFs (d : Dev) (k : Nat) (x : FsSt) : Dev := { d with ssw := { d.ssw with fs := d.ssw.fs.set FsSt.fresh k x } }

/-- The register instance of store k. -/
def fsIx (k : Nat) : Ix := Ix.on (k / 64) (k % 64)

/-- The writer's decision at the first unit of a new source frame (R252): close the frame just written or drop it. `depth` complete frames end a
mirror's rebuild (R253). -/
def Dev.writerFrame (d : Dev) (k : Nat) (frame : BitVec 16) : Dev :=
  let a := fsIx k
  let x := d.fsOf k
  match x.cur with
  | none => d.setFs k { x with cur := some frame }
  | some c =>
    if c = frame then d else
    let depth := d.rd F.SSW_FS_CFG_depth a
    let w := d.rd F.SSW_FS_STAT_w_slot a
    let d := if (w + 1) % depth = d.rd F.SSW_FS_STAT_r_slot a then (d.bump F.SSW_FS_STAT_drops a).setFs k { x with cur := some frame }
      else
        let nw := (w + 1) % depth
        (d.st F.SSW_FS_STAT_w_slot a nw).setFs k
          { x with cur := some frame, done := remove (addNew x.done w) nw, rebuilt := x.rebuilt + 1 }
    if d.flag F.SSW_FS_STAT_mirror_rebuild a && decide (depth ≤ (d.fsOf k).rebuilt) then
      (d.st F.SSW_FS_STAT_mirror_rebuild a 0).st F.SSW_FS_STAT_mirror_valid a 1
    else d

/-- The unit index of a unit in its frame (R232, R252): its `line` for kinds without lines, otherwise its place among the store's lines; none where the
store holds no such line. -/
def Dev.unitIndex (d : Dev) (k kind line : Nat) : Option Nat :=
  if kind ≠ 0 then some line else
  let l0 := d.rd F.SSW_FS_CFG_line0 (fsIx k)
  let st := d.rd F.SSW_FS_CFG_line_step (fsIx k)
  if line < l0 || (line - l0) % st ≠ 0 then none else some ((line - l0) / st)

/-- The device address of unit i of frame slot w of store k, in its primary or its mirror stack (R251). -/
def Dev.unitAddr (d : Dev) (k : Nat) (mirror : Bool) (n ub w i : Nat) : Nat :=
  (if mirror then d.rd F.SSW_FS_CFG_mirror_stack (fsIx k) else d.rd F.SSW_FS_CFG_stack (fsIx k)) * stackBytes +
    d.rd F.SSW_FS_CFG_base (fsIx k) * unitBytes + (w * n + i) * ub

/-- Write a delivered unit to its store, to both copies (R252, R253). -/
def Dev.storeUnit (d : Dev) (g : Nat) (u : List LineFrag) : Dev :=
  let a := slotIx g
  let k := d.rd F.SSW_SLOT_CFG_fs a
  match u with
  | [] => d
  | x :: _ =>
    let d := d.writerFrame k x.frame
    match d.unitIndex k x.kind.val x.line.toNat with
    | none => d
    | some i =>
      let n := d.rd F.SSW_SLOT_RATE_units a
      if n ≤ i then d else
      let ub := d.rd F.SSW_SLOT_RATE_unit_bytes a
      let data := u.flatMap (fun y => y.data.take y.bytes.val)
      let key := d.rd F.SSW_FS_CFG_key_id (fsIx k)
      let w := d.rd F.SSW_FS_STAT_w_slot (fsIx k)
      let put := fun (d : Dev) (m : Bool) =>
        let addr := d.unitAddr k m n ub w i
        (d.memWrite key addr data.length (data.zipIdx.map (fun (e : Byte × Nat) => (addr + e.2, e.1))) false).2
      let d := put d false
      d.on (d.flag F.SSW_FS_CFG_mirrored (fsIx k)) (fun d => put d true)

/-- A released unit reaches its sink, or is lost where the sink's domain is closing or off (R256). -/
def Dev.deliverUnit (d : Dev) (g : Nat) (u : List LineFrag) : Dev :=
  let a := slotIx g
  let t := d.rd F.SSW_SLOT_CFG_sink_type a
  if d.endShut (d.rd F.SSW_SLOT_CFG_sink_die a) t (d.rd F.SSW_SLOT_CFG_sink_unit a) then d.bump F.SSW_SLOT_MRG_lost a
  else if t = 3 then d.storeUnit g u
  else
    let k := d.sinkKey g
    let v : SinkUnit := ⟨g, u⟩
    { d with ssw := { d.ssw with sinks := d.ssw.sinks.modify [] k (· ++ [v]) } }

/-! ### Release (R239, R241) -/

/-- The held unit that is ahead of every other in sequence: its first fragment. -/
def SlotSt.ahead (x : SlotSt) : Option LineFrag :=
  x.held.foldl (fun (best : Option LineFrag) (y : LineFrag) => match best with
    | none => some y
    | some b => if laterSeq b.seq y.seq then some y else some b) none

/-- Release the next due fragment of a slot: the first of a unit decides what becomes of it; a unit whose last fragment has not come is incomplete. -/
def Dev.releaseNext (d : Dev) (g : Nat) : Dev :=
  let x := d.slot g
  match (if x.take.isSome then x.held.head? else x.ahead) with
  | none => d
  | some y =>
    if d.root < d.dueAt g y then d else
    let whole := x.held.any (fun z => decide (z.seq = y.seq) && z.last)
    if x.take.isNone && !whole then (d.bump F.SSW_SLOT_ERR_incomplete (slotIx g)).dropUnit g y.seq true
    else
      let a := slotIx g
      let d := if x.take.isSome then d else (d.count a.die 1 220 a.i 1).on (decide (d.dueAt g y < d.root)) (fun d => d.count a.die 1 221 a.i 1)
      let (ok, d) := match x.take with | some v => (v, d) | none => d.mergeUnit g y.seq
      let x := d.slot g
      let x := { x with held := x.held.filter (fun z => decide (z ≠ y)) }
      if y.last then
        let d := d.setSlot g { x with take := none, part := [] }
        (d.on ok (fun d => d.deliverUnit g (x.part ++ [y]))).returnExtra g
      else d.setSlot g { x with take := some ok, part := x.part ++ [y], held := x.held.filter (fun z => decide (z.seq = y.seq)) ++ x.held.filter (fun z => decide (z.seq ≠ y.seq)) }

/-- FRAGMENT_RELEASE (R239). The slice of a base die in reset or without clock, and a device in EMBER, release nothing. -/
def execFragmentRelease (g : Fin 4096) (s : State) : Result := s.act fun d =>
  if d.mode == .ember || d.dieOff (d.rd F.SSW_SLOT_CFG_sink_die (slotIx g)) then d else d.releaseNext g

/-! ### Arrival (R238, R241, R246) -/

/-- Whether a fragment follows what is held of the slot (R233, R238). -/
def SlotSt.follows (x : SlotSt) (y : LineFrag) : Bool :=
  match x.held.getLast? with
  | some z =>
    if z.last then y.first && decide (y.frag.val = 0)
    else !y.first && decide (y.frag.val = z.frag.val + 1) && decide (y.seq = z.seq) && decide (y.kind = z.kind) && decide (y.line = z.line) && decide (y.frame = z.frame)
  | none => y.first && decide (y.frag.val = 0)

/-- The checks of R238 on a fragment that reaches the slice of base die b. -/
def Dev.fragOk (d : Dev) (b g : Nat) (y : LineFrag) : Bool :=
  let a := slotIx g
  let x := d.slot g
  let total := ((x.held.filter (fun z => decide (z.seq = y.seq))).map (fun z => z.bytes.val)).sum + y.bytes.val
  let ub := d.rd F.SSW_SLOT_RATE_unit_bytes a
  let lat := d.latOf g y
  d.slotOn g && decide (d.rd F.SSW_SLOT_CFG_sink_die a = b) && decide (y.kind.val = d.rd F.SSW_SLOT_CFG_kind a) && !y.resv && x.follows y &&
  decide (y.bytes.val ≤ 1920) && decide (total ≤ ub) && !(y.last && d.flag F.SSW_SLOT_RATE_exact a && decide (total < ub)) &&
  decide (d.departRoot y ≤ d.root + lat)

/-- A fragment reaches its sink slice. -/
def Dev.arrive (d : Dev) (b : Nat) (y : LineFrag) (fromOld : Bool) : Dev :=
  let g := y.slot.val
  let x := d.slot g
  if d.dieOff b then d
  else if x.drop = some y.seq && !y.first then d.on y.last (fun d => d.setSlot g { x with drop := none })
  else
    let wrongSide := match x.swC with
      | some c => if fromOld then decide (c ≤ d.departRoot y) else decide (d.departRoot y < c) && d.slotOn g
      | none => false
    if wrongSide then (d.on y.first (fun d => d.bump F.SSW_SLOT_MRG_switched (slotIx g))).dropUnit g y.seq (!y.last)
    else if !d.fragOk b g y && !(fromOld && !d.slotOn g) then
      let whole := match x.held.getLast? with | some z => !z.last && decide (z.seq ≠ y.seq) | none => false
      let d := d.badUnit g
      (match x.held.getLast? with
       | some z => d.on whole (fun d => d.dropUnit g z.seq false)
       | none => d).dropUnit g y.seq (!y.last)
    else
      let late := decide (d.dueAt g y < d.root)
      let d := d.setSlot g { x with held := x.held ++ [y], drop := none }
      if late then (d.bump F.SSW_SLOT_ERR_late (slotIx g)).releaseNext g else d

/-- FRAGMENT_ARRIVAL (R238): `fromOld` says that the sender is the source the slot had before its last switch. -/
def execFragmentArrival (b : Fin 4) (x : LineFrag) (fromOld : Bool) (s : State) : Result := s.act fun d =>
  if d.mode == .ember then d else d.arrive b x fromOld

/-! ### Sources (R231, R233, R236 to R239) -/

/-- Whether VC3 carries traffic: from step 9, and not in EMBER (R229, R258). -/
def Dev.streamsOpen (d : Dev) : Bool := d.fab.step9 && d.mode != .ember && d.mode != .cold

/-- A fragment leaves its source: `depart` is the ROOT count, the copy bit is the slot's, and it goes into the network or straight to its own slice. -/
def Dev.sendFrag (d : Dev) (g : Nat) (y : LineFrag) : Dev :=
  let y := { y with slot := Fin.ofNat 4096 g, copyB := d.flag F.SSW_SLOT_TWIN_copy (slotIx g), depart := BitVec.ofNat 16 d.root }
  if d.ownSlice g then d.arrive (g / 1024) y false
  else d.emit (.noc { id := 0, op := 5, vc := 3, len := Fin.ofNat 32 ((y.bytes.val + 127) / 128), rdLen := 0, tag := 0, code := 0, full := true, addr := 0,
                      be := y.header, dst := BitVec.ofNat 12 (d.slotDst g), src := BitVec.ofNat 12 (d.slotSrc g),
                      epoch := d.flag F.NOC_STATUS_epoch (Ix.onDie (g / 1024)), birth := d.birthNow, poison := false, resv := false,
                      data := bytesWords (y.data.take y.bytes.val) })

/-- The last fragment of a unit that an engine sent has entered the network (R348): its tag is done, and the unit counts as sent. -/
def Dev.packSent (d : Dev) (g : Nat) : Dev :=
  let a := slotIx g
  if d.rd F.SSW_SLOT_CFG_src_type a ≠ 1 ||
     decide ((d.slotsFrom a.die 1 (d.rd F.SSW_SLOT_CFG_src_unit a) (d.rd F.SSW_SLOT_CFG_src_idx a)).head? ≠ some g) then d else
  let p := 8 * a.die + d.rd F.SSW_SLOT_CFG_src_unit a
  let i := d.rd F.SSW_SLOT_CFG_src_idx a
  let x := Tbl.get PackSt.fresh d.en.pack p
  match Tbl.get [] x.sends i with
  | [] => d
  | e :: r =>
    let d := d.addWrap F.PK_STX_STAT_sent { die := a.die, u := p % 8, i := i }
    let y := Tbl.get EngSt.fresh d.en.eng e.1
    let x' : PackSt := { x with sends := x.sends.set [] i r }
    let y' : EngSt := { y with xq := y.xq.set 0 e.2 2 }
    { d with en := { d.en with pack := d.en.pack.set PackSt.fresh p x', eng := d.en.eng.set EngSt.fresh e.1 y' } }

/-- STRM (R231): the next fragment that waits at the slot's source leaves for its sink slice. -/
def execStrm (g : Fin 4096) (s : State) : Result := s.act fun d =>
  if !d.streamsOpen || !d.slotOn g then d else
  match (d.slot g).srcQ with
  | [] => d
  | y :: r => ((d.setSlot g { d.slot g with srcQ := r }).sendFrag g y).on y.last (fun d => d.packSent g)

/-- A unit's fragments (R233): 1,920 bytes each but the last. -/
def splitUnit (h : LineFrag) (data : List Byte) : List LineFrag :=
  let n := max 1 (ceilDiv data.length 1920)
  (List.range n).map (fun i =>
    let part := (data.drop (1920 * i)).take 1920
    { h with frag := Fin.ofNat 256 i, first := decide (i = 0), last := decide (i + 1 = n), bytes := Fin.ofNat 2048 part.length, data := part })

/-- A source hands a unit to a slot: its fragments wait at the source until the network takes them (R238). -/
def Dev.sourceUnit (d : Dev) (g : Nat) (seq : BitVec 32) (kind line frame : Nat) (data : List Byte) : Dev :=
  let h : LineFrag :=
    { seq := seq, slot := Fin.ofNat 4096 g, frag := 0, first := true, last := true, kind := Fin.ofNat 8 kind, copyB := false, rpt := false, resv := false,
      line := BitVec.ofNat 16 line, frame := BitVec.ofNat 16 frame, bytes := 0, depart := 0, data := [] }
  d.setSlot g { d.slot g with srcQ := (d.slot g).srcQ ++ splitUnit h data }

/-- FABRIC_SOURCE_UNIT (R237, R238, R173): a fabric source port offers a unit. `spDrop` discards it; a unit offered to a full port is overrun. -/
def execFabricSourceUnit (f : Fin 12) (p : Fin 64) (u : FabUnit) (spDrop : Bool) (s : State) : Result := s.act fun d =>
  let a : Ix := { die := f.val / 3, i := f.val % 3, j := p }
  if !d.flag F.SSW_FSRC_enable a || !d.streamsOpen || d.dieOff (f.val / 3) || d.dieOff (4 + f.val) || d.fab.closedSp.any (fun e => decide (e.1 = f.val * 64 + p.val)) then d else
  let g := f.val / 3 * 1024 + d.rd F.SSW_FSRC_slot a
  let c := slotIx g
  let named := d.slotOn g && d.rd F.SSW_SLOT_CFG_src_type c = 2 && decide (d.rd F.SSW_SLOT_CFG_src_unit c = f.val % 3) &&
    decide (d.rd F.SSW_SLOT_CFG_src_idx c = p.val)
  if !named then d.badUnit g
  else if spDrop then (d.bump F.SSW_SLOT_ERR_bad_units c).fabCount f 38 p 1
  else if 4 ≤ ((d.slot g).srcQ.filter (fun y => y.last)).length then (d.bump F.SSW_SLOT_ERR_overrun c).fabCount f 36 p 1
  else
    let x := d.slot g
    let chan := d.flag F.SSW_FSRC_channel a
    let stamp := chan || d.flag F.SSW_SLOT_CFG_seq_stamp c
    let h : LineFrag :=
      { seq := if stamp then x.stamp else u.seq, slot := Fin.ofNat 4096 g, frag := 0, first := true, last := true, kind := if chan then 4 else u.kind,
        copyB := false, rpt := false, resv := u.other, line := u.line, frame := u.frame, bytes := 0, depart := 0, data := [] }
    let data := if chan then u.data.take 1920 else u.data
    d.setSlot g { x with srcQ := x.srcQ ++ splitUnit h data, stamp := if stamp then x.stamp + 1 else x.stamp }

/-! ### Frame stores: the reading side (R252, R253, R254) -/

/-- FRAME_STORE_DECISION (R252): a frame starts on the store's read generator. -/
def execFrameStoreDecision (k : Fin 256) (s : State) : Result := s.act fun d =>
  let a := fsIx k
  if !d.flag F.SSW_FS_CFG_enable a || !d.streamsOpen then d else
  let x := d.fsOf k
  let nx := (d.rd F.SSW_FS_STAT_r_slot a + 1) % d.rd F.SSW_FS_CFG_depth a
  if x.done.contains nx then (d.st F.SSW_FS_STAT_r_slot a nx).setFs k { x with rep := false }
  else (d.bump F.SSW_FS_STAT_repeats a).setFs k { x with rep := true }

/-- Whether a store's copy can be read: the primary while its stack serves, the mirror while it is valid. -/
def Dev.copyUp (d : Dev) (k : Nat) (mirror : Bool) : Bool :=
  if mirror then d.flag F.SSW_FS_CFG_mirrored (fsIx k) && d.flag F.SSW_FS_STAT_mirror_valid (fsIx k) && d.stackUp (d.rd F.SSW_FS_CFG_mirror_stack (fsIx k))
  else d.stackUp (d.rd F.SSW_FS_CFG_stack (fsIx k))

/-- FRAME_STORE_LINE_READ (R252, R253): the reader's line event for a unit. It reads the copy on its own base die, the other where that one is out of
service. A read still under way is late. -/
def execFrameStoreLineRead (g : Fin 4096) (unit : Fin 8192) (frame : Nat) (s : State) : Result := s.act fun d =>
  let a := slotIx g
  let k := d.rd F.SSW_SLOT_CFG_fs a
  if !d.slotOn g || d.rd F.SSW_SLOT_CFG_src_type a ≠ 3 || !d.flag F.SSW_FS_CFG_enable (fsIx k) || !d.streamsOpen ||
     decide (d.rd F.SSW_SLOT_RATE_units a ≤ unit.val) then d else
  let d := d.on (Tbl.get none d.ssw.reads g).isSome (fun d => d.bump F.SSW_FS_STAT_fs_late (fsIx k))
  let own := decide (d.rd F.SSW_FS_CFG_stack (fsIx k) / 2 ≠ g.val / 1024)
  let r : FsRead := { unit := unit, mirror := if d.copyUp k own then own else if d.copyUp k (!own) then !own else own, again := false,
                      slot := d.rd F.SSW_FS_STAT_r_slot (fsIx k), frame := frame }
  { d with ssw := { d.ssw with reads := d.ssw.reads.set none g (some r) } }

/-- FRAME_STORE_READ_RETURN (R253): a failed read is read again from the other copy, and the unit is lost when that fails too. A unit that comes back
leaves the slice with the `seq` of R234. -/
def execFrameStoreReadReturn (g : Fin 4096) (fate : ReadFate) (s : State) : Result := s.act fun d =>
  let a := slotIx g
  let k := d.rd F.SSW_SLOT_CFG_fs a
  match Tbl.get none d.ssw.reads g with
  | none => d
  | some r =>
    let n := d.rd F.SSW_SLOT_RATE_units a
    let ub := d.rd F.SSW_SLOT_RATE_unit_bytes a
    let (code, data, d) := match fate with
      | .served => d.memRead (d.rd F.SSW_FS_CFG_key_id (fsIx k)) (d.unitAddr k r.mirror n ub r.slot r.unit) ub
      | .timedOut => (.timeout, [], d)
      | .faulted => (.fault, [], d)
    if code = .done then
      let d := { d with ssw := { d.ssw with reads := d.ssw.reads.set none g none } }
      let kind := d.rd F.SSW_SLOT_CFG_kind a
      let line := if kind = 0 then d.rd F.SSW_FS_CFG_line0 (fsIx k) + r.unit * d.rd F.SSW_FS_CFG_line_step (fsIx k) else r.unit
      let h : LineFrag :=
        { seq := BitVec.ofNat 32 (r.frame * n + r.unit), slot := g, frag := 0, first := true, last := true, kind := Fin.ofNat 8 kind, copyB := false,
          rpt := (d.fsOf k).rep, resv := false, line := BitVec.ofNat 16 line, frame := BitVec.ofNat 16 r.frame, bytes := 0, depart := 0, data := [] }
      if d.ownSlice g then (splitUnit h data).foldl (fun (d : Dev) (y : LineFrag) => d.sendFrag g y) d
      else d.setSlot g { d.slot g with srcQ := (d.slot g).srcQ ++ splitUnit h data }
    else if !r.again && d.flag F.SSW_FS_CFG_mirrored (fsIx k) then
      let r' := { r with mirror := !r.mirror, again := true }
      { (d.bump F.SSW_FS_STAT_redirected (fsIx k)) with ssw := { d.ssw with reads := d.ssw.reads.set none g (some r') } }
    else { (d.bump F.SSW_SLOT_MRG_lost a) with ssw := { d.ssw with reads := d.ssw.reads.set none g none } }

/-! ### Delivery engines (R257) -/

/-- DE_TAKEOVER (R257): the lockstep pair of delivery engine c of slice b disagrees. DE8 takes its slots over where it is free. -/
def execDeTakeover (b : Fin 4) (c : Fin 9) (s : State) : Result := s.act fun d =>
  let a := Ix.onDie b
  let up := d.rd F.SSW_STATUS_de_up a
  if bits up c 1 = 0 then d else
  let busy := decide (c.val < 8) && (d.flag F.SSW_STATUS_spare_busy a || bits up 8 1 = 0)
  let d := (d.st F.SSW_STATUS_de_up a (up - 2 ^ c.val)).on (decide (c.val < 8) && !busy) (fun d => d.st F.SSW_STATUS_spare_busy a 1)
  d.occur { die := b, block := 1, inst := 0, cls := 9, sev := if busy then sevStream else sevNote, detail := c }

end Sys2Proof.Machine
end

