-- ==== Sys2Proof/Machine/EngMem.lean ====
section
/-! DEFINITION. Engine instructions: loads, stores and moves (R363, R364), codestreams (R377), far accesses, streams and the task's end (R348, R349, R379, R380). Log entries: DEDUCED 66, 67, 68. -/

namespace Sys2Proof.Machine

/-! ### Loads, stores and moves (R363, R364) -/

/-- Bytes of an access of size code sz. -/
def accW (sz : Nat) : Nat := 2 ^ (sz + 1)

/-- LD; `err` tells of an uncorrectable word. -/
def opLd (g : Nat) (m : MemOp) (sz : Nat) (sx err : Bool) : EngOp := pureOp fun x =>
  if sz = 3 || (sx && sz != 0) || (sz = 2 && !vecOk g) then .error excILLEGAL else
  match x.opM m (accW sz) with
  | .error c => .error c
  | .ok (a, y) =>
    if err then .error excMEM else
    let v := x.load a (accW sz)
    .ok (if sz = 2 then y.wrVecLoad g v else y.wrLoad g (if sx then unsgn 32 (sgn 16 v) else v))

/-- ST. -/
def opSt (g : Nat) (m : MemOp) (sz : Nat) : EngOp := pureOp fun x =>
  if sz = 3 || (sz = 2 && !vecOk g) then .error excILLEGAL else
  match x.opM m (accW sz) with
  | .error c => .error c
  | .ok (a, y) => .ok (y.store a (accW sz) (if sz = 2 then x.pair g else x.g g))

/-- LDS; where a post-modify names the register loaded, the load stands. -/
def opLds (i : Nat) (m : MemOp) (err : Bool) : EngOp := pureOp fun x =>
  match x.opM m 2 with
  | .error c => .error c
  | .ok (a, y) => if err then .error excMEM else .ok (y.wrSpecial i (x.load a 2) true)

/-- STS. -/
def opSts (i : Nat) (m : MemOp) : EngOp := pureOp fun x =>
  match x.opM m 2 with
  | .error c => .error c
  | .ok (a, y) => .ok (y.store a 2 (x.rd .plain (locX i)))

/-- MOVS. -/
def opMovs (g i : Nat) : EngOp := pureOp fun x =>
  if specialOk i (x.g g) then .ok (x.wrSpecial i (x.g g) false) else .error excILLEGAL

/-- MOVG; m0 to m7 are sign-extended. -/
def opMovg (g i : Nat) : EngOp := fun e d x =>
  match x.special e i with
  | none => .exc excILLEGAL
  | some v => .done d (x.wrG g (if 8 ≤ i ∧ i < 16 then unsgn 32 (sgn 16 v) else v))

/-! ### Codestreams (R377, R378) -/

/-- PUTB. -/
def opPutb (w s t k : Nat) : EngOp := pureOp fun x =>
  let n := x.g t
  let c := x.g (w + 1)
  if !vecOk w || decide (32 < n) || decide (31 < c) then .error excILLEGAL else
  let v := x.g s % 2 ^ n
  if c + n < 32 then .ok ((x.wrLoad w (x.g w ||| v * 2 ^ (32 - c - n))).wrLoad (w + 1) (c + n))
  else
    let e := c + n - 32
    let a := x.p k
    match x.addrCheck k a 4 with
    | some code => .error code
    | none =>
      let y := (x.store a 4 (swap32 (x.g w ||| v / 2 ^ e))).setP k (x.circ k a 4)
      .ok ((y.wrLoad w (if e = 0 then 0 else v * 2 ^ (32 - e))).wrLoad (w + 1) e)

/-- GETB; `err` tells of an uncorrectable word, where one is read. -/
def opGetb (d r t k : Nat) (err : Bool) : EngOp := pureOp fun x =>
  let n := x.g t
  let c := x.g (r + 1)
  if !vecOk r || d = r || d = r + 1 || decide (32 < n) || decide (32 < c) then .error excILLEGAL else
  if n ≤ c then
    .ok (((x.wrLoad r (x.g r * 2 ^ n)).wrLoad (r + 1) (c - n)).wrLoad d (x.g r / 2 ^ (32 - n)))
  else
    let a := x.p k
    match x.addrCheck k a 4 with
    | some code => .error code
    | none =>
      if err then .error excMEM else
      let m := swap32 (x.load a 4)
      let e := n - c
      let y := x.setP k (x.circ k a 4)
      .ok (((y.wrLoad r (m * 2 ^ e)).wrLoad (r + 1) (32 - e)).wrLoad d (x.g r / 2 ^ (32 - c) * 2 ^ e + m / 2 ^ (32 - e)))

/-! ### Far accesses (R338, R379, R380) -/

/-- A tag that an instruction or the hardware has taken: busy. -/
def tagBusy : Nat := 1

/-- The state of a tag that is done with a code of R14. -/
def tagDone (code : Nat) : Nat := 2 + code

/-- A tag's state. -/
def EngSt.tag (x : EngSt) (t : Nat) : Nat := Tbl.get 0 x.xq t

/-- Set it. -/
def EngSt.setTag (x : EngSt) (t v : Nat) : EngSt := { x with xq := x.xq.set 0 t v }

/-- Engine cycles an instruction stalled, which timing alone decides: a free value. -/
def Dev.stalled (d : Dev) (e : Nat) : Dev :=
  let (n, d) := d.draw 32
  (d.bump F.PK_ENG_CNT_stall_cycles (engIx e) n).count (e / 256) 6 209 (e % 256) n

/-- Whether `n` bytes from a lie within one window of the task. -/
def EngSt.inOne (x : EngSt) (a n : Nat) : Bool := x.inWindow a n

/-- XFER: a busy tag stalls it. -/
def opXfer (s k tag : Nat) (dir : Bool) (n : Nat) : EngOp := fun _ d x =>
  let dev := x.pair s
  let la := x.p k
  let bytes := (n + 1) * 8
  if !vecOk s || decide (2 ^ 63 ≤ dev) then .exc excILLEGAL
  else if la % 8 ≠ 0 || dev % 8 ≠ 0 then .exc excALIGN
  else if !x.inOne la bytes then .exc excWINDOW
  else if x.tag tag = tagBusy then .stall
  else .done d { x.setTag tag tagBusy with xfers := x.xfers ++ [{ tag := tag, out := dir, addr := dev, la := la, bytes := bytes }] }

/-- WAIT: a busy tag stalls it, a free one gives DONE. -/
def opWait (r tag : Nat) : EngOp := fun _ d x =>
  if x.tag tag = tagBusy then .stall
  else .done d ((x.setTag tag 0).wrNow r (x.tag tag - 2))

/-- n bytes of pack memory as a number. -/
def PackSt.load (p : PackSt) (a n : Nat) : Nat := ((List.range n).map (fun i => (Tbl.get 0#8 p.pm (a + i)).toNat * 2 ^ (8 * i))).sum

/-- Write bytes to pack memory: a rewritten word is good again, and the reservations of engines other than `by_` on the lines end (R338). -/
def Dev.pmWrite (d : Dev) (p : Nat) (by_ : Option Nat) (a : Nat) (data : List Byte) : Dev :=
  let x := d.packOf p
  let last := a + data.length
  let pm := (data.zipIdx).foldl (fun m (e : Byte × Nat) => Tbl.set 0#8 m (a + e.2) e.1) x.pm
  let bad := x.bad.filter (fun w => !(decide (a ≤ 8 * w) && decide (8 * w + 8 ≤ last)))
  let d := d.setPack p { x with pm := pm, bad := bad }
  (List.range 32).foldl (fun (d : Dev) (i : Nat) =>
    let e := p * 32 + i
    let y := d.eng e
    match y.ll with
    | some l => if some e ≠ by_ && decide (a < 64 * (l + 1)) && decide (64 * l < last) then d.setEng e { y with ll := none } else d
    | none => d) d

/-- The pack-memory offset of LL and SC, with its checks. -/
def llOffset (base : Nat) (imm : Int) : Except Nat Nat :=
  let o : Int := (base : Int) + imm
  if o < 0 ∨ 0xFFFFF < o then .error excWINDOW else if o % 4 ≠ 0 then .error excALIGN else .ok o.toNat

/-- LL. -/
def opLl (r s : Nat) (imm : BitVec 16) : EngOp := fun e d x =>
  match llOffset (x.g s) (sgn 16 imm.toNat) with
  | .error c => .exc c
  | .ok o =>
    if (d.packOf (e / 32)).bad.contains (o / 8) then .exc excMEM
    else .done (d.stalled e) { x.wrNow r ((d.packOf (e / 32)).load o 4) with ll := some (o / 64) }

/-- SC: it stores if the reservation of its line still holds, and ends the reservation. -/
def opSc (r s t : Nat) (imm : BitVec 11) : EngOp := fun e d x =>
  match llOffset (x.g s) (sgn 11 imm.toNat) with
  | .error c => .exc c
  | .ok o =>
    let ok := decide (x.ll = some (o / 64))
    let d := d.stalled e
    .done (d.on ok (fun d => d.pmWrite (e / 32) (some e) o (numBytes (x.g t) 4))) { x.wrNow r ok.toNat with ll := none }

/-! ### Streams, stimulus, the task's end (R348, R349, R380) -/

/-- The unit that lies at a pack-memory line as a ring entry, if it keeps R348: only seq, kind, line and frame stand in the header, and the payload lies in
pack memory. -/
def PackSt.unitAt (p : PackSt) (l : Nat) : Option (Nat × Nat × Nat × Nat × List Byte) :=
  let a := 64 * l
  let h := p.load a 16
  let n := p.load (a + 16) 4
  let kind := bits h 54 3
  if bits h 32 22 ≠ 0 || bits h 57 7 ≠ 0 || bits h 96 32 ≠ 0 || decide (4 < kind) || n = 0 || decide (491520 < n) || decide (2 ^ 20 < a + 64 + n) then none
  else some (bits h 0 32, kind, bits h 64 16, bits h 80 16, (List.range n).map (fun i => Tbl.get 0#8 p.pm (a + 64 + i)))

/-- SEND: its unit goes to every slot that names the pack's index as its source. -/
def opSend (i s tag : Nat) : EngOp := fun e d x =>
  if x.tag tag = tagBusy then .exc excILLEGAL else
  let p := e / 32
  let slots := d.slotsFrom (e / 256) 1 (p % 8) i
  let no := .done (d.bump F.PK_STX_STAT_refused { die := e / 256, u := p % 8, i := i }) (x.setTag tag (tagDone Resp.reject.code))
  if 16384 ≤ x.g s then no else
  match (d.packOf p).unitAt (x.g s), slots with
  | some (seq, kind, line, frame, data), _ :: _ =>
    let d := slots.foldl (fun (d : Dev) (g : Nat) => d.sourceUnit g (BitVec.ofNat 32 seq) kind line frame data) d
    let k := d.packOf p
    .done (d.setPack p { k with sends := k.sends.modify [] i (· ++ [(e, tag)]) }) (x.setTag tag tagBusy)
  | _, _ => no

/-- STIM: an enabled port's FIFO takes the value with the house time. -/
def opStim (k s : Nat) : EngOp := fun e d x =>
  let p := e / 32
  let a : Ix := { die := e / 256, u := p % 8 }
  if bits (d.rd F.PK_STIM_stim_en a) k 1 = 0 then .done d x
  else
    let q := d.packOf p
    if 64 ≤ q.stim.length then .done (d.bump F.PK_STIM_stim_drop a) x
    else .done (d.setPack p { q with stim := q.stim ++ [(k, e, x.g s, d.sec, d.ns)] }) x

/-- HALT. -/
def opHalt (s : Nat) : EngOp := fun e d x =>
  let d := (d.taskEnd e stOK 0 (x.g s % 2 ^ 16)).engLeave e x
  .done d (d.eng e)

/-! ### The commands -/

/-- LD: one issue of it on engine e. -/
def execLd (e : Fin 1024) (g : Fin 32) (m : MemOp) (sz : Fin 4) (sx err : Bool) (s : State) : Result := s.runOp e .free (opLd g.val m sz.val sx err)

/-- ST: one issue of it on engine e. -/
def execSt (e : Fin 1024) (g : Fin 32) (m : MemOp) (sz : Fin 4) (s : State) : Result := s.runOp e .free (opSt g.val m sz.val)

/-- LDS: one issue of it on engine e. -/
def execLds (e : Fin 1024) (x : Fin 32) (m : MemOp) (err : Bool) (s : State) : Result := s.runOp e .free (opLds x.val m err)

/-- STS: one issue of it on engine e. -/
def execSts (e : Fin 1024) (x : Fin 32) (m : MemOp) (s : State) : Result := s.runOp e .free (opSts x.val m)

/-- Where a MOVS to x may stand (R364). -/
def movsRule (x : Nat) : Rule := if 32 ≤ x ∧ x < 38 then .noLoop else .free

/-- MOVS: one issue of it on engine e. -/
def execMovs (e : Fin 1024) (g : Fin 32) (x : Fin 64) (s : State) : Result := s.runOp e (movsRule x.val) (opMovs g.val x.val)

/-- MOVG: one issue of it on engine e. -/
def execMovg (e : Fin 1024) (g : Fin 32) (x : Fin 64) (s : State) : Result := s.runOp e .free (opMovg g.val x.val)

/-- PUTB: one issue of it on engine e. -/
def execPutb (e : Fin 1024) (w s t : Fin 32) (k : Fin 8) (st : State) : Result := st.runOp e .free (opPutb w.val s.val t.val k.val)

/-- GETB: one issue of it on engine e. -/
def execGetb (e : Fin 1024) (d r t : Fin 32) (k : Fin 8) (err : Bool) (s : State) : Result := s.runOp e .free (opGetb d.val r.val t.val k.val err)

/-- XFER: one issue of it on engine e. -/
def execXfer (e : Fin 1024) (s : Fin 32) (k tag : Fin 8) (dir : Bool) (n : Fin 512) (st : State) : Result :=
  st.runOp e .never (opXfer s.val k.val tag.val dir n.val)

/-- WAIT: one issue of it on engine e. -/
def execWait (e : Fin 1024) (d : Fin 32) (tag : Fin 8) (s : State) : Result := s.runOp e .never (opWait d.val tag.val)

/-- LL: one issue of it on engine e. -/
def execLl (e : Fin 1024) (d s : Fin 32) (imm : BitVec 16) (st : State) : Result := st.runOp e .never (opLl d.val s.val imm)

/-- SC: one issue of it on engine e. -/
def execSc (e : Fin 1024) (d s t : Fin 32) (imm : BitVec 11) (st : State) : Result := st.runOp e .never (opSc d.val s.val t.val imm)

/-- SEND: one issue of it on engine e. -/
def execSend (e : Fin 1024) (i : Fin 64) (s : Fin 32) (tag : Fin 8) (st : State) : Result := st.runOp e .never (opSend i.val s.val tag.val)

/-- STIM: one issue of it on engine e. -/
def execStim (e : Fin 1024) (k s : Fin 32) (st : State) : Result := st.runOp e .free (opStim k.val s.val)

/-- HALT: one issue of it on engine e. -/
def execHalt (e : Fin 1024) (s : Fin 32) (st : State) : Result := st.runOp e .never (opHalt s.val)

end Sys2Proof.Machine
end

