-- ==== Sys2Proof/Machine/EngCtl.lean ====
section
/-! DEFINITION. Engine instructions: branches (R365, R366), repeats (R367, R368), NOP; and the reading of an instruction word (R354 to R356), by which an
undefined encoding is told and a halted engine steps. Log entries: DEDUCED 65. -/

namespace Sys2Proof.Machine

/-! ### Branches -/

/-- A branch that goes to `target` after two delay slots when taken, and past them otherwise. -/
def EngSt.branch (x : EngSt) (taken : Bool) (target : Nat) : EngSt :=
  { x with redirect := some { target := if taken then target else x.pc + 12, left := 2, reti := false } }

/-- pc + 4 × sext(off), modulo 2^18. -/
def EngSt.relTarget (x : EngSt) (off : BitVec 16) : Nat := unsgn 18 ((x.pc : Int) + 4 * sgn 16 off.toNat)

/-- B. -/
def opB (c : Nat) (off : BitVec 16) : EngOp := pureOp fun x =>
  match x.cond c with
  | none => .error excILLEGAL
  | some t => .ok (x.branch t (x.relTarget off))

/-- BZ. -/
def opBz (s : Nat) (off : BitVec 16) : EngOp := pureOp fun x => .ok (x.branch (decide (x.gB s = 0)) (x.relTarget off))

/-- BNZ. -/
def opBnz (s : Nat) (off : BitVec 16) : EngOp := pureOp fun x => .ok (x.branch (decide (x.gB s ≠ 0)) (x.relTarget off))

/-- J. -/
def opJ (off : BitVec 16) : EngOp := pureOp fun x => .ok (x.branch true (4 * off.toNat))

/-- CALL. -/
def opCall (off : BitVec 16) : EngOp := pureOp fun x => .ok ((x.wrG 31 (x.pc + 12)).branch true (4 * off.toNat))

/-- A target in a register: FETCH unless it is a multiple of 4 below 2^18. -/
def regTarget (x : EngSt) (s : Nat) : Except Nat Nat :=
  if x.gB s % 4 ≠ 0 ∨ 2 ^ 18 ≤ x.gB s then .error excFETCH else .ok (x.gB s)

/-- JR. -/
def opJr (s : Nat) : EngOp := pureOp fun x => (regTarget x s).map (fun t => x.branch true t)

/-- CALLR. -/
def opCallr (s : Nat) : EngOp := pureOp fun x => (regTarget x s).map (fun t => (x.wrG 31 (x.pc + 12)).branch true t)

/-- RETI: only in a handler. -/
def opReti : EngOp := pureOp fun x =>
  if x.rd .late locIH = 0 then .error excILLEGAL
  else .ok { x with redirect := some { target := 0, left := 2, reti := true } }

/-! ### Repeats -/

/-- RPT and RPTR: the next instruction issues n times. -/
def opRptN (n : EngSt → Nat) : EngOp := pureOp fun x =>
  if n x = 0 ∨ 1024 < n x then .error excILLEGAL else .ok { x with rpt := some (n x) }

/-- RPT. -/
def opRpt (n : Nat) : EngOp := opRptN (fun _ => n)

/-- RPTR. -/
def opRptr (s : Nat) : EngOp := opRptN (fun x => x.g s)

/-- RPTB and RPTBR: a block of `len` instructions, count + 1 times, on the first level that is not active. -/
def opRptbN (len : Nat) (count : EngSt → Nat) : EngOp := pureOp fun x =>
  if 1024 < count x ∨ (x.active 0 ∧ x.active 1) then .error excILLEGAL
  else if 2 ^ 18 ≤ x.pc + 4 * len then .error excFETCH
  else
    let l := if x.active 0 then 1 else 0
    let y := ((x.wrSoon (locX (32 + l)) (count x)).wrSoon (locX (34 + 2 * l)) (x.pc + 4)).wrSoon (locX (35 + 2 * l)) (x.pc + 4 * len)
    .ok { y with level := if x.active 0 then 1 else 0, inner := if x.inBlock then some x.pc else none }

/-- RPTB. -/
def opRptb (len count : Nat) : EngOp := opRptbN len (fun _ => count)

/-- RPTBR. -/
def opRptbr (len s : Nat) : EngOp := opRptbN len (fun x => x.g s)

/-- NOP. -/
def opNop : EngOp := pureOp fun x => .ok x

/-- An undefined encoding. -/
def opIllegal : EngOp := pureOp fun _ => .error excILLEGAL

/-! ### Instruction words (R354 to R356) -/

/-- A format M operand of a word. -/
def wordM (w : Nat) : MemOp := { k := Fin.ofNat 8 (bits w 18 3), am := Fin.ofNat 4 (bits w 16 2), off := BitVec.ofNat 13 w }

/-- The fields of format P of a word. -/
def wordP (w : Nat) : MacP :=
  { a := Fin.ofNat 4 (bits w 24 2), i := Fin.ofNat 8 (bits w 21 3), mi := Fin.ofNat 4 (bits w 19 2), j := Fin.ofNat 8 (bits w 16 3), mj := Fin.ofNat 4 (bits w 14 2),
    sub := bits w 13 1 = 1, clr := bits w 12 1 = 1, bcx := bits w 11 1 = 1, bcy := bits w 10 1 = 1, ux := bits w 9 1 = 1, uy := bits w 8 1 = 1 }

/-- The fields of format Q of a word. -/
def wordQ (w : Nat) : MacQ :=
  { a := Fin.ofNat 4 (bits w 24 2), s := Fin.ofNat 32 (bits w 19 5), t := Fin.ofNat 32 (bits w 14 5),
    sub := bits w 13 1 = 1, clr := bits w 12 1 = 1, bcx := bits w 11 1 = 1, bcy := bits w 10 1 = 1, ux := bits w 9 1 = 1, uy := bits w 8 1 = 1 }

/-- An instruction that may stand anywhere, its unused fields 0. -/
def plainOp (zero : Bool) (op : EngOp) : Option (Rule × EngOp) := if zero then some (.free, op) else none

/-- An instruction that R333 names. -/
def neverOp (zero : Bool) (op : EngOp) : Option (Rule × EngOp) := if zero then some (.never, op) else none

/-- The register ALU group (R361, R374). -/
def wordAlu (w : Nat) : Option (Rule × EngOp) :=
  let d := bits w 21 5
  let s := bits w 16 5
  let t := bits w 11 5
  let sh := bits w 6 5
  let rr := fun (f : Nat → Nat → Nat → EngOp) => plainOp (sh = 0) (f d s t)
  let rs := fun (f : Nat → Nat → Nat → EngOp) => plainOp (t = 0) (f d s sh)
  let r1 := fun (f : Nat → Nat → EngOp) => plainOp (t = 0 && sh = 0) (f d s)
  match bits w 0 6 with
  | 0x00 => rr opAdd | 0x01 => rr opSub | 0x02 => rr opAnd | 0x03 => rr opOr | 0x04 => rr opXor
  | 0x05 => rr opSll | 0x06 => rr opSrl | 0x07 => rr opSra | 0x08 => rs opSlli | 0x09 => rs opSrli | 0x0A => rs opSrai
  | 0x0B => rr opMulh | 0x0C => rr opMin | 0x0D => rr opMax | 0x0E => r1 opAbs | 0x0F => r1 opNorm
  | 0x10 => rr opSlt | 0x11 => rr opSltu | 0x12 => r1 opSat16 | 0x13 => r1 opBswap
  | 0x20 => rr opVadd | 0x21 => rr opVsub | 0x22 => rr opVadds | 0x23 => rr opVsubs
  | 0x24 => rs opVsll | 0x25 => rs opVsrl | 0x26 => rs opVsra | 0x27 => rr opVmin | 0x28 => rr opVmax | 0x29 => r1 opVabs
  | 0x2A => plainOp (d = 0 && t = 0 && sh = 0) (opBexpV s)
  | 0x2B => plainOp (t = 0 && sh = 0) (opScalebVr d s 0)
  | 0x2C => plainOp (t = 0) (opScalebVr d s sh)
  | 0x2D => plainOp (bits w 6 20 = 0) opBxrst
  | _ => none

/-- The accumulator group (R372, R374). -/
def wordAcc (w : Nat) : Option (Rule × EngOp) :=
  let a := bits w 24 2
  let k := bits w 21 3
  let am := bits w 19 2
  let g := bits w 14 5
  let sh := bits w 8 6
  let z := bits w 7 1
  let l := bits w 5 2
  if bits w 4 1 ≠ 0 then none else
  match bits w 0 4 with
  | 0 => plainOp (g = 0 && l = 0) (opSacc a k am sh (z = 1))
  | 1 => plainOp (k = 0 && am = 0 && l = 0) (opPack g a sh (z = 1))
  | 2 => plainOp (bits w 5 19 = 0) (opClra a)
  | 3 => plainOp (k = 0 && am = 0 && sh = 0 && z = 0) (opAccr g a l)
  | 4 => plainOp (k = 0 && am = 0 && sh = 0 && z = 0) (opAccrh g a l)
  | 5 => plainOp (k = 0 && am = 0 && sh = 0 && z = 0) (opAccw a l g)
  | 6 => plainOp (bits w 5 19 = 0) (opBexpA a)
  | 7 => plainOp (bits w 5 19 = 0) (opScalebAr a 0)
  | 8 => plainOp (bits w 14 10 = 0 && bits w 5 3 = 0) (opScalebAr a sh)
  | _ => none

/-- The bit-field register group (R376). -/
def wordBit (w : Nat) : Option (Rule × EngOp) :=
  let d := bits w 21 5
  let s := bits w 16 5
  let t := bits w 11 5
  let sh := bits w 6 5
  match bits w 0 6 with
  | 0 => plainOp (sh = 0) (opExtur d s t) | 1 => plainOp (sh = 0) (opExtsr d s t) | 2 => plainOp (sh = 0) (opInsr d s t)
  | 3 => plainOp (t = 0 && sh = 0) (opClz d s) | 4 => plainOp (t = 0 && sh = 0) (opPopc d s) | 5 => plainOp (t = 0 && sh = 0) (opBrev d s)
  | 6 => plainOp true (opShld d s t sh)
  | _ => none

/-- Branches and repeats (R365, R367). -/
def wordCtl (op w : Nat) : Option (Rule × EngOp) :=
  let s := bits w 21 5
  let off := BitVec.ofNat 16 w
  match op with
  | 0x10 => neverOp (s = 0 && bits w 16 1 = 0) (opB (bits w 17 4) off)
  | 0x11 => neverOp (bits w 16 5 = 0) (opBz s off)
  | 0x12 => neverOp (bits w 16 5 = 0) (opBnz s off)
  | 0x13 => neverOp (bits w 16 10 = 0) (opJ off)
  | 0x14 => neverOp (bits w 16 10 = 0) (opCall off)
  | 0x15 =>
    let r := bits w 16 5
    if bits w 21 5 ≠ 0 || bits w 6 10 ≠ 0 then none else
    (match bits w 0 6 with
     | 0 => neverOp true (opJr r) | 1 => neverOp true (opCallr r) | 2 => neverOp (r = 0) opReti | _ => none)
  | 0x18 => neverOp (bits w 0 16 = 0) (opRpt (bits w 16 10 + 1))
  | 0x19 => neverOp (bits w 0 21 = 0) (opRptr s)
  | 0x1A => if bits w 0 5 = 0 then some (.block, opRptb (bits w 16 10 + 1) (bits w 5 11)) else none
  | 0x1B => if bits w 0 11 = 0 then some (.block, opRptbr (bits w 16 10 + 1) (bits w 11 5)) else none
  | _ => none

/-- Far accesses and the task's end (R379, R380). -/
def wordFar (op w : Nat) : Option (Rule × EngOp) :=
  let d := bits w 21 5
  let s := bits w 16 5
  match op with
  | 0x30 => neverOp (bits w 0 5 = 0) (opXfer d (bits w 18 3) (bits w 15 3) (bits w 14 1 = 1) (bits w 5 9))
  | 0x31 => neverOp (bits w 18 3 = 0 && bits w 0 15 = 0) (opWait d (bits w 15 3))
  | 0x32 => neverOp true (opLl d s (BitVec.ofNat 16 w))
  | 0x33 => neverOp true (opSc d s (bits w 11 5) (BitVec.ofNat 11 w))
  | 0x34 => neverOp (bits w 0 12 = 0) (opSend (bits w 15 6) d (bits w 12 3))
  | 0x35 => plainOp (bits w 0 16 = 0) (opStim s d)
  | 0x36 => neverOp (bits w 0 21 = 0) (opHalt d)
  | _ => none

/-- The instruction that a word spells, with the places it may stand; none for an undefined encoding. Values that a meaning itself answers with ILLEGAL count as
defined here. -/
def wordOp (w : Nat) : Option (Rule × EngOp) :=
  let op := bits w 26 6
  let d := bits w 21 5
  let s := bits w 16 5
  let imm := BitVec.ofNat 16 w
  match op with
  | 0x01 => wordAlu w
  | 0x02 => plainOp true (opAddi d s imm) | 0x03 => plainOp true (opAndi d s imm) | 0x04 => plainOp true (opOri d s imm)
  | 0x05 => plainOp true (opXori d s imm) | 0x06 => plainOp true (opLui d s imm) | 0x07 => plainOp true (opSlti d s imm)
  | 0x08 => plainOp true (opLd d (wordM w) (bits w 14 2) (bits w 13 1 = 1) false)
  | 0x09 => plainOp (bits w 13 1 = 0) (opSt d (wordM w) (bits w 14 2))
  | 0x0A => plainOp (bits w 13 3 = 0) (opLds d (wordM w) false)
  | 0x0B => plainOp (bits w 13 3 = 0) (opSts d (wordM w))
  | 0x0C =>
    let x := bits w 15 6
    if bits w 0 14 ≠ 0 then none else if bits w 14 1 = 0 then some (if 32 ≤ x ∧ x < 38 then .noLoop else .free, opMovs d x) else plainOp true (opMovg d x)
  | 0x20 => plainOp (bits w 0 8 = 0) (opVmac (wordP w) false)
  | 0x21 => plainOp (bits w 0 8 = 0) (opTapm (wordP w) false)
  | 0x22 => plainOp (bits w 0 8 = 0) (opVmacr (wordQ w))
  | 0x23 => wordAcc w
  | 0x24 => plainOp (d = 0 && bits w 14 2 = 2 && bits w 13 1 = 0) (opBexpM (wordM w) false)
  | 0x28 => wordBit w
  | 0x29 =>
    let pos := bits w 11 5
    let wm1 := bits w 6 5
    (match bits w 0 6 with
     | 0 => plainOp true (opExtu d s pos wm1) | 1 => plainOp true (opExts d s pos wm1) | 2 => plainOp true (opIns d s pos wm1) | _ => none)
  | 0x2A => plainOp (bits w 0 8 = 0) (opPutb d s (bits w 11 5) (bits w 8 3))
  | 0x2B => plainOp (bits w 0 8 = 0) (opGetb d s (bits w 11 5) (bits w 8 3) false)
  | 0x3F => plainOp (w = 0xFC000000) opNop
  | _ => if op < 0x20 then wordCtl op w else wordFar op w

/-! ### The commands -/

/-- B: one issue of it on engine e. -/
def execB (e : Fin 1024) (cond : Fin 16) (off : BitVec 16) (s : State) : Result := s.runOp e .never (opB cond.val off)

/-- BZ: one issue of it on engine e. -/
def execBz (e : Fin 1024) (s : Fin 32) (off : BitVec 16) (st : State) : Result := st.runOp e .never (opBz s.val off)

/-- BNZ: one issue of it on engine e. -/
def execBnz (e : Fin 1024) (s : Fin 32) (off : BitVec 16) (st : State) : Result := st.runOp e .never (opBnz s.val off)

/-- J: one issue of it on engine e. -/
def execJ (e : Fin 1024) (off : BitVec 16) (s : State) : Result := s.runOp e .never (opJ off)

/-- CALL: one issue of it on engine e. -/
def execCall (e : Fin 1024) (off : BitVec 16) (s : State) : Result := s.runOp e .never (opCall off)

/-- JR: one issue of it on engine e. -/
def execJr (e : Fin 1024) (s : Fin 32) (st : State) : Result := st.runOp e .never (opJr s.val)

/-- CALLR: one issue of it on engine e. -/
def execCallr (e : Fin 1024) (s : Fin 32) (st : State) : Result := st.runOp e .never (opCallr s.val)

/-- RETI: one issue of it on engine e. -/
def execReti (e : Fin 1024) (s : State) : Result := s.runOp e .never opReti

/-- RPT with its encoded field n − 1: one issue of it on engine e. -/
def execRpt (e : Fin 1024) (n : Fin 1024) (s : State) : Result := s.runOp e .never (opRpt (n.val + 1))

/-- RPTR: one issue of it on engine e. -/
def execRptr (e : Fin 1024) (s : Fin 32) (st : State) : Result := st.runOp e .never (opRptr s.val)

/-- RPTB with its encoded field len − 1: one issue of it on engine e. -/
def execRptb (e : Fin 1024) (len : Fin 1024) (count : Fin 2048) (s : State) : Result := s.runOp e .block (opRptb (len.val + 1) count.val)

/-- RPTBR with its encoded field len − 1: one issue of it on engine e. -/
def execRptbr (e : Fin 1024) (len : Fin 1024) (s : Fin 32) (st : State) : Result := st.runOp e .block (opRptbr (len.val + 1) s.val)

/-- NOP: one issue of it on engine e. -/
def execNopInstruction (e : Fin 1024) (s : State) : Result := s.runOp e .free opNop

/-- UNDEFINED_ENCODING (R354): a word that spells no instruction raises ILLEGAL; a word that spells one changes nothing here. -/
def execUndefinedEncoding (e : Fin 1024) (word : BitVec 32) (s : State) : Result := s.act fun d =>
  if (wordOp word.toNat).isNone then d.run e.val .free opIllegal else d

end Sys2Proof.Machine
end

