-- ==== Sys2Proof/Machine/DevMem.lean ====
section
/-! DEFINITION. Reads and writes of device memory by address: HBM under its key ID, and the pack windows (R321). Log entries: DESIGN CHOICE 6. -/

namespace Sys2Proof.Machine

/-- What a pack answers before it looks at the offset: DOMOFF while its domain is closing or off. -/
def Dev.packUp (d : Dev) (p : Nat) : Bool := !(d.dieOff (p / 8) || d.domShut (.pack (Fin.ofNat 32 p)))

/-- Whether an engine's local memory can be reached from outside (R321): idle, halted or failed. -/
def Dev.localOpen (d : Dev) (e : Nat) : Bool := d.engState e = 0 || d.engState e = 3 || d.engState e = 4

/-- Read n bytes at an offset of a pack's window. -/
def Dev.packRead (d : Dev) (p o n : Nat) : Resp × List Byte :=
  let x := d.packOf p
  if !d.packUp p then (.domoff, [])
  else if o + n ≤ 0x100000 then
    ((if x.bad.any (fun w => decide (o < 8 * w + 8) && decide (8 * w < o + n)) then .poison else .done),
     (List.range n).map (fun i => Tbl.get 0#8 x.pm (o + i)))
  else if 0x100000 ≤ o && decide (o + n ≤ 0x140000) then (.done, (List.range n).map (fun i => Tbl.get 0#8 x.imem (o - 0x100000 + i)))
  else if 0x400000 ≤ o && decide (o + n ≤ 0x600000) && decide ((o - 0x400000) / 65536 = (o + n - 1 - 0x400000) / 65536) then
    let e := p * 32 + (o - 0x400000) / 65536
    if d.localOpen e then (.done, (List.range n).map (fun i => Tbl.get 0#8 (d.eng e).mem (o % 65536 + i))) else (.reject, [])
  else (.fault, [])

/-- Write bytes, each with its offset in the pack's window, for an access of n bytes at o. `by_` is the engine that writes, if one does. -/
def Dev.packWrite (d : Dev) (p : Nat) (by_ : Option Nat) (o n : Nat) (bytes : List (Nat × Byte)) : Resp × Dev :=
  let x := d.packOf p
  if !d.packUp p then (.domoff, d)
  else if o + n ≤ 0x100000 then
    (.done, bytes.foldl (fun (d : Dev) (e : Nat × Byte) => d.pmWrite p by_ e.1 [e.2]) d)
  else if 0x100000 ≤ o && decide (o + n ≤ 0x140000) then
    if d.flag F.PK_IMEM_CTL_open { die := p / 8, u := p % 8 } then
      (.done, d.setPack p { x with imem := bytes.foldl (fun (m : Tbl Byte) (e : Nat × Byte) => m.set 0#8 (e.1 - 0x100000) e.2) x.imem })
    else (.reject, d)
  else if 0x400000 ≤ o && decide (o + n ≤ 0x600000) && decide ((o - 0x400000) / 65536 = (o + n - 1 - 0x400000) / 65536) then
    let e := p * 32 + (o - 0x400000) / 65536
    let y := d.eng e
    if d.localOpen e then (.done, d.setEng e { y with mem := bytes.foldl (fun (m : Tbl Byte) (b : Nat × Byte) => m.set 0#8 (b.1 % 65536) b.2) y.mem })
    else (.reject, d)
  else (.fault, d)

/-- The first device address of the pack windows. -/
def packBase : Nat := 0x8000000000

/-- Read n bytes at a device address: none where it is no memory of the device. -/
def Dev.devRead (d : Dev) (key addr n : Nat) : Option (Resp × List Byte × Dev) :=
  if addr < 8 * stackBytes then some (d.memRead key addr n)
  else if packBase ≤ addr && decide (addr < packBase + 32 * 0x1000000) then
    let (r, l) := d.packRead ((addr - packBase) / 0x1000000) ((addr - packBase) % 0x1000000) n
    some (r, l, d)
  else none

/-- Write bytes, each with its device address, for an access of n bytes at addr: none where it is no memory of the device. -/
def Dev.devWrite (d : Dev) (by_ : Option Nat) (key addr n : Nat) (bytes : List (Nat × Byte)) (poison : Bool) : Option (Resp × Dev) :=
  if addr < 8 * stackBytes then some (d.memWrite key addr n bytes poison)
  else if packBase ≤ addr && decide (addr < packBase + 32 * 0x1000000) then
    some (d.packWrite ((addr - packBase) / 0x1000000) by_ ((addr - packBase) % 0x1000000) n (bytes.map (fun e => (e.1 - addr + (addr - packBase) % 0x1000000, e.2))))
  else none

/-- Consecutive bytes with their addresses. -/
def placeBytes (addr : Nat) (l : List Byte) : List (Nat × Byte) := l.zipIdx.map (fun e => (addr + e.2, e.1))

end Sys2Proof.Machine
end

