-- ==== Sys2Proof/Machine/Kennel.lean ====
section
/-! DEFINITION. The Kennel task scheduler (R382 to R414): descriptors, releases, decisions, pre-emption, ticks, watchdogs, completions. Log entries: DEDUCED 19, 66, 70, 71. -/

namespace Sys2Proof.Machine

/-! ### Descriptors (R383, R384) -/

/-- The fields of a descriptor's 64 bytes. -/
def Desc.parse (l : List Byte) : Desc :=
  { entry := fieldAt l 0 4 % 2 ^ 18, restartable := bits (fieldAt l 4 2) 0 1 = 1, affValid := bits (fieldAt l 4 2) 1 1 = 1, noCompl := bits (fieldAt l 4 2) 2 1 = 1,
    affinity := fieldAt l 6 2 % 1024, arg := fieldAt l 8 8, wd := fieldAt l 0x10 3, cring := fieldAt l 0x14 1, cookie := fieldAt l 0x18 4,
    delay := fieldAt l 0x1C 3, period := fieldAt l 0x20 2, argCount := fieldAt l 0x22 2, argStep := fieldAt l 0x24 4, xbase := fieldAt l 0x28 1,
    xsize := fieldAt l 0x29 1, ybase := fieldAt l 0x2A 1, ysize := fieldAt l 0x2B 1 }

/-- Whether a reserved byte or bit is set. -/
def descReserved (l : List Byte) : Bool :=
  decide (2 ^ 18 ≤ fieldAt l 0 4) || decide (8 ≤ fieldAt l 4 2) || decide (1024 ≤ fieldAt l 6 2) || bits (fieldAt l 8 8) 48 8 ≠ 0 || decide (2 ^ 63 ≤ fieldAt l 8 8) ||
  fieldAt l 0x13 1 ≠ 0 || fieldAt l 0x15 3 ≠ 0 || fieldAt l 0x1F 1 ≠ 0 || (l.drop 0x2C).any (fun b => decide (b ≠ 0#8))

/-- The first fault of R384 in a descriptor of queue q; `plain` excepts the delay list and the store, which a template does not fill. -/
def Dev.descFault (d : Dev) (q : Nat) (l : List Byte) (plain : Bool) : Option Nat :=
  let x := Desc.parse l
  let b := q / 2048
  let owner := d.queueOwner b (q % 2048)
  let ring := Ix.on b x.cring
  if descReserved l then some 1
  else if x.entry % 4 ≠ 0 then some 2
  else if decide (31 < x.xbase) || decide (32 < x.xbase + x.xsize) || decide (31 < x.ybase) || decide (32 < x.ybase + x.ysize) || x.argCount = 0 ||
    x.argStep % 64 ≠ 0 then some 3
  else if !d.flag F.KEN_CR_CFG_enable ring || decide (d.rd F.KEN_CR_CFG_owner ring ≠ owner) then some 4
  else if x.affValid && decide (x.affinity / 256 ≠ b) then some 5
  else if (x.period ≠ 0 || (!plain && x.delay ≠ 0)) && decide (16384 ≤ (Tbl.get [] d.ken.delay b).length) then some 6
  else if !d.keyInPart owner (bits x.arg 56 7) then some 7
  else if !plain && decide (8192 ≤ d.kenStored b) && !d.flag F.KEN_CFG_spill_en (Ix.onDie b) then some 9
  else none

/-- A REJECTED record to the queue's `err_ring`. -/
def Dev.rejectDesc (d : Dev) (q cookie detail : Nat) : Dev :=
  let d := d.bump F.KEN_QCNT_bad_desc (qIx q)
  d.queueRec (q / 2048 * 256 + d.rd F.KEN_QSQ_err_ring (qIx q))
    { words := d.recWords cookie 0 stREJECTED detail q none 0 0 0 0 0, eng := none, token := false, q := q }

/-- The 64 bytes of slot n of a queue's submission ring; none where the read returns a code other than DONE. -/
def Dev.ringSlot (d : Dev) (q n : Nat) : Option (List Byte) × Dev :=
  let a := qIx q
  match d.devRead (d.rd F.KEN_QSQ_key_id a) ((d.rd F.KEN_QSQ_sq_base a + n % 2 ^ d.rd F.KEN_QSQ_depth_log2 a) * 64) 64 with
  | some (.done, l, d) => (some l, d)
  | some (_, _, d) => (none, d)
  | none => (none, d)

/-- A task of release n of a descriptor. -/
def Dev.newTask (d : Dev) (q : Nat) (x : Desc) (n : Nat) (aff : Option Nat) (src : Option Nat) : Task :=
  { id := d.ken.nextId, q := q, desc := x, rel := n, aff := aff, budget := x.wd, readyAt := d.root, waitFrom := d.root, since := d.root, ran := 0, waited := 0,
    started := false, reruns := 0, stolen := false, cross := false, preempted := false, held := false, spilled := false, slot := none, phase := .runs, src := src,
    xq := [], level := 0, inner := none }

/-- Number the next acceptance. -/
def Dev.nextId (d : Dev) : Dev := { d with ken := { d.ken with nextId := d.ken.nextId + 1 } }

/-- The affinity a descriptor names. -/
def Desc.aff (x : Desc) : Option Nat := if x.affValid then some x.affinity else none

/-- The tick source of a queue. -/
def Dev.tickIx (d : Dev) (q : Nat) : Ix := Ix.on (q / 2048) (d.rd F.KEN_QCFG_tick_sel (qIx q))

/-- Put an entry in its base die's delay list. -/
def Dev.addDelay (d : Dev) (e : DelayEnt) : Dev := { d with ken := { d.ken with delay := d.ken.delay.modify [] (e.q / 2048) (· ++ [e]) } }

/-- The delay-list entry of a descriptor at its acceptance (R399). -/
def Dev.delayEntry (d : Dev) (q : Nat) (x : Desc) (tmpl : Bool) : DelayEnt :=
  { id := d.ken.nextId, q := q, desc := x, due := (d.rd F.KEN_TICK_CNT_count (d.tickIx q) + max 1 x.delay) % 2 ^ 32, next := 0, aff := x.aff,
    periodic := decide (x.period ≠ 0), tmpl := tmpl }

/-- Whether base die b's Kennel works (R413). -/
def Dev.kenRuns (d : Dev) (b : Nat) : Bool := d.fab.step9 && d.mode.engines && !d.dieOff b

/-- DESCRIPTOR_ACCEPT (R384, R385): the Kennel takes the next descriptor of a queue's ring; `storeErr` says that the stored copy has an uncorrectable error. -/
def execDescriptorAccept (q : Fin 8192) (storeErr : Bool) (s : State) : Result := s.act fun d =>
  let q := q.val
  let a := qIx q
  if !d.kenRuns (q / 2048) || !d.flag F.KEN_QCFG_enable a || d.flag F.KEN_QCFG_tmpl a || d.rd F.KEN_QPTR_head a = d.rd F.KEN_QDB_total a || !d.tokenLeft q then d else
  let (l, d) := d.ringSlot q (d.rd F.KEN_QPTR_head a)
  let d := d.addWrap F.KEN_QPTR_head a
  match l with
  | none => d.rejectDesc q 0 8
  | some l =>
    let x := Desc.parse l
    if storeErr then d.rejectDesc q x.cookie 8 else
    match d.descFault q l false with
    | some code => d.rejectDesc q x.cookie code
    | none =>
      let d := d.takeToken q
      if x.delay = 0 && x.period = 0 then (d.toTail (d.newTask q x 0 x.aff none)).nextId
      else (d.addDelay (d.delayEntry q x false)).nextId

/-! ### Releases (R386, R399, R400) -/

/-- The template of a queue. -/
def Dev.tmplOf (d : Dev) (q : Nat) : Option Tmpl := Tbl.get none d.ken.tmpl q

/-- Set it. -/
def Dev.setTmpl (d : Dev) (q : Nat) (t : Option Tmpl) : Dev := { d with ken := { d.ken with tmpl := d.ken.tmpl.set none q t } }

/-- A release event at a queue: a copy of its template, or `missed` when its tokens are used up; elsewhere it is ignored and counted. -/
def Dev.releaseEvent (d : Dev) (q : Nat) : Dev :=
  let a := qIx q
  if !d.flag F.KEN_QCFG_tmpl a then d.bump F.KEN_QCNT_bad_db a
  else if !d.flag F.KEN_QCFG_enable a then d else
  match d.tmplOf q with
  | none => d
  | some t =>
    if !d.tokenLeft q then d.bump F.KEN_QCNT_missed a
    else
      let d := (d.takeToken q).setTmpl q (some { t with next := t.next + 1 })
      (d.toTail (d.newTask q t.desc t.next t.aff (some t.id))).nextId

/-- TEMPLATE_RELEASE. -/
def execTemplateRelease (q : Fin 8192) (s : State) : Result := s.act fun d =>
  if d.kenRuns (q.val / 2048) then d.releaseEvent q.val else d

/-- What a committed `enable` starts (R385, R386): fresh totals, and for a template queue the reading and checking of its template; the queue stays disabled
where the check fails. -/
def Dev.queueStart (d : Dev) (q : Nat) : Dev :=
  let a := qIx q
  let d := ((d.st F.KEN_QDB_total a 0).st F.KEN_QPTR_head a 0).st F.KEN_QPTR_done a 0
  let d := { d with ken := { d.ken with badTmpl := remove d.ken.badTmpl q } }
  if !d.flag F.KEN_QCFG_tmpl a then d else
  let (l, d) := d.ringSlot q 0
  let fault : Option (Nat × Nat) := match l with
    | none => some (0, 8)
    | some l => (d.descFault q l true).map (fun c => ((Desc.parse l).cookie, c))
  match fault, l with
  | some (cookie, code), _ =>
    let d := (d.st F.KEN_QCFG_enable a 0).rejectDesc q cookie code
    { d with ken := { d.ken with badTmpl := addNew d.ken.badTmpl q } }
  | none, some l =>
    let x := Desc.parse l
    let d := (d.setTmpl q (some { id := d.ken.nextId, desc := x, next := 0, aff := x.aff })).nextId
    d.on (x.period ≠ 0) (fun d => (d.addDelay (d.delayEntry q x true)).nextId)
  | none, none => d

/-- What a committed change of `KEN_QCFG` brings. -/
def Dev.queueSet (d : Dev) (a : Ix) (was : Bool) : Dev :=
  let q := a.die * 2048 + a.i
  let now := d.flag F.KEN_QCFG_enable a
  if now && !was then d.queueStart q
  else if was && !now then
    let d := d.setTmpl q none
    { d with ken := { d.ken with delay := d.ken.delay.modify [] a.die (fun l => l.filter (fun e => !(decide (e.q = q) && e.tmpl))) } }
  else d

/-- Remove an entry from its delay list. -/
def Dev.dropDelay (d : Dev) (e : DelayEnt) : Dev :=
  { d with ken := { d.ken with delay := d.ken.delay.modify [] (e.q / 2048) (fun l => l.filter (fun x => decide (x.id ≠ e.id))) } }

/-- Change an entry of a delay list. -/
def Dev.setDelay (d : Dev) (e : DelayEnt) : Dev :=
  { d with ken := { d.ken with delay := d.ken.delay.modify [] (e.q / 2048) (fun l => l.map (fun x => if x.id = e.id then e else x)) } }

/-- A due entry releases (R399, R400): a one-shot entry becomes a ready task; a periodic one takes a token for its release or skips it, and falls due again. -/
def Dev.releaseEntry (d : Dev) (e : DelayEnt) : Dev :=
  let again := { e with next := e.next + 1, due := (e.due + e.desc.period) % 2 ^ 32 }
  let d := d.count (e.q / 2048) 0 203 0 1
  if e.tmpl then (d.setDelay again).releaseEvent e.q
  else if !e.periodic then (d.dropDelay e).toTail { d.newTask e.q e.desc 0 e.aff none with id := e.id }
  else
    let d := d.setDelay again
    if !d.tokenLeft e.q || !d.flag F.KEN_QCFG_enable (qIx e.q) then d.bump F.KEN_QCNT_missed (qIx e.q)
    else ((d.takeToken e.q).toTail (d.newTask e.q e.desc e.next e.aff (some e.id))).nextId

/-- How long an entry has been due at count c, modulo 2^32. -/
def DelayEnt.age (e : DelayEnt) (c : Nat) : Nat := (c + 2 ^ 32 - e.due) % 2 ^ 32

/-- The order of due entries: due tick, priority number, acceptance order. -/
def Dev.dueBefore (d : Dev) (c : Nat) (x y : DelayEnt) : Bool :=
  decide (y.age c < x.age c) || (decide (x.age c = y.age c) && (decide (d.prio x.q < d.prio y.q) || (decide (d.prio x.q = d.prio y.q) && decide (x.id < y.id))))

/-- Insert in that order. -/
def insertDue (before : DelayEnt → DelayEnt → Bool) (e : DelayEnt) : List DelayEnt → List DelayEnt
  | [] => [e]
  | x :: r => if before e x then e :: x :: r else x :: insertDue before e r

/-- A tick of source t of base die b (R398 to R401): it counts, running tasks of its queues lose 1 of their budgets, due entries release. -/
def Dev.tick (d : Dev) (b t : Nat) : Dev :=
  let a := Ix.on b t
  let d := d.addWrap F.KEN_TICK_CNT_count a
  let uses := fun (q : Nat) => decide (q / 2048 = b) && decide (d.rd F.KEN_QCFG_tick_sel (qIx q) = t)
  let run := d.ken.run.map (fun e => (e.1, e.2.map (fun k => if uses k.q && d.taskRuns e.1 k then { k with budget := k.budget - 1 } else k)))
  let d := { d with ken := { d.ken with run := run } }
  let c := d.rd F.KEN_TICK_CNT_count a
  let due := ((Tbl.get [] d.ken.delay b).filter (fun (e : DelayEnt) => uses e.q && decide (e.age c < 2 ^ 31))).foldl (fun l e => insertDue (d.dueBefore c) e l) []
  due.foldl (fun (d : Dev) (e : DelayEnt) => d.releaseEntry e) d

/-- KENNEL_TICK. In EMBER the Kennel takes no events of cadence generators, and a source that runs on an interval only counts (R59, R410). -/
def execKennelTick (b t : Fin 4) (s : State) : Result := s.act fun d =>
  let a := Ix.on b.val t.val
  let m := d.rd F.KEN_TICK_mode a
  if m = 0 then d
  else if d.mode == .ember then (if m = 1 && !d.dieOff b.val then d.addWrap F.KEN_TICK_CNT_count a else d)
  else if !d.kenRuns b.val then d else d.tick b.val t.val

/-! ### Decisions (R389 to R393) -/

/-- Whether an engine takes a dispatch (R353, R390): idle, in the pool of a pack that accepts, with no transfer of its last task still busy. -/
def Dev.engFree (d : Dev) (e : Nat) : Bool :=
  let a := engIx e
  d.engState e = 0 && !d.en.out.contains e && d.flag F.PK_CFG_accept a && !d.flag F.PK_IMEM_CTL_open a && (d.eng e).xq.all (fun x => decide (x.2 ≠ 1)) &&
  d.packUp (e / 32) && (d.taskOn e).isNone

/-- Free engines of a pack, lowest first. -/
def Dev.freeOf (d : Dev) (p : Nat) : List Nat := (List.range 32).filterMap (fun i => if d.engFree (p * 32 + i) then some (p * 32 + i) else none)

/-- Whether a lane decides for pack h of base die b: its own, or the spare for it (R407). -/
def Dev.laneServes (d : Dev) (b h : Nat) : Bool :=
  bits (d.rd F.KEN_STATUS_lane_up (Ix.onDie b)) h 1 = 1 ||
  (decide (Tbl.get none d.ken.standIn b = some h) && bits (d.rd F.KEN_STATUS_lane_up (Ix.onDie b)) 8 1 = 1)

/-- Queues homed at a pack that have a task of a kind: priority, queue, the first such task. -/
def Dev.offers (d : Dev) (p : Nat) (ok : Task → Bool) : List (Nat × Nat × Task) :=
  d.ken.ready.filterMap (fun e =>
    let a := qIx e.1
    if decide (e.1 / 2048 = p / 8) && decide (d.rd F.KEN_QCFG_home a = p % 8) && d.flag F.KEN_QCFG_enable a then
      (e.2.find? (fun t => !t.spilled && ok t)).map (fun t => (d.prio e.1, e.1, t))
    else none)

/-- R389: the lowest priority number first, and in round robin after the queue served last among its queues. -/
def Dev.firstOf (d : Dev) (p : Nat) (l : List (Nat × Nat × Task)) : Option Task :=
  match l.foldl (fun (m : Option Nat) x => some (match m with | none => x.1 | some k => min k x.1)) none with
  | none => none
  | some pr =>
    let c := l.filter (fun x => decide (x.1 = pr))
    match Tbl.get 0 d.ken.rr (p * 16 + pr) with
    | 0 => (c.head?).map (fun x => x.2.2)
    | last + 1 => match c.find? (fun x => decide (last < x.2.1)) with
      | some x => some x.2.2
      | none => (c.head?).map (fun x => x.2.2)

/-- A task is stealable (R392). -/
def Dev.stealable (d : Dev) (t : Task) : Bool :=
  !d.flag F.KEN_QCFG_pinned (qIx t.q) && decide (d.rd F.KEN_QCFG_steal_after (qIx t.q) ≤ engCycles (d.root - t.readyAt)) && !t.held

/-- Packs of a base die by distance from pack h of it. -/
def stealOrder (h : Nat) : List Nat :=
  (List.range 7).flatMap (fun k => (if k + 1 ≤ h then [h - (k + 1)] else []) ++ (if h + (k + 1) < 8 then [h + (k + 1)] else []))

/-- The most urgent stealable task of the first pack in order that has one. -/
def Dev.stealFrom (d : Dev) (b : Nat) (packs : List Nat) (cross : Bool) : Option Task :=
  packs.findSome? (fun h => d.firstOf (8 * b + h) (d.offers (8 * b + h) (fun t => d.stealable t && (!cross || d.flag F.KEN_QCFG_cross_die (qIx t.q)))))

/-- Take a task out of its queue. -/
def Dev.unqueue (d : Dev) (t : Task) : Dev := d.setQueue t.q ((d.queue t.q).filter (fun x => decide (x.id ≠ t.id)))

/-- Remember the engine for the next release of the task's entry or template (R391). -/
def Dev.entryAff (d : Dev) (t : Task) (e : Nat) : Dev :=
  match t.src with
  | none => d
  | some i =>
    let d := { d with ken := { d.ken with delay := d.ken.delay.modify [] (t.q / 2048) (fun l => l.map (fun (x : DelayEnt) => if x.id = i then { x with aff := some e } else x)) } }
    match d.tmplOf t.q with
    | some m => if m.id = i then d.setTmpl t.q (some { m with aff := some e }) else d
    | none => d

/-- The windows of a descriptor in bytes. -/
def EngSt.windows (x : EngSt) (c : Desc) : EngSt :=
  { x with xb := c.xbase * 1024, xs := c.xsize * 1024, yb := c.ybase * 1024, ys := c.ysize * 1024 }

/-- The registers at the fresh start of a task (R329). -/
def EngSt.start (x : EngSt) (t : Task) (fn : Nat) : EngSt :=
  let p := t.desc.arg % 2 ^ 48 + t.rel % t.desc.argCount * t.desc.argStep
  let arg := p % 2 ^ 48 + bits t.desc.arg 56 7 * 2 ^ 56
  let zero := fun (m : Tbl Byte) => m.filter (fun e => !((decide (t.desc.xbase * 1024 ≤ e.1) && decide (e.1 < (t.desc.xbase + t.desc.xsize) * 1024)) ||
    (decide (0x8000 + t.desc.ybase * 1024 ≤ e.1) && decide (e.1 < 0x8000 + (t.desc.ybase + t.desc.ysize) * 1024))))
  let mem := match x.lastFn with
    | some f => if f = fn then x.mem else zero x.mem
    | none => x.mem
  let regs : Tbl Nat := [(1, arg % 2 ^ 32), (2, arg / 2 ^ 32), (3, t.q), (locBX, 47), (locIE, 1)].filter (fun e => decide (e.2 ≠ 0))
  ({ EngSt.fresh with regs := regs, mem := mem, pc := t.desc.entry, excHalt := x.excHalt, lastFn := some fn }).windows t.desc

/-- A task goes to an engine: fresh, or as a saved task that the engine first restores. -/
def Dev.dispatch (d : Dev) (t : Task) (e kind reason : Nat) : Dev :=
  let p := e / 32
  let a := engIx e
  let wait := engCycles (d.root - t.readyAt)
  let d := (d.unqueue t).decision (if kind = 0 && t.slot.isSome then 3 else kind) t.q e reason wait
  let d := { d with ken := { d.ken with rr := d.ken.rr.set 0 (p * 16 + d.prio t.q) (t.q + 1), pre := d.ken.pre.set none e none } }
  let h := { qIx t.q with j := latencyBin ((d.root - t.waitFrom) * 5 / 16) }
  let d := d.on (!t.started) (fun d => d.addWrap F.KEN_QHIST_count h)
  let t' := { t with aff := some e, since := d.root, held := false, started := true, waited := if t.started then t.waited else engCycles (d.root - t.waitFrom),
                     phase := if t.slot.isSome then .restoring else .runs }
  let d := ((d.setTask e (some t')).entryAff t e).addWrap F.KEN_ENG_DISP_dispatches (Ix.on a.die (e % 256))
  let d := (d.st F.PK_ENG_STAT_queue a t.q).count a.die 0 200 a.u 1
  if t.slot.isSome then d.setEngState e 2
  else (d.setEng e ((d.eng e).start t' (d.queueOwner (t.q / 2048) (t.q % 2048)))).setEngState e 1

/-- The engine choice of R390 for a task that lane h decides on. -/
def Dev.placeTask (d : Dev) (p : Nat) (t : Task) (kind reason : Nat) : Dev :=
  let low := d.freeOf p
  let go := fun (why : Nat) => match low with
    | e :: _ => d.dispatch t e kind (if kind = 1 then reason else why)
    | [] => d
  match t.aff with
  | some e =>
    if e / 32 ≠ p then go 2
    else if d.engFree e then d.dispatch t e kind (if kind = 1 then reason else 0)
    else if decide (0 < d.rd F.KEN_QCFG_patience (qIx t.q)) && decide (kind = 0) then
      d.setQueue t.q ((d.queue t.q).map (fun x => if x.id = t.id then { x with held := true } else x))
    else go 1
  | none => go 2

/-- A task that an engine's pre-emption was for, if it still waits. -/
def Dev.claimant (d : Dev) (e : Nat) : Option Task :=
  match Tbl.get none d.ken.pre e with
  | none => none
  | some i => d.ken.ready.findSome? (fun q => q.2.find? (fun t => decide (t.id = i)))

/-- Tasks of a pack's queues held for an engine that is free now. -/
def Dev.heldReady (d : Dev) (p : Nat) : Option Task :=
  d.firstOf p (d.offers p (fun t => t.held && (match t.aff with | some e => d.engFree e | none => false)))

/-- One decision of the lane of a pack. -/
def Dev.decide_ (d : Dev) (b h : Nat) : Dev :=
  let p := 8 * b + h
  match d.freeOf p with
  | [] => d
  | free =>
    match free.findSome? (fun e => (d.claimant e).map (fun t => (e, t))) with
    | some (e, t) => d.dispatch t e 0 2
    | none =>
      match d.heldReady p with
      | some t => d.placeTask p t 0 0
      | none =>
        match d.firstOf p (d.offers p (fun t => !t.held)) with
        | some t => d.placeTask p t 0 0
        | none =>
          if !(d.offers p (fun t => t.held)).isEmpty then d else
          match d.stealFrom b (stealOrder h) false with
          | some t => ((d.setQueue t.q ((d.queue t.q).map (fun x => if x.id = t.id then { x with stolen := true } else x))).placeTask p { t with stolen := true } 1 3).count
              b 0 201 h 1
          | none => d

/-- DISPATCH_DECISION. -/
def execDispatchDecision (b : Fin 4) (h : Fin 8) (s : State) : Result := s.act fun d =>
  if d.kenRuns b.val && d.laneServes b.val h.val then d.decide_ b.val h.val else d

/-- PATIENCE_EXPIRED (R390): the first held task of a queue goes to the lowest free engine, or waits without affinity. -/
def execPatienceExpired (q : Fin 8192) (s : State) : Result := s.act fun d =>
  let q := q.val
  if !d.kenRuns (q / 2048) then d else
  match (d.queue q).find? (fun t => t.held) with
  | none => d
  | some t =>
    let p := 8 * (q / 2048) + d.rd F.KEN_QCFG_home (qIx q)
    let t := { t with held := false, aff := none }
    let d := d.setQueue q ((d.queue q).map (fun x => if x.id = t.id then t else x))
    match d.freeOf p with
    | e :: _ => d.dispatch t e 0 1
    | [] => d

/-- CROSS_DIE_STEAL_REQUEST (R393): the horizontal neighbour, the vertical one, then the opposite base die. -/
def execCrossDieStealRequest (b : Fin 4) (h : Fin 8) (s : State) : Result := s.act fun d =>
  let p := 8 * b.val + h.val
  if !d.kenRuns b.val || !d.laneServes b.val h.val || (d.freeOf p).isEmpty || !(d.offers p (fun _ => true)).isEmpty ||
     (d.stealFrom b.val (stealOrder h.val) false).isSome then d
  else
    match [b.val ^^^ 1, b.val ^^^ 2, b.val ^^^ 3].findSome? (fun v => if d.kenRuns v then d.stealFrom v (h.val :: stealOrder h.val) true else none), d.freeOf p with
    | some t, e :: _ => (d.dispatch { t with stolen := true, cross := true } e 1 4).count b.val 0 201 h.val 1
    | _, _ => d

/-! ### Pre-emption (R395, R396) -/

/-- A free save slot of pack p in which a task's registers and windows fit. -/
def Dev.saveSlot (d : Dev) (p : Nat) (t : Task) : Option Nat :=
  let a := Ix.on (p / 8) (p % 8)
  if d.rd F.KEN_SAVE_slot_lines a * 64 < 512 + (t.desc.xsize + t.desc.ysize) * 1024 then none
  else (List.range (d.rd F.KEN_SAVE_slots a)).find? (fun i => !(d.slotsHeld p).contains i)

/-- The victim of R395 for a task of priority pr: the greatest priority number, the latest dispatched. -/
def Dev.victim (d : Dev) (p pr : Nat) : Option (Nat × Task × Nat) :=
  (List.range 32).foldl (fun (best : Option (Nat × Task × Nat)) (i : Nat) =>
    let e := p * 32 + i
    match d.taskOn e with
    | none => best
    | some t =>
      if d.engState e = 1 && d.rd F.PK_ENG_STAT_preempt_pending (engIx e) = 0 && d.flag F.KEN_QCFG_preemptible (qIx t.q) && decide (pr < d.prio t.q) then
        match d.saveSlot p t, best with
        | none, _ => best
        | some k, none => some (e, t, k)
        | some k, some b =>
          if decide (d.prio b.2.1.q < d.prio t.q) || (decide (d.prio b.2.1.q = d.prio t.q) && decide (b.2.1.since < t.since)) then some (e, t, k) else best
      else best) none

/-- PREEMPTION_START: the first ready preemptor task of a pack with no free engine, for which no engine saves yet, picks its victim. -/
def execPreemptionStart (b : Fin 4) (h : Fin 8) (s : State) : Result := s.act fun d =>
  let p := 8 * b.val + h.val
  if !d.kenRuns b.val || !d.laneServes b.val h.val || !(d.freeOf p).isEmpty then d else
  let claimed := d.ken.pre.filterMap (fun e => e.2)
  match d.firstOf p (d.offers p (fun t => !t.held && d.flag F.KEN_QCFG_preemptor (qIx t.q) && !claimed.contains t.id)) with
  | none => d
  | some t =>
    match d.victim p (d.prio t.q) with
    | none => d
    | some (e, v, k) =>
      let d := (d.setTask e (some { v with slot := some (p * 32 + k) })).st F.PK_ENG_STAT_preempt_pending (engIx e) 1
      let d := { d with ken := { d.ken with pre := d.ken.pre.set none e (some t.id) } }
      (d.count b.val 0 202 h.val 1).decision 2 t.q e 5 (engCycles (d.root - t.readyAt))

/-! ### Watchdog, completions (R401 to R405) -/

/-- WATCHDOG_EXPIRY: a task whose budget has run out is killed at its engine's next acceptance point, without the LL wait. -/
def execWatchdogExpiry (e : Fin 1024) (s : State) : Result := s.act fun d =>
  let e := e.val
  match d.taskOn e with
  | none => d
  | some t =>
    if t.desc.wd = 0 || t.budget ≠ 0 || d.engState e ≠ 1 || !(d.eng e).acceptance || !d.mode.engines then d else
    let d := (d.decision 5 t.q e 0 0).taskEnd e stWATCHDOG 0 0
    (d.engLeave e (d.eng e)).occur { die := e / 256, block := 6, inst := e % 256, cls := 12, sev := sevNote, detail := t.q }

/-- The first record of a ring whose engine has no busy tag, and the others. -/
def Dev.nextRec (d : Dev) : List ComplRec → Option (ComplRec × List ComplRec)
  | [] => none
  | r :: l =>
    if (match r.eng with | some e => (d.eng e).xq.all (fun x => decide (x.2 ≠ 1)) || (d.taskOn e).isSome | none => true) then some (r, l)
    else (d.nextRec l).map (fun x => (x.1, r :: x.2))

/-- COMPLETION_WRITE (R403, R405): once there is ring space the record is written, `KEN_CR_PROD` advances, the token returns, and the ring notifies. -/
def execCompletionWrite (b : Fin 4) (r : Fin 256) (s : State) : Result := s.act fun d =>
  let a := Ix.on b.val r.val
  let k := b.val * 256 + r.val
  let size := 2 ^ d.rd F.KEN_CR_BASE_size_log2 a
  let prod := d.rd F.KEN_CR_PROD_prod a
  if !d.flag F.KEN_CR_CFG_enable a || d.dieOff b.val || decide (size ≤ (prod + 2 ^ 32 - d.rd F.KEN_CR_CONS_cons a) % 2 ^ 32) then d else
  match d.nextRec (Tbl.get [] d.ken.waiting k) with
  | none => d
  | some (x, rest) =>
    let addr := d.rd F.KEN_CR_BASE_cr_base a + prod % size * 32
    let d := { d with ken := { d.ken with waiting := d.ken.waiting.set [] k rest } }
    let d := match d.devWrite none (d.rd F.KEN_CR_BASE_key_id a) addr 32 (wordBytes addr (x.words.map (BitVec.ofNat 64))) false with
      | some (_, d) => d
      | none => d
    let d := (d.addWrap F.KEN_CR_PROD_prod a).on x.token (fun d => d.endToken x.q)
    match d.rd F.KEN_CR_CFG_notify a with
    | 1 => d.emit (.hostIrq (d.rd F.KEN_CR_CFG_owner a) (d.rd F.KEN_CR_CFG_vec a))
    | 2 => d.releaseEvent (b.val * 2048 + d.rd F.KEN_CR_CFG_nq a)
    | _ => d

/-! ### Queue commands and failures (R388, R407 to R410) -/

/-- An entry as the task that its cancellation ends. -/
def Dev.cancelEntry (d : Dev) (e : DelayEnt) : Dev := (d.dropDelay e).complete { d.newTask e.q e.desc e.next e.aff none with id := e.id } stCANCELLED 0 0 none

/-- Cancel entries of a queue; a template's tick is not one. -/
def Dev.cancelEntries (d : Dev) (q : Nat) (all : Bool) : Dev :=
  ((Tbl.get [] d.ken.delay (q / 2048)).filter (fun e => decide (e.q = q) && !e.tmpl && (all || e.periodic))).foldl (fun (d : Dev) (e : DelayEnt) => d.cancelEntry e) d

/-- Flush a queue (R409). -/
def Dev.flushQueue (d : Dev) (q : Nat) : Dev :=
  let l := d.queue q
  let d := l.foldl (fun (d : Dev) (t : Task) => d.complete { t with slot := none } stCANCELLED 0 0 t.aff.toList.head?) (d.setQueue q [])
  d.cancelEntries q true

/-- The effect of a value of `KEN_QCMD`. -/
def Dev.qcmd (d : Dev) (q cmd : Nat) : Dev := if cmd = 1 then d.flushQueue q else if cmd = 2 then d.cancelEntries q false else d

/-- QCMD_FLUSH. -/
def execQcmdFlush (q : Fin 8192) (s : State) : Result := s.act fun d => if d.dieOff (q.val / 2048) then d else d.qcmd q.val 1

/-- QCMD_CANCEL_PERIODIC. -/
def execQcmdCancelPeriodic (q : Fin 8192) (s : State) : Result := s.act fun d => if d.dieOff (q.val / 2048) then d else d.qcmd q.val 2

/-- DISPATCH_LANE_TAKEOVER (R407): a lane that fails its comparison hands its pack to L8, if the spare is free. -/
def execDispatchLaneTakeover (b : Fin 4) (h : Fin 8) (s : State) : Result := s.act fun d =>
  let a := Ix.onDie b.val
  let up := d.rd F.KEN_STATUS_lane_up a
  if bits up h.val 1 = 0 then d else
  let d := d.st F.KEN_STATUS_lane_up a (up - 2 ^ h.val)
  let d := d.on (!d.flag F.KEN_STATUS_spare_busy a && bits up 8 1 = 1) (fun d =>
    { d.st F.KEN_STATUS_spare_busy a 1 with ken := { d.ken with standIn := d.ken.standIn.set none b.val (some h.val) } })
  d.occur { die := b.val, block := 0, inst := h.val, cls := 12, sev := sevNote }

/-- SPILL_READ_RETURN (R388): the first spilled task of a queue comes on die; if no copy can be read it is lost. -/
def execSpillReadReturn (q : Fin 8192) (ok mirrorOk : Bool) (s : State) : Result := s.act fun d =>
  let q := q.val
  match (d.queue q).find? (fun t => t.spilled) with
  | none => d
  | some t =>
    if ok || (mirrorOk && d.flag F.KEN_CFG_spill_mirror (Ix.onDie (q / 2048))) then
      d.setQueue q ((d.queue q).map (fun x => if x.id = t.id then { x with spilled := false } else x))
    else (d.unqueue t).complete t stLOST 4 0 none

/-- What a base die's Kennel loses when the die is reset or loses its clock (R410): its store, delay lists and queue state; tokens stay outstanding and are
remembered as lost tasks. Tasks that its engines ran for other Kennels end as if their engines had failed (R393). -/
def Dev.kenDieReset (d : Dev) (b : Nat) : Dev :=
  let d := (List.range 256).foldl (fun (d : Dev) (i : Nat) =>
    let e := b * 256 + i
    match d.taskOn e with
    | some t => if t.q / 2048 = b then d else (d.engineTaskLost e 5).2
    | none => d) d
  let mine := d.ken.run.filter (fun e => match e.2 with | some t => decide (t.q / 2048 = b) | none => false)
  let d := mine.foldl (fun (d : Dev) (e : Nat × Option Task) => (d.setTask e.1 none).on (decide (e.1 / 256 ≠ b)) (fun d => d.engLeave e.1 (d.eng e.1))) d
  let d := (List.range 2048).foldl (fun (d : Dev) (i : Nat) =>
    let q := b * 2048 + i
    let n := d.tokens q
    let a := qIx q
    let d := ((d.st F.KEN_QDB_total a 0).st F.KEN_QPTR_head a 0).st F.KEN_QPTR_done a 0
    { d with ken := { d.ken with ready := d.ken.ready.set [] q [], tmpl := d.ken.tmpl.set none q none, lost := d.ken.lost.set 0 q n } }) d
  { d with ken := { d.ken with delay := d.ken.delay.set [] b [], waiting := d.ken.waiting.filter (fun e => decide (e.1 / 256 ≠ b)),
                               standIn := d.ken.standIn.set none b none } }

/-- KENNEL_DIE_RETURN (R410): one DIE_RESET record for every queue with lost tasks; the ledger counts their tokens back; templates are read again. -/
def execKennelDieReturn (b : Fin 4) (s : State) : Result := s.act fun d =>
  if !d.kenRuns b.val then d else
  let d := (d.ken.lost.filter (fun e => decide (e.1 / 2048 = b.val))).foldl (fun (d : Dev) (e : Nat × Nat) =>
    let q := e.1
    let d := d.queueRec (b.val * 256 + d.rd F.KEN_QSQ_err_ring (qIx q))
      { words := d.recWords 0 0 stDIE 0 q none 0 0 (min 65535 e.2) 0 0, eng := none, token := false, q := q }
    let d := d.giveBack b.val 3 (q % 2048) e.2
    { d with ken := { d.ken with lost := d.ken.lost.set 0 q 0 } }) d
  (List.range 2048).foldl (fun (d : Dev) (i : Nat) =>
    let q := b.val * 2048 + i
    if d.flag F.KEN_QCFG_enable (qIx q) && d.flag F.KEN_QCFG_tmpl (qIx q) && (d.tmplOf q).isNone then d.queueStart q else d) d

end Sys2Proof.Machine
end

