-- ==== Sys2Proof/Machine/Lane.lean ====
section
/-! DEFINITION. Serial lanes and native links: bring-up, billets, replay, striping over the lanes in service, references, error injection (R260 to R293). Log entries: DEDUCED 58, 59. -/

namespace Sys2Proof.Machine

/-! ### Lanes and links -/

/-- A lane's state beside its registers. -/
def Dev.lane (d : Dev) (b l : Nat) : LaneSt := Tbl.get LaneSt.fresh d.ln.lanes (b * 32 + l)

/-- Change it. -/
def Dev.setLane (d : Dev) (b l : Nat) (x : LaneSt) : Dev := { d with ln := { d.ln with lanes := d.ln.lanes.set LaneSt.fresh (b * 32 + l) x } }

/-- A native link's state. -/
def Dev.nl (d : Dev) (b n : Nat) : NlSt := Tbl.get NlSt.fresh d.ln.links (b * 8 + n)

/-- Change it. -/
def Dev.setNl (d : Dev) (b n : Nat) (x : NlSt) : Dev := { d with ln := { d.ln with links := d.ln.links.set NlSt.fresh (b * 8 + n) x } }

/-- A lane's state as `LN_STAT` holds it. -/
def Dev.lnState (d : Dev) (b l : Nat) : Nat := d.rd F.LN_STAT_state (Ix.on b l)

/-- Set it. -/
def Dev.setLn (d : Dev) (b l v : Nat) : Dev := d.st F.LN_STAT_state (Ix.on b l) v

/-- The link that a lane belongs to. -/
def Dev.linkOf (d : Dev) (b l : Nat) : Option Nat :=
  (List.range 6).find? (fun n => d.flag F.LN_NL_CFG_enable (Ix.on b n) && bits (d.rd F.LN_NL_CFG_lanes (Ix.on b n)) l 1 = 1)

/-- The lanes of a link in order: the position in this list is the `lane_id` (R275). -/
def Dev.linkLanes (d : Dev) (b n : Nat) : List Nat := (List.range 32).filter (fun l => decide (bits (d.rd F.LN_NL_CFG_lanes (Ix.on b n)) l 1 = 1))

/-- The lane identifier of a lane in its link. -/
def Dev.laneId (d : Dev) (b n l : Nat) : Nat := (d.linkLanes b n).findIdx (· == l)

/-- Whether a lane carries far frames (R200): an optical lane of an enabled far-mode group. -/
def Dev.farLane (d : Dev) (b l : Nat) : Bool := decide (24 ≤ l) && d.flag F.CRD_FAR_CFG_enable (Ix.on b ((l - 24) / 4))

/-- Whether the streams of a list of lanes are all protected: every enabled slot that enters or leaves on a port group of those lanes is a PROTECTED
twin. -/
def Dev.lanesProtected (d : Dev) (b : Nat) (ls : List Nat) : Bool :=
  let pgs := ls.map (fun l => d.rd F.LN_CFG_pg (Ix.on b l))
  d.slotsOn.all (fun g =>
    let a := slotIx g
    let uses := (d.rd F.SSW_SLOT_CFG_src_type a = 0 && decide (a.die = b) && pgs.contains (d.rd F.SSW_SLOT_CFG_src_unit a)) ||
      (d.rd F.SSW_SLOT_CFG_sink_type a = 0 && decide (d.rd F.SSW_SLOT_CFG_sink_die a = b) && pgs.contains (d.rd F.SSW_SLOT_CFG_sink_unit a))
    !uses || d.rd F.SSW_SLOT_STAT_prot a = 1)

/-- A record about lane l of base die b: block LN, class LANE. -/
def laneOcc (b l sev : Nat) (action : Nat := 0) (detail : Nat := 0) : Occ :=
  { die := b, block := 4, inst := l, cls := 7, sev := sev, action := action, detail := detail }

/-! ### Sending (R277 to R280) -/

/-- Send a billet on a lane: DATA, DATA1 and RESTRIPE take the lane's next sequence number and stay for replay. -/
def Dev.sendBillet (d : Dev) (b l typ pos : Nat) (words : List UserWord) (extra : List Nat) (simplex : Bool) : Dev :=
  let x := d.lane b l
  let keeps := typ = 1 || typ = 2 || typ = 5
  let y : Billet := { typ := typ, seq := x.txSeq, pos := pos, words := words, extra := extra }
  let d := if keeps then d.setLane b l { x with txSeq := (x.txSeq + 1) % 64, replay := if simplex then [] else x.replay ++ [y] } else d
  d.emit (.billet b l y)

/-- The lane number of a lane identifier. -/
def Dev.laneOfId (d : Dev) (b n i : Nat) : Nat := (d.linkLanes b n).getD i 0

/-- Send the words that wait as DATA billets while the next position's lane has room (R277, R279, R280); `one` sends a single word as DATA1. -/
def Dev.pump (d : Dev) (b n : Nat) (one : Bool) : Nat → Dev
  | 0 => d
  | k + 1 =>
    let x := d.nl b n
    let a := Ix.on b n
    if d.rd F.LN_NL_STAT_state a < 2 || d.flag F.LN_NL_STAT_xoff_rx a || d.mode == .ember || x.txList.isEmpty then d else
    let l := d.laneOfId b n (x.txList.getD (x.txPos % x.txList.length) 0)
    if 63 ≤ (d.lane b l).replay.length then d else
    let sx := d.flag F.LN_NL_CFG_simplex a
    match x.txq with
    | w0 :: w1 :: r => ((d.setNl b n { x with txq := r, txPos := x.txPos + 1 }).sendBillet b l 1 x.txPos [w0, w1] [] sx).pump b n one k
    | [w] => if one then (d.setNl b n { x with txq := [], txPos := x.txPos + 1 }).sendBillet b l 2 x.txPos [w] [] sx else d
    | [] => d

/-- A user offers a word to a link (R277). -/
def Dev.nlOffer (d : Dev) (b n : Nat) (w : UserWord) : Dev :=
  let x := d.nl b n
  (d.setNl b n { x with txq := x.txq ++ [w] }).pump b n false (x.txq.length + 1)

/-- DATA1_WAIT_EXPIRED (R277): one word has waited 8 billet periods. -/
def execData1WaitExpired (b : Fin 4) (n : Fin 6) (s : State) : Result := s.act fun d => d.pump b n true ((d.nl b n).txq.length)

/-- The payload of an ACK billet: for each lane identifier the next sequence expected, NAK, lane down; then `xoff` (R267). -/
def Dev.ackPayload (d : Dev) (b n : Nat) : List Nat :=
  let x := d.nl b n
  ((d.linkLanes b n).zipIdx.map (fun (e : Nat × Nat) =>
    let y := d.lane b e.1
    y.rxSeq + 64 * y.nakOut.toNat + 128 * (!x.rxList.contains e.2).toNat)) ++ [(d.rd F.LN_NL_STAT_xoff_tx (Ix.on b n))]

/-- Send an ACK billet on every lane of the link that is in service (R279). -/
def Dev.sendAcks (d : Dev) (b n : Nat) : Dev :=
  if d.flag F.LN_NL_CFG_simplex (Ix.on b n) then d else
  let p := d.ackPayload b n
  let d := d.setNl b n { d.nl b n with sinceAck := 0 }
  (d.nl b n).txList.foldl (fun (d : Dev) (i : Nat) => d.sendBillet b (d.laneOfId b n i) 3 0 [] p false) d

/-- Positions that a lane takes after a restripe: the replayed ones of its turn, and its first new one at or after `p`. -/
def lanePlan (i len p : Nat) (gaps : List Nat) : List Nat × Nat :=
  (((gaps.zipIdx).filter (fun e => decide (e.2 % len = i))).map (·.1), p + (i + len - p % len) % len)

/-- The transmitter changes its lane list (R282, R283): a RESTRIPE billet on each lane of the new list, then the lost lane's unacknowledged billets in
position order over the new list. -/
def Dev.txRestripe (d : Dev) (b n : Nat) (new : List Nat) (lost : List Billet) : Dev :=
  let x := d.nl b n
  let mask := (new.map (fun i => 2 ^ i)).sum
  let bounds := new.map (fun i => ((d.lane b (d.laneOfId b n i)).txSeq + 1) % 64)
  let d := d.setNl b n { x with txList := new }
  let d := new.foldl (fun (d : Dev) (i : Nat) => d.sendBillet b (d.laneOfId b n i) 5 x.txPos [] ([mask, lost.length, x.txPos % 65536] ++ bounds) false) d
  (lost.zipIdx).foldl (fun (d : Dev) (e : Billet × Nat) =>
    d.sendBillet b (d.laneOfId b n (new.getD (e.2 % new.length) 0)) e.1.typ e.1.pos e.1.words [] false) d

/-- A lane of a link leaves or returns: `lanes_up`, the link's state, `restripes` and the record, once for both directions (R283). -/
def Dev.laneMark (d : Dev) (b n i : Nat) (up : Bool) : Dev :=
  let a := Ix.on b n
  let m := d.rd F.LN_NL_STAT_lanes_up a
  if bits m i 1 = up.toNat then d else
  let m := if up then m + 2 ^ i else m - 2 ^ i
  let d := (d.st F.LN_NL_STAT_lanes_up a m).bump F.LN_NL_STAT_restripes a
  let d := d.st F.LN_NL_STAT_state a (if popCount m = (d.linkLanes b n).length then 2 else 3)
  d.occur (laneOcc b (d.laneOfId b n i) (if up then sevNote else sevDegrade))
where
  /-- Set bits of a mask of lane identifiers. -/
  popCount (m : Nat) : Nat := ((List.range 16).filter (fun i => decide (bits m i 1 = 1))).length

/-- The link goes down (R284): unacknowledged billets are discarded, and positions and sequence numbers start afresh when lanes return. -/
def Dev.nlDown (d : Dev) (b n : Nat) : Dev :=
  let a := Ix.on b n
  if d.rd F.LN_NL_STAT_state a < 2 then d else
  let d := (d.linkLanes b n).foldl (fun (d : Dev) (l : Nat) =>
    d.setLane b l { d.lane b l with txSeq := 0, rxSeq := 0, replay := [], plan := [], nextPos := 0, nakOut := false }) d
  let d := d.setNl b n { NlSt.fresh with conduct := (d.nl b n).conduct, out := (d.nl b n).out }
  let d := ((d.st F.LN_NL_STAT_state a 0).st F.LN_NL_STAT_lanes_up a 0).st F.LN_NL_STAT_xoff_rx a 0
  (d.st F.LN_NL_STAT_xoff_tx a 0).occur (laneOcc b ((d.linkLanes b n).headD 0) sevStream)

/-- NATIVE_LINK_DOWN (R284): the lane list is empty. -/
def execNativeLinkDown (b : Fin 4) (n : Fin 6) (s : State) : Result := s.act fun d =>
  if d.rd F.LN_NL_STAT_lanes_up (Ix.on b n) = 0 then d.nlDown b n else d

/-- A link's lane loses lock, here or as the partner reports (R282): it leaves both lane lists; its unacknowledged billets go to the others. -/
def Dev.linkLaneDown (d : Dev) (b n l : Nat) : Dev :=
  let i := d.laneId b n l
  let x := d.nl b n
  if d.rd F.LN_NL_STAT_state (Ix.on b n) < 2 || !(x.txList.contains i || x.rxList.contains i) then d else
  let d := d.laneMark b n i false
  let lost := (d.lane b l).replay.filter (fun y => decide (y.typ ≠ 5))
  let rest := remove x.txList i
  let d := d.setNl b n { d.nl b n with rxList := x.rxList }
  if rest.isEmpty then d.nlDown b n
  else
    let d := (d.setLane b l { d.lane b l with replay := [] }).sendAcks b n
    if x.txList.contains i then d.txRestripe b n rest lost else d

/-- A lane that had lock goes down and retrains (R272, R282); `err` is its error code. -/
def Dev.laneDown (d : Dev) (b l err : Nat) (state : Nat := 1) : Dev :=
  let d := match d.linkOf b l with | some n => d.linkLaneDown b n l | none => d
  let d := (d.setLane b l { d.lane b l with badRun := 0, capRec := [], capErr := 6, waiting := false })
  (((d.setLn b l state).st F.LN_STAT_cdr_lock (Ix.on b l) 0).st F.LN_STAT_err (Ix.on b l) err).stB F.LN_STAT_retrain (Ix.on b l) (d.lane b l).adapted

/-- NATIVE_LANE_DOWN (R282): two `sync` misses, loss of CDR lock, or eight failing billets in a row. -/
def execNativeLaneDown (b : Fin 4) (l : Fin 32) (s : State) : Result := s.act fun d =>
  if d.lnState b l = 7 && !d.farLane b l then d.laneDown b l 0 else d

/-! ### Bring-up (R270 to R274) -/

/-- Whether a lane is one that goes through the states of R270. -/
def Dev.trains (d : Dev) (b l : Nat) : Bool := d.rd F.LN_CFG_mode (Ix.on b l) = 4 || d.farLane b l

/-- A bring-up event on a lane that trains and is in a state. -/
def Dev.bringUp (d : Dev) (b l from_ : Nat) (f : Dev → Dev) : Dev :=
  if d.trains b l && d.lnState b l = from_ && !(d.lane b l).waiting && !(d.lane b l).stuck && d.mode != .ember && d.mode != .cold then f d else d

/-- LANE_SIGNAL_DETECT (R270). -/
def execLaneSignalDetect (b : Fin 4) (l : Fin 32) (s : State) : Result := s.act fun d =>
  let d := d.st F.LN_STAT_sig_det (Ix.on b l) 1
  d.bringUp b l 1 (fun d => d.setLn b l 2)

/-- TRAIN_A_ADAPTED (R270). -/
def execTrainAAdapted (b : Fin 4) (l : Fin 32) (s : State) : Result := s.act fun d =>
  d.bringUp b l 2 (fun d => ((d.setLn b l 3).st F.LN_STAT_cdr_lock (Ix.on b l) 1).setLane b l { d.lane b l with adapted := true })

/-- TRAIN_B_MARKERS (R270). -/
def execTrainBMarkers (b : Fin 4) (l : Fin 32) (s : State) : Result := s.act fun d => d.bringUp b l 3 (fun d => d.setLn b l 4)

/-- BIT_LOCK_PASS (R270); a far-mode lane carries far frames from here, and its group exchanges records once its four lanes do (R200). -/
def execBitLockPass (b : Fin 4) (l : Fin 32) (s : State) : Result := s.act fun d =>
  d.bringUp b l 4 (fun d =>
    if !d.farLane b l then d.setLn b l 5 else
    let a := Ix.on b ((l.val - 24) / 4)
    let up := d.rd F.CRD_FAR_STAT_lanes_up a ||| 2 ^ ((l.val - 24) % 4)
    let d := ((d.setLn b l 7).st F.CRD_FAR_STAT_lanes_up a up).setLane b l { d.lane b l with fullFails := 0 }
    if up = 15 then
      (match d.rd F.CRD_FAR_STAT_state a with
       | 1 => d.st F.CRD_FAR_STAT_state a 2
       | 4 => d.st F.CRD_FAR_STAT_state a 3
       | _ => d)
    else d)

/-- BILLET_LOCK_FOUND (R270). -/
def execBilletLockFound (b : Fin 4) (l : Fin 32) (s : State) : Result := s.act fun d =>
  d.bringUp b l 5 (fun d => (d.setLn b l 6).setLane b l { d.lane b l with capRec := [], capErr := 6 })

/-- A link starts once each of its lanes is ACTIVE or has failed a bring-up (R278, R284); a lane that comes later is restriped in (R283). -/
def Dev.linkTry (d : Dev) (b n : Nat) : Dev :=
  let a := Ix.on b n
  let ls := d.linkLanes b n
  let ids := ((ls.zipIdx).filter (fun e => d.lnState b e.1 = 7)).map (·.2)
  let settled := (ls.zipIdx).all (fun e => d.lnState b e.1 = 7 || (d.lane b e.1).waiting || (d.lane b e.1).stuck || decide (0 < (d.lane b e.1).fullFails))
  if d.rd F.LN_NL_STAT_state a < 2 then
    if settled && !ids.isEmpty then
      let d := ls.foldl (fun (d : Dev) (l : Nat) => d.setLane b l { d.lane b l with txSeq := 0, rxSeq := 0, replay := [], plan := [], nakOut := false }) d
      let d := (ids.zipIdx).foldl (fun (d : Dev) (e : Nat × Nat) => let l := d.laneOfId b n e.1
        d.setLane b l { d.lane b l with nextPos := e.2 }) d
      let d := d.setNl b n { NlSt.fresh with txList := ids, rxList := ids, txq := (d.nl b n).txq, conduct := (d.nl b n).conduct, out := (d.nl b n).out }
      let d := d.st F.LN_NL_STAT_lanes_up a ((ids.map (fun i => 2 ^ i)).sum)
      (d.st F.LN_NL_STAT_state a (if ids.length = ls.length then 2 else 3)).pump b n false ((d.nl b n).txq.length)
    else d.st F.LN_NL_STAT_state a 1
  else
    ids.foldl (fun (d : Dev) (i : Nat) =>
      if (d.nl b n).txList.contains i then d
      else
        let l := d.laneOfId b n i
        let d := d.setLane b l { d.lane b l with txSeq := 0, rxSeq := 0, replay := [] }
        (d.laneMark b n i true).txRestripe b n ((List.range 16).filter (fun j => decide (j = i) || (d.nl b n).txList.contains j)) []) d

/-- The error of a bring-up state that times out (R270). -/
def stateErr (state capErr : Nat) : Nat := if state = 6 then capErr else state

/-- LANE_STATE_TIMEOUT (R270, R272): the failure is counted; a retrain that fails is followed by a full bring-up, and three failed full ones are a
record, STREAM for a link's last lane. -/
def execLaneStateTimeout (b : Fin 4) (l : Fin 32) (s : State) : Result := s.act fun d =>
  let a := Ix.on b l
  let st := d.lnState b l
  let x := d.lane b l
  if st < 2 || decide (6 < st) || x.waiting || !d.trains b l then d else
  let d := (d.st F.LN_STAT_err a (stateErr st x.capErr)).bump F.LN_STAT_fails a
  let full := !d.flag F.LN_STAT_retrain a
  let n := if full then x.fullFails + 1 else x.fullFails
  let d := (d.setLane b l { x with waiting := true, fullFails := n }).st F.LN_STAT_retrain a 0
  let last := match d.linkOf b l with
    | some k => decide (d.rd F.LN_NL_STAT_lanes_up (Ix.on b k) = 0)
    | none => d.farLane b l && d.rd F.CRD_FAR_STAT_lanes_up (Ix.on b ((l.val - 24) / 4)) = 0
  let d := d.on (full && n = 3) (fun d => d.occur (laneOcc b l (if last then sevStream else sevDegrade)))
  match d.linkOf b l with
  | some k => if d.rd F.LN_NL_STAT_state (Ix.on b k) < 2 then d.linkTry b k else d
  | none => d

/-- RETURN_TO_DETECT (R270, R272): 1 ms after a timeout; after three failed full bring-ups the lane stays there. -/
def execReturnToDetect (b : Fin 4) (l : Fin 32) (s : State) : Result := s.act fun d =>
  let x := d.lane b l
  if !x.waiting then d else
  ((d.setLn b l 1).setLane b l { x with waiting := false, stuck := decide (3 ≤ x.fullFails) }).st F.LN_STAT_cdr_lock (Ix.on b l) 0

/-- REFCLK_OFFSET_CHECK (R265): the partner's average offset over 1 ms, in parts per 10^9. -/
def execRefclkOffsetCheck (b : Fin 4) (l : Fin 32) (ppb : Nat) (s : State) : Result := s.act fun d =>
  d.bringUp b l 4 (fun d => d.on (decide (5000 < ppb)) (fun d => (d.setLn b l 1).st F.LN_STAT_err (Ix.on b l) 1))

/-- ETHERNET_LANE_LOCK (R274): a lane in Ethernet mode locks, or loses its link. -/
def execEthernetLaneLock (b : Fin 4) (l : Fin 32) (up : Bool) (s : State) : Result := s.act fun d =>
  let a := Ix.on b l
  if d.rd F.LN_CFG_mode a ≠ 3 || d.mode == .ember || d.mode == .cold then d
  else if up then ((d.setLn b l 8).st F.LN_STAT_cdr_lock a 1).st F.LN_STAT_sig_det a 1
  else if d.lnState b l = 8 then (d.setLn b l 1).st F.LN_STAT_cdr_lock a 0 else d

/-- SIMPLEX_TRAINING_PHASE_END (R271): a simplex transmitter goes from TRAIN-A to TRAIN-B, to CAP billets, and to DATA. -/
def execSimplexTrainingPhaseEnd (b : Fin 4) (n : Fin 6) (s : State) : Result := s.act fun d =>
  let a := Ix.on b n
  let x := d.nl b n
  if !d.flag F.LN_NL_CFG_enable a || !d.flag F.LN_NL_CFG_simplex a || decide (3 ≤ x.phase) then d else
  let st := if x.phase = 0 then 3 else if x.phase = 1 then 6 else 7
  let ls := d.linkLanes b n
  let d := ls.foldl (fun (d : Dev) (l : Nat) => d.setLn b l st) (d.setNl b n { x with phase := x.phase + 1 })
  if st ≠ 7 then d.st F.LN_NL_STAT_state a 1 else
  let ids := List.range ls.length
  let d := d.setNl b n { d.nl b n with txList := ids }
  ((d.st F.LN_NL_STAT_lanes_up a (2 ^ ls.length - 1)).st F.LN_NL_STAT_state a 2).pump b n false ((d.nl b n).txq.length)

/-- A lane takes a new `LN_CFG`: off, test, or the start of its bring-up. -/
def Dev.laneSet (d : Dev) (b l : Nat) : Dev :=
  let a := Ix.on b l
  let m := d.rd F.LN_CFG_mode a
  let d := (d.setLane b l LaneSt.fresh).st F.LN_STAT_retrain a 0
  let d := ((d.st F.LN_STAT_cdr_lock a 0).st F.LN_STAT_sig_det a 0).st F.LN_STAT_err a 0
  d.setLn b l (if m = 0 then 0 else if m = 1 then 10 else 1)

/-- A link takes a new `LN_NL_CFG`. -/
def Dev.linkSet (d : Dev) (b n : Nat) : Dev :=
  let a := Ix.on b n
  let d := (d.setNl b n NlSt.fresh).st F.LN_NL_STAT_lanes_up a 0
  d.st F.LN_NL_STAT_state a (if d.flag F.LN_NL_CFG_enable a then 1 else 0)

/-! ### References (R262) -/

/-- The lanes that run on reference r of base die b. -/
def Dev.refLanes (d : Dev) (b r : Nat) : List Nat :=
  (List.range 32).filter (fun l => decide (d.rd F.LN_CFG_mode (Ix.on b l) ≠ 0) && decide (d.rd F.LN_CFG_ref_sel (Ix.on b l) = r))

/-- LANE_REF_LOST (R262). -/
def execLaneRefLost (b : Fin 4) (r : Fin 2) (s : State) : Result := s.act fun d =>
  let ls := d.refLanes b r
  let safe := d.lanesProtected b ls
  let d := (d.st F.LN_REF_present (Ix.on b r) 0).st F.LN_REF_in_range (Ix.on b r) 0
  let d := ls.foldl (fun (d : Dev) (l : Nat) => d.laneDown b l 9 0) d
  d.occur { laneOcc b 0 (if safe then sevDegrade else sevStream) with cls := 2, sub := r }

/-- LANE_REF_GOOD (R262): good for 1 ms. -/
def execLaneRefGood (b : Fin 4) (r : Fin 2) (s : State) : Result := s.act fun d =>
  let d := (d.st F.LN_REF_present (Ix.on b r) 1).st F.LN_REF_in_range (Ix.on b r) 1
  (d.refLanes b r).foldl (fun (d : Dev) (l : Nat) => d.on (d.rd F.LN_STAT_err (Ix.on b l) = 9 && d.lnState b l = 0) (fun d => d.setLn b l 1)) d

/-! ### Receiving (R275, R278 to R283) -/

/-- What every billet brings: stuffing violations and its `check`; eight failures in a row take the lane down (R269, R282). -/
def Dev.billetIn (d : Dev) (b l : Nat) (x : BilletIn) : Dev :=
  let a := Ix.on b l
  let y := d.lane b l
  let d := d.on (decide (0 < x.stuff.val)) (fun d => d.bump F.LN_STAT_stuff_err a x.stuff.val)
  if x.checkOk then d.setLane b l { y with badRun := 0 }
  else
    let d := (d.bump F.LN_STAT_crc_err a).setLane b l { y with badRun := y.badRun + 1 }
    if 8 ≤ y.badRun + 1 && d.lnState b l = 7 then d.laneDown b l 0 else d

/-- Whether a lane takes billets of a link: ACTIVE, and the device not in EMBER. -/
def Dev.takesBillets (d : Dev) (b l : Nat) : Option Nat :=
  if d.lnState b l = 7 && d.mode != .ember then
    match d.linkOf b l with
    | some n => if d.rd F.LN_NL_STAT_state (Ix.on b n) < 2 then none else some n
    | none => none
  else none

/-- The receiver asks for the sequence number it expects, once (R279). -/
def Dev.nak (d : Dev) (b n l : Nat) : Dev :=
  let x := d.lane b l
  if x.nakOut || d.flag F.LN_NL_CFG_simplex (Ix.on b n) then d else
  ((d.setLane b l { x with nakOut := true }).bump F.LN_CNT_naks_sent (Ix.on b l)).sendAcks b n

/-- Deliver words in position order from the reorder buffer (R278). -/
def NlSt.deliver (x : NlSt) : Nat → NlSt
  | 0 => x
  | k + 1 => match Tbl.get none x.reorder x.rxPos with
    | some ws => NlSt.deliver { x with out := x.out ++ ws, reorder := x.reorder.del x.rxPos, rxPos := x.rxPos + 1 } k
    | none => x

/-- Words received for a port group become fragments of kind 4 of its stream 63 (R295, R316): 30 words to a fragment, or with `gap` fewer. They wait in the
link while the slot's earlier fragments wait at their reservation. -/
def Dev.nlFlow (d : Dev) (b n : Nat) (gap : Bool) : Nat → Dev
  | 0 => d
  | k + 1 =>
    let a := Ix.on b n
    let x := d.nl b n
    let ws := x.out.take 30
    if d.rd F.LN_NL_CFG_user a ≠ 0 || ws.isEmpty || (decide (ws.length < 30) && !gap) || !d.streamsOpen then d else
    match d.slotsFrom b 0 (d.rd F.LN_NL_CFG_pg a) 63 with
    | [] => d
    | g :: _ =>
      if 4 ≤ (d.slot g).srcQ.length then d else
      let y := d.slot g
      let data := ws.flatMap (fun w => (List.range 64).map (fun i => BitVec.ofNat 8 (w.toNat / 2 ^ (8 * i))))
      let d := ((d.setNl b n { x with out := x.out.drop 30 }).setSlot g { y with stamp := y.stamp + 1 }).sourceUnit g y.stamp 4 0 0 data
      d.nlFlow b n gap k

/-- Count a received billet towards `ack_interval`, and show `xoff` (R279, R280). -/
def Dev.afterBillet (d : Dev) (b n : Nat) : Dev :=
  let x := d.nl b n
  let d := (d.setNl b n { x with sinceAck := x.sinceAck + 1 }).nlFlow b n false (x.out.length + 1)
  let x := d.nl b n
  let d := d.stB F.LN_NL_STAT_xoff_tx (Ix.on b n) (decide (512 < x.reorder.length + x.out.length / 2))
  if d.rd F.LN_NL_CFG_ack_interval (Ix.on b n) ≤ x.sinceAck then d.sendAcks b n else d

/-- Take a billet with a sequence number: in order it goes on with `f`, otherwise it is discarded and NAKed (R279). A simplex lane has no replay: what
failed is lost, and the lane goes on behind it (R284). -/
def Dev.inOrder (d : Dev) (b l : Nat) (x : BilletIn) (f : Dev → Nat → Dev) : Dev :=
  match d.takesBillets b l with
  | none => d.billetIn b l x
  | some n =>
    let d := d.billetIn b l x
    let y := d.lane b l
    if !x.checkOk || decide (x.seq.val ≠ y.rxSeq) then
      if d.flag F.LN_NL_CFG_simplex (Ix.on b n) && x.checkOk then f (d.setLane b l { y with rxSeq := (x.seq.val + 1) % 64 }) n
      else if d.lnState b l = 7 then d.nak b n l else d
    else (f (d.setLane b l { y with rxSeq := (y.rxSeq + 1) % 64, nakOut := false }) n).afterBillet b n

/-- Place the words of a billet at its link position (R278). -/
def Dev.placeWords (d : Dev) (b l n : Nat) (ws : List UserWord) : Dev :=
  let y := d.lane b l
  let x := d.nl b n
  let (p, y) := match y.plan with
    | p :: r => (p, { y with plan := r })
    | [] => (y.nextPos, { y with nextPos := y.nextPos + max 1 x.rxList.length })
  let x := if p < x.rxPos || (Tbl.get none x.reorder p).isSome then x else { x with reorder := x.reorder.set none p (some ws) }
  (d.setLane b l y).setNl b n (x.deliver (x.reorder.length + 1))

/-- IDLE_BILLET (R267). -/
def execIdleBillet (b : Fin 4) (l : Fin 32) (x : BilletIn) (s : State) : Result := s.act fun d =>
  if 5 ≤ d.lnState b l && decide (d.lnState b l ≤ 7) then
    let d := d.billetIn b l x
    match d.takesBillets b l with
    | some n => d.nlFlow b n true ((d.nl b n).out.length + 1)
    | none => d
  else d

/-- DATA (R278). -/
def execData (b : Fin 4) (l : Fin 32) (x : BilletIn) (w0 w1 : UserWord) (s : State) : Result := s.act fun d =>
  d.inOrder b l x (fun d n => d.placeWords b l n [w0, w1])

/-- DATA1 (R277). -/
def execData1 (b : Fin 4) (l : Fin 32) (x : BilletIn) (w : UserWord) (s : State) : Result := s.act fun d =>
  d.inOrder b l x (fun d n => d.placeWords b l n [w])

/-- Bad conduct of the partner (R281): four on one link within 1 ms retrain every lane of the link. -/
def Dev.nlBadConduct (d : Dev) (b n l : Nat) : Dev :=
  let d := d.bump F.LN_CNT_bad_conduct (Ix.on b l)
  let x := d.nl b n
  let c := (x.conduct.filter (fun t => decide (d.root < t + msCycles))) ++ [d.root]
  if 4 ≤ c.length then
    let ls := d.linkLanes b n
    let d := (d.setNl b n { x with conduct := [] }).nlDown b n
    (ls.foldl (fun (d : Dev) (k : Nat) => d.on (d.lnState b k = 7) (fun d => d.laneDown b k 0)) d).occur (laneOcc b l sevStream)
  else d.setNl b n { x with conduct := c }

/-- One lane's acknowledgement and NAK (R279, R281). -/
def Dev.ackLane (d : Dev) (b n l : Nat) (a : AckByte) : Dev :=
  let x := d.lane b l
  let k := (a.next.val + 64 - (x.txSeq + 64 - x.replay.length % 64) % 64) % 64
  if x.replay.length < k then d.nlBadConduct b n l
  else
    let rest := x.replay.drop k
    let d := d.setLane b l { x with replay := rest }
    if !a.nak then d
    else if rest.isEmpty then d.nlBadConduct b n l
    else rest.foldl (fun (d : Dev) (y : Billet) => d.emit (.billet b l y)) (d.bump F.LN_CNT_replays_sent (Ix.on b l) rest.length)

/-- ACK (R267, R279, R280, R282). -/
def execAck (b : Fin 4) (l : Fin 32) (x : BilletIn) (lanes : List AckByte) (xoff : Bool) (s : State) : Result := s.act fun d =>
  match d.takesBillets b l with
  | none => d.billetIn b l x
  | some n =>
    let d := d.billetIn b l x
    if !x.checkOk || d.flag F.LN_NL_CFG_simplex (Ix.on b n) then d else
    let d := d.stB F.LN_NL_STAT_xoff_rx (Ix.on b n) xoff
    let d := (lanes.zipIdx).foldl (fun (d : Dev) (e : AckByte × Nat) =>
      if !(d.nl b n).txList.contains e.2 then d
      else if e.1.down then d.linkLaneDown b n (d.laneOfId b n e.2)
      else d.ackLane b n (d.laneOfId b n e.2) e.1) d
    d.pump b n false ((d.nl b n).txq.length)

/-- Whether a native capability record is valid (R275): length, magic, reserved bytes, ranges and CRC-32. -/
def nlCapValid (r : List Byte) : Bool :=
  decide (r.length = 128) && decide (r.take 4 = [0x54#8, 0x5A#8, 0x4E#8, 0x4C#8]) && decide (fieldAt r 5 1 ≤ 15) && decide (1 ≤ fieldAt r 6 1) &&
  decide (fieldAt r 6 1 ≤ 16) && (decide (fieldAt r 7 1 ≤ 9) || (decide (16 ≤ fieldAt r 7 1) && decide (fieldAt r 7 1 ≤ 23))) &&
  decide (fieldAt r 0x12 1 ≤ 1) && decide (fieldAt r 0x13 1 ≤ 2) && decide (fieldAt r 0x14 2 = 1024) && decide (fieldAt r 0x16 1 = 64) &&
  zeroAt r 0x17 1 && zeroAt r 0x20 92 && decide (crc32 (r.take 0x7C) = fieldAt r 0x7C 4)

/-- Whether a record's own settings differ from this end's (R275). -/
def Dev.nlMismatch (d : Dev) (b n l : Nat) (r : List Byte) : Bool :=
  let w := (d.linkLanes b n).length
  decide (fieldAt r 4 1 ≠ 1) || decide (fieldAt r 0x10 2 ≠ d.rd F.LN_NL_CFG_link_id (Ix.on b n)) || decide (fieldAt r 6 1 ≠ w) ||
  decide (fieldAt r 7 1 ≠ d.rd F.LN_CFG_rate (Ix.on b l)) || decide (w ≤ fieldAt r 5 1) ||
  (d.linkLanes b n).any (fun k => decide (k ≠ l) && d.lnState b k = 7 && decide (fieldAt (d.lane b k).capRec 5 1 = fieldAt r 5 1))

/-- CAP (R275): records are compared without their `stamp`, `echo` and CRC, which change from billet to billet; the round trip comes from `echo`. -/
def execCap (b : Fin 4) (l : Fin 32) (x : BilletIn) (record : List Byte) (s : State) : Result := s.act fun d =>
  let a := Ix.on b l
  match d.linkOf b l with
  | none => d
  | some n =>
    if (d.lnState b l ≠ 6 && d.lnState b l ≠ 7) || d.mode == .ember then d else
    let d := d.billetIn b l x
    if !x.checkOk then d else
    let y := d.lane b l
    let valid := nlCapValid record
    let same := fun (r : List Byte) => r.take 0x18 ++ (r.drop 0x20).take 0x5C
    if valid && d.nlMismatch b n l record then
      if d.lnState b l = 7 then (d.laneDown b l 7).setLane b l { d.lane b l with waiting := true, capErr := 7 }
      else ((d.st F.LN_STAT_err a 7).bump F.LN_STAT_fails a).setLane b l { y with waiting := true, capErr := 7, fullFails := y.fullFails + 1 }
    else if !valid then (d.bump F.LN_CNT_bad_cap a).setLane b l { y with capErr := 8 }
    else
      let echo := fieldAt record 0x1C 4
      let d := d.on (decide (echo ≠ 0)) (fun d => d.st F.LN_NL_STAT_rtt_ns (Ix.on b n) (min 65535 ((d.root + 2 ^ 32 - echo % 2 ^ 32) % 2 ^ 32 * 5 / 16)))
      if d.lnState b l = 6 && decide (y.capRec.length = 128) && decide (same y.capRec = same record) then
        (((d.setLane b l { y with capRec := record, fullFails := 0, badRun := 0 }).setLn b l 7).st F.LN_STAT_err a 0).linkTry b n
      else d.setLane b l { y with capRec := record }

/-- A good restripe billet in its turn (R281 to R283): the new lane list, the positions of the replayed billets, and the lane's own turn from here on. -/
def Dev.restripeIn (d : Dev) (b n l : Nat) (p : RestripeIn) : Dev :=
  let k := d.linkLanes b n
  let z := d.nl b n
  let new := (List.range 16).filter (fun i => decide (bits p.mask.toNat i 1 = 1))
  if !p.crcOk || new.any (fun i => decide (k.length ≤ i)) || new.isEmpty || d.flag F.LN_NL_CFG_simplex (Ix.on b n) then d.nlBadConduct b n l
  else
    let pos := z.rxPos + (p.pos.val + 65536 - z.rxPos % 65536) % 65536
    let first := decide (z.rxList ≠ new)
    let lost := (z.rxList.zipIdx).filter (fun e => !new.contains e.1)
    let len := max 1 z.rxList.length
    let gaps := match lost with
      | e :: _ => ((List.range p.count.val).map (fun j => pos - 1 - (pos - 1 + len - e.2) % len - len * j)).reverse
      | [] => []
    let d := if first then
        let back := new.filter (fun i => !z.rxList.contains i)
        let d := d.setNl b n { z with rxList := new, gaps := gaps }
        let d := lost.foldl (fun (d : Dev) (e : Nat × Nat) => d.laneMark b n e.1 false) d
        back.foldl (fun (d : Dev) (i : Nat) => d.laneMark b n i true) d
      else d
    let g := (d.nl b n).gaps
    let (plan, next) := lanePlan ((new.findIdx (· == d.laneId b n l))) new.length pos g
    d.setLane b l { d.lane b l with plan := plan, nextPos := next }

/-- RESTRIPE (R281 to R283). -/
def execRestripe (b : Fin 4) (l : Fin 32) (x : BilletIn) (p : RestripeIn) (s : State) : Result := s.act fun d =>
  d.inOrder b l x (fun d n => d.restripeIn b n l p)

/-- SDI_RATE_UPDATE (R286): the transmitter's divider follows `HT_RATE`, by at most 0.1 ppm at a time. -/
def execSdiRateUpdate (b : Fin 4) (l : Fin 32) (s : State) : Result := s.act fun d =>
  if d.rd F.LN_CFG_mode (Ix.on b l) ≠ 2 || !d.flag F.LN_CFG_tx_en (Ix.on b l) then d else
  let t := d.rd F.HT_RATE_rate (Ix.onDie b)
  let nominal := F.HT_RATE_rate.reset
  let k := b.val * 32 + l.val
  let o := Tbl.get nominal d.ln.sdiRate k
  let m := o / 10 ^ 7
  let v := if o < t then min t (o + m) else max t (o - m)
  { d with ln := { d.ln with sdiRate := d.ln.sdiRate.set nominal k v } }

/-- A write of `go` (R290): one error or one burst, inverted after stuffing; `go` reads 0. -/
def Dev.injectGo (d : Dev) (b l : Nat) : Dev :=
  let a := Ix.on b l
  let d := d.st F.LN_ERRINJ_go a 0
  match d.rd F.LN_ERRINJ_inj_mode a with
  | 1 => d.emit (.inject b l 1)
  | 2 => d.emit (.inject b l (d.rd F.LN_ERRINJ_burst_len a + 1))
  | _ => d

end Sys2Proof.Machine
end

