-- ==== Sys2Proof/Machine/HouseTime.lean ====
section
/-! DEFINITION. House time and the clock root (chapter House Time and the Clock Root): the root monitor, the servo and its sources, the
copies of house time, steps, and cadence generators. Log entries: DEDUCED 20, 21, 22, 28, 98. -/

namespace Sys2Proof.Machine

/-- One ns in units of 2^-16 ns. -/
def ns16 : Int := 65536

/-! ### The root reference (R40) -/

/-- REFCLK_ROOT_LOST: the PLL holds its frequency, `root_holdover` is set and a record of severity DEGRADE is logged. -/
def execRefclkRootLost (s : State) : Result := s.act fun d =>
  if d.clk.refLost then d else
  (({ d with clk := { d.clk with refLost := true, refOk := false } }).st F.HT_STATUS_root_holdover {} 1).occur
    { die := 0, block := 9, inst := 0, cls := 2, sev := sevDegrade, action := 0 }

/-- REFCLK_ROOT_RETURN: the reference has stayed in limits for 1 ms without a break; the PLL pulls back to it. -/
def execRefclkRootReturn (s : State) : Result := s.act fun d =>
  ({ d with clk := { d.clk with refLost := false, refOk := true } }).st F.HT_STATUS_root_holdover {} 0

/-- ROOT_HOLDOVER_TIMEOUT: 100 ms after the loss without a return the device enters SAFE with cause 3 (R40, R61). -/
def execRootHoldoverTimeout (s : State) : Result := s.act fun d =>
  if d.clk.refLost then d.safeTrigger 3 false else d

/-! ### Steps and slews (R50, R58, R579) -/

/-- House time, in 2^-40 ns, of a trigger that reads in `HRT_TXN_AT`; its seconds are the low 32 bits. -/
def Dev.trigTime (d : Dev) (t : Nat) : Nat :=
  ((d.sec / 2 ^ 32 * 2 ^ 32 + d.rd F.HRT_TXN_AT_sec (Ix.at t)) * 10 ^ 9 + d.rd F.HRT_TXN_AT_ns (Ix.at t)) * nsUnits

/-- Return an armed transaction to READY, its next command to answer `status` (R121, R579). -/
def Dev.cancelLaunch (d : Dev) (t status : Nat) : Dev :=
  (((d.unreserve t).setTState t tREADY).st F.HRT_TXN_STAT_status (Ix.at t) status).setTxn t { d.txn t with next := some status, trig := none }

/-- Cancel every armed commit whose instant a step carried house time past (R579): its next command returns LATE. -/
def Dev.skipArmed (d : Dev) (old : Nat) : Dev :=
  (List.range 16).foldl (fun d t =>
    if d.tState t = tARMED && decide (old < d.trigTime t) && decide (d.trigTime t ≤ d.ht) then d.cancelLaunch t 7 else d) d

/-- A MODE_SET whose instant a step carried house time past completes with LATE (R579). -/
def Dev.skipMode (d : Dev) (old : Nat) : Dev :=
  match d.pl.modeWait with
  | some w =>
    if old < w.time && decide (w.time ≤ d.ht) then
      ({ d with pl := { d.pl with modeWait := none } }).answerMode w { status := 4 }
    else d
  | none => d

/-- Step house time by `delta` in 2^-16 ns (R58): it never goes below 0; generators resume at their next aligned instant; the step is
logged with its size. -/
def Dev.htStep (d : Dev) (delta : Int) : Dev :=
  let new := ((d.ht : Int) + delta * 2 ^ 24).toNat
  let d' := (({ d with ht := new }).skipArmed d.ht).skipMode d.ht
  d'.occur { die := d.hearthDie, block := 9, inst := 0, cls := 3, sev := sevNote, action := 0, detail := (delta % 2 ^ 64).toNat }

/-- The nominal rate (R43). -/
def nominalRate : Nat := 0x5000000000

/-- Keep a rate within ±3,000 ppm of nominal (R43). -/
def clampRate (r : Nat) : Nat := max (nominalRate - nominalRate * 3000 / 10 ^ 6) (min r (nominalRate + nominalRate * 3000 / 10 ^ 6))

/-- Slew: the new rate differs from the last averaged rate by no more than `slew_max` (R50); within that bound the spec gives no control law,
so the rate is a free value. -/
def Dev.slew (d : Dev) : Dev :=
  let m := d.htx.avgRate * d.rd F.HT_SERVO_slew_max {} / 10 ^ 7
  let (x, d) := d.draw 64
  d.st F.HT_RATE_rate {} (clampRate (d.htx.avgRate - m + x % (2 * m + 1)))

/-- The modes in which an offset above `step_thresh` is stepped (R50). -/
def Mode.stepsTime : Mode → Bool
  | .load | .rehearse | .bench => true
  | _ => false

/-- Apply a real offset: step in first acquisition (R51) or where the mode allows it, else slew and set `step_pending` (R50). -/
def Dev.correct (d : Dev) (off : Int) : Dev :=
  if decide ((d.rd F.HT_SERVO_step_thresh {} : Int) * 1000 * ns16 < off.natAbs) then
    if d.htx.firstAcq || d.mode.stepsTime then (d.htStep (-off)).st F.HT_STATUS_step_pending {} 0
    else (d.slew).st F.HT_STATUS_step_pending {} 1
  else (d.slew).st F.HT_STATUS_step_pending {} 0

/-- Count the update towards lock (R50); the first lock ends first acquisition (R51). -/
def Dev.lockCount (d : Dev) (off : Int) : Dev :=
  let good := if decide (off.natAbs < (d.rd F.HT_SERVO_lock_thresh {} : Int) * ns16) then d.htx.goodRun + 1 else 0
  let locked := decide (d.rd F.HT_SERVO_lock_count {} ≤ good)
  let d := { d with htx := { d.htx with goodRun := good, firstAcq := d.htx.firstAcq && !locked } }
  d.on locked (fun d => d.st F.HT_STATUS_locked {} 1)

/-- A measurement while locked that exceeds `step_thresh` is discarded as an outlier unless it is at least the fourth in a row within 1 µs
of the others (R47). The result is the device and whether the measurement is taken as real. -/
def Dev.outlier (d : Dev) (off : Int) : Dev × Bool :=
  if d.flag F.HT_STATUS_locked {} && decide ((d.rd F.HT_SERVO_step_thresh {} : Int) * 1000 * ns16 < off.natAbs) then
    let near := d.htx.outs.all (fun x => decide ((x - off).natAbs ≤ 1000 * 65536))
    let outs := if near then (d.htx.outs ++ [off]).reverse.take 4 else [off]
    let d := { d with htx := { d.htx with outs := outs } }
    if outs.length < 4 then (d.bump F.HT_ERR_outliers {}, false) else (d, true)
  else ({ d with htx := { d.htx with outs := [] } }, true)

/-- One servo update from the active source: the measured offset is recorded, and unless it is an outlier corrected and counted. -/
def Dev.servoUpdate (d : Dev) (off : Int) : Dev :=
  let d := d.st F.HT_OFFSET_offset {} (off % 2 ^ 64).toNat
  let (d, real) := d.outlier off
  if real then (d.correct off).lockCount off else d

/-! ### Sources (R46, R52) -/

/-- A valid update of a source: the primary is taken back after 16 in a row, a lost backup is valid again, and in holdover a valid
backup takes over; the update steers house time if its source is active. -/
def Dev.sourceUpdate (d : Dev) (src : Nat) (off : Int) : Dev :=
  if !d.htx.servoOn || src = 0 then d else
  let prim := decide (d.rd F.HT_CFG_src_primary {} = src)
  let back := decide (d.rd F.HT_CFG_src_backup {} = src)
  let run := if prim && d.flag F.HT_STATUS_primary_lost {} then d.htx.primaryRun + 1 else d.htx.primaryRun
  let d := { d with htx := { d.htx with primaryRun := run } }
  let d := d.on (prim && d.flag F.HT_STATUS_primary_lost {} && decide (16 ≤ run)) (fun d =>
    ((({ d with htx := { d.htx with primaryRun := 0 } }).st F.HT_STATUS_primary_lost {} 0).st F.HT_STATUS_holdover {} 0).st F.HT_STATUS_src_active {} src)
  let d := d.on (back && d.flag F.HT_STATUS_backup_lost {}) (fun d => d.st F.HT_STATUS_backup_lost {} 0)
  let d := d.on (back && d.flag F.HT_STATUS_holdover {}) (fun d => (d.st F.HT_STATUS_holdover {} 0).st F.HT_STATUS_src_active {} src)
  if d.rd F.HT_STATUS_src_active {} = src then d.servoUpdate off else d

/-- A source is lost (R52): a NOTE record; if it was active, the backup takes over when valid, otherwise house time runs on in
holdover at its last averaged rate and a DEGRADE record is logged. -/
def Dev.sourceLost (d : Dev) (primary : Bool) : Dev :=
  let src := if primary then d.rd F.HT_CFG_src_primary {} else d.rd F.HT_CFG_src_backup {}
  let lost := if primary then F.HT_STATUS_primary_lost else F.HT_STATUS_backup_lost
  if src = 0 || d.flag lost {} then d else
  let d := (d.st lost {} 1).occur { die := d.hearthDie, block := 9, inst := 0, cls := 3, sev := sevNote, detail := src }
  let d := { d with htx := { d.htx with primaryRun := 0, ppsRejRun := 0 } }
  if d.rd F.HT_STATUS_src_active {} ≠ src || d.flag F.HT_STATUS_holdover {} then d
  else
    let other := if primary then d.rd F.HT_CFG_src_backup {} else 0
    if primary && other ≠ 0 && !d.flag F.HT_STATUS_backup_lost {} then d.st F.HT_STATUS_src_active {} other
    else
      let d := ((d.st F.HT_STATUS_holdover {} 1).st F.HT_STATUS_src_active {} 0).st F.HT_RATE_rate {} d.htx.avgRate
      d.occur { die := d.hearthDie, block := 9, inst := 0, cls := 3, sev := sevDegrade, detail := src }

/-- SOURCE_LOSS: no valid update within `loss_timeout`. -/
def execSourceLoss (primary : Bool) (s : State) : Result := s.act fun d => d.sourceLost primary

/-- Lose every configured source of one of the given kinds. -/
def Dev.loseKinds (d : Dev) (kinds : List Nat) : Dev :=
  let d := d.on (kinds.contains (d.rd F.HT_CFG_src_primary {})) (fun d => d.sourceLost true)
  d.on (kinds.contains (d.rd F.HT_CFG_src_backup {})) (fun d => d.sourceLost false)

/-! ### PTP (R47) -/

/-- Drop a PTP message and count it. -/
def Dev.ptpDrop (d : Dev) : Dev := d.bump F.HT_ERR_dropped {}

/-- Whether half of an exchange waits. -/
def Dev.ptpHas (d : Dev) (h : PtpHalf) (id : Nat) : Bool := d.htx.waits.any (fun w => w.half == h && w.seqId == id)

/-- Remove a waiting half. -/
def Dev.ptpTake (d : Dev) (h : PtpHalf) (id : Nat) : Dev :=
  { d with htx := { d.htx with waits := d.htx.waits.filter (fun w => !(w.half == h && w.seqId == id)) } }

/-- Keep a half until its partner comes. -/
def Dev.ptpWait (d : Dev) (h : PtpHalf) (id : Nat) (off : Int) : Dev :=
  { d with htx := { d.htx with waits := d.htx.waits ++ [⟨h, id, off⟩] } }

/-- A Sync exchange is complete: the servo updates, and the port's own Delay_Req of this exchange waits for its response. -/
def Dev.ptpExchange (d : Dev) (id : Nat) (off : Int) : Dev := (d.ptpWait .delayReq id off).sourceUpdate 1 off

/-- A PTP message: the checks of R47 in order, then its effect on the servo. -/
def Dev.ptpMessage (d : Dev) (m : PtpMsg) : Dev :=
  if !d.htx.servoOn || (m.port : Nat) ≠ d.rd F.HT_CFG_ptp_port {} then d
  else if m.version ≠ 2 || m.domain ≠ d.rd F.HT_CFG_ptp_domain {} || !m.lenOk then d.ptpDrop
  else match m.kind with
    | .announce best => if best then { d with htx := { d.htx with master := some m.srcPort } } else d
    | k =>
      if d.htx.master ≠ some m.srcPort then d.ptpDrop
      else match k with
        | .sync false => d.ptpExchange m.seqId m.offset
        | .sync true =>
          if d.ptpHas .followUp m.seqId then (d.ptpTake .followUp m.seqId).ptpExchange m.seqId m.offset
          else d.ptpWait .sync m.seqId m.offset
        | .followUp =>
          if d.ptpHas .sync m.seqId then (d.ptpTake .sync m.seqId).ptpExchange m.seqId m.offset
          else d.ptpWait .followUp m.seqId m.offset
        | _ =>
          if d.ptpHas .delayReq m.seqId then d.ptpTake .delayReq m.seqId
          else d.ptpWait .delayResp m.seqId m.offset

/-- PTP_MESSAGE (R47). -/
def execPtpMessage (m : PtpMsg) (s : State) : Result := s.act fun d => d.ptpMessage m

/-- PTP_PARTNER_TIMEOUT: a Follow_Up or Delay_Resp without its partner for 100 ms is dropped and counted. -/
def execPtpPartnerTimeout (seqId : Nat) (s : State) : Result := s.act fun d =>
  if d.ptpHas .followUp seqId then (d.ptpTake .followUp seqId).ptpDrop
  else if d.ptpHas .delayResp seqId then (d.ptpTake .delayResp seqId).ptpDrop
  else d

/-! ### PPS, 10 MHz and the host (R48, R49) -/

/-- The second that the next PPS edge marks: `HT_PPS_SEC` if it was written since the last edge, else the previous second plus 1. -/
def Dev.ppsSecond (d : Dev) : Nat := if d.htx.ppsSecSet then d.rd F.HT_PPS_SEC_pps_sec {} else d.htx.lastSec + 1

/-- TIME_PPS_EDGE: the edge marks a second; once locked, an edge more than 10 µs from the expected instant is rejected and counted, and
the third rejected in a row loses the source (R48, R52). -/
def execTimePpsEdge (s : State) : Result := s.act fun d =>
  let sec := d.ppsSecond
  let off := ((d.ht : Int) - (sec * 10 ^ 9 * nsUnits : Nat)) / 2 ^ 24
  if d.flag F.HT_STATUS_locked {} && decide (10000 * ns16 < off.natAbs) then
    let d := d.bump F.HT_ERR_pps_rejected {}
    let run := d.htx.ppsRejRun + 1
    let d := { d with htx := { d.htx with ppsRejRun := run } }
    if 3 ≤ run then d.loseKinds [2, 3] else d
  else
    let d := { d with htx := { d.htx with ppsRejRun := 0, ppsSecSet := false, lastSec := sec } }
    let d := d.on d.htx.tenMOk (fun d => d.sourceUpdate 2 off)
    d.sourceUpdate 3 off

/-- TIME_10M_REJECT: a frequency outside ±20 ppm is rejected, which loses the PPS + 10M source (R48, R52). -/
def execTime10mReject (s : State) : Result := s.act fun d =>
  ({ d with htx := { d.htx with tenMOk := false } }).loseKinds [2]

/-- The effect of a written `HT_HOST_ADJ` (R49): the frequency offset changes the averaged rate within ±3,000 ppm, the phase offset is a servo
update of the host source. -/
def Dev.hostAdj (d : Dev) (v : Nat) : Dev :=
  let phase := signed 32 (bits v 0 32)
  let freq := signed 32 (bits v 32 32)
  let rate := clampRate ((d.htx.avgRate : Int) - (d.htx.avgRate : Int) * freq / 10 ^ 11).toNat
  let d := d.on (decide (d.rd F.HT_STATUS_src_active {} = 4)) (fun d =>
    ({ d with htx := { d.htx with avgRate := rate } }).st F.HT_RATE_rate {} rate)
  d.sourceUpdate 4 (phase * ns16)

/-! ### Copies (R44) -/

/-- One copy's comparison with the reference: above 2 ns it is reloaded and logged; a second reload within 1 s is logged as DEGRADE and its
die's generators take their time from the reference copy. -/
def Dev.compareCopy (d : Dev) (die : Nat) (dev : Int) : Dev :=
  let a := Ix.onDie die
  let d := d.on (decide (die < 4)) (fun d => d.st F.HT_ALIGN_deviation a (dev / nominalRate % 65536).toNat)
  if decide (2 * nsUnits < dev.natAbs) then
    let last := Tbl.get 0 d.htx.reloadAt die
    let again := decide (last ≠ 0) && decide (d.root + 1 ≤ last + 3200000000)
    let d := { d with htx := { d.htx with dev := d.htx.dev.set 0 die 0, reloadAt := d.htx.reloadAt.set 0 die (d.root + 1) } }
    let d := d.on (decide (die < 4)) (fun d => d.st F.HT_ALIGN_reloads a (if again then min 255 (d.rd F.HT_ALIGN_reloads a + 1) else 1))
    let d := d.on (again && decide (die < 4)) (fun d => { d with htx := { d.htx with refTimed := die :: d.htx.refTimed.filter (· != die) } })
    d.occur { die := die, block := if die < 4 then 9 else 0, inst := 0, cls := 3, sev := if again then sevDegrade else sevNote, action := 1 }
  else { d with htx := { d.htx with dev := d.htx.dev.set 0 die dev } }

/-- HT_COPY_COMPARE: the deviations that the comparison over the MGT path measured, by die code. -/
def execHtCopyCompare (measured : List (Fin 16 × Int)) (s : State) : Result := s.act fun d =>
  measured.foldl (fun d m => d.compareCopy m.1 m.2) d

/-! ### Cadence generators (R53 to R57) -/

/-- The frame of a program that house time lies in: frame n starts at n × num / den seconds. -/
def Dev.cgFrame (d : Dev) (a : Ix) : Nat :=
  d.ht * d.rd F.HT_CG_CFG_period_den a / (d.rd F.HT_CG_CFG_period_num a * 10 ^ 9 * nsUnits)

/-- The first line of the second field (R54). -/
def secondField (lines : Nat) : Nat :=
  if lines = 525 then 266 else if lines = 625 then 313 else if lines = 1125 then 564 else lines / 2 + 1

/-- Whether the program in effect issues an event (R54, R55). -/
def Dev.cgIssues (d : Dev) (a : Ix) (ev : CgEvent) : Bool :=
  d.flag F.HT_CG_CFG_enable a && match ev with
    | .frame => true
    | .field => d.flag F.HT_CG_CFG_interlace a
    | .line n => decide (1 ≤ n) && decide (n ≤ d.rd F.HT_CG_CFG_lines a)
    | .switch second => !second || decide (d.rd F.HT_CG_SWP_swp_line2 a ≠ 0)
    | .user => d.flag F.HT_CG_USR_enable a

/-- The line that an event lies on. -/
def Dev.cgLine (d : Dev) (a : Ix) : CgEvent → Nat
  | .frame => 1
  | .field => secondField (d.rd F.HT_CG_CFG_lines a)
  | .line n => n
  | .switch second => if second then d.rd F.HT_CG_SWP_swp_line2 a else d.rd F.HT_CG_SWP_swp_line1 a
  | .user => d.rd F.HT_CG_USR_line a

/-- CADENCE_EVENT: a generator issues an event. After a commit of a new program the first event is a frame start (R57); a generator
whose die has no valid time, or in COLD, issues none (R41, R59). -/
def execCadenceEvent (die : Fin 4) (gen : Fin 64) (ev : CgEvent) (s : State) : Result := s.act fun d =>
  let a := Ix.on die gen
  let k := (die : Nat) * 64 + gen
  if !d.cgIssues a ev || d.flag F.HT_ALIGN_invalid (Ix.onDie die) || d.mode == .cold || (d.htx.waiting.contains k && ev != .frame) then d
  else
    let d := { d with htx := { d.htx with waiting := d.htx.waiting.filter (· != k) } }
    let d := (d.st F.HT_CG_STAT_frame a (d.cgFrame a)).st F.HT_CG_STAT_line a (d.cgLine a ev)
    (d.emit (.cadence die gen ev)).count die 9 224 gen 1

/-! ### Effects of written steering registers -/

/-- `HT_CFG` has taken a new value: the servo runs and follows the primary source (R46, R59). -/
def Dev.htSelect (d : Dev) : Dev :=
  let d := { d with htx := { d.htx with servoOn := true, master := none, waits := [], primaryRun := 0, ppsRejRun := 0, outs := [] } }
  let d := (d.st F.HT_STATUS_src_active {} (d.rd F.HT_CFG_src_primary {})).st F.HT_STATUS_holdover {} 0
  (d.st F.HT_STATUS_primary_lost {} 0).st F.HT_STATUS_backup_lost {} 0

/-- Whether a trigger names generator `a`. -/
def trigNames (x : Trigger) (a : Ix) : Bool :=
  match x with
  | .cadence b g _ => decide (b = a.die) && decide (g = a.i)
  | .instant _ _ => false

/-- A new program of a generator cancels the launch of commits and mode changes that wait for one of its events (R579): the event no longer
falls on the reported instant. -/
def Dev.cancelCadence (d : Dev) (a : Ix) : Dev :=
  let d := (List.range 16).foldl (fun d t =>
    if d.tState t = tARMED && (match (d.txn t).trig with | some x => trigNames x a | none => false) then d.cancelLaunch t 7 else d) d
  match d.pl.modeWait with
  | some w => if trigNames w.trig a then ({ d with pl := { d.pl with modeWait := none } }).answerMode w { status := 4 } else d
  | none => d

/-- A new program of generator `a` waits for its first frame start (R57). -/
def Dev.cgProgram (d : Dev) (a : Ix) : Dev :=
  let d := d.cancelCadence a
  let k := a.die * 64 + a.i
  { d with htx := { d.htx with waiting := if d.htx.waiting.contains k then d.htx.waiting else d.htx.waiting ++ [k] } }

end Sys2Proof.Machine
end

