-- ==== Sys2Proof/Machine/Media.lean ====
section
/-! DEFINITION. Media port groups: SDI channels, receive and transmit flows, MACsec (R294 to R319). Log entries: DEDUCED 60, 62; DESIGN CHOICE 61. -/

namespace Sys2Proof.Machine

/-! ### Addresses of a group -/

/-- Number i of group g of base die b. -/
def pgIx (b g i : Nat) : Ix := { die := b, u := g, i := i }

/-- The group's number in the device. -/
def pgNo (b g : Nat) : Nat := 6 * b + g

/-- Whether a group's flows run: from step 9, not in EMBER, its lanes' domain open (R318). -/
def Dev.pgRuns (d : Dev) (b g : Nat) : Bool := d.streamsOpen && !d.pgShut b g && !d.dieOff b

/-- Whether a slot that carries source index i of a group is a PROTECTED twin. -/
def Dev.flowProtected (d : Dev) (b g i : Nat) : Bool :=
  let l := d.slotsFrom b 0 g i
  !l.isEmpty && l.all (fun s => d.rd F.SSW_SLOT_STAT_prot (slotIx s) = 1)

/-- The frame period of a flow's generator as a pair (numerator, denominator) in seconds (R53). -/
def Dev.cgPeriod (d : Dev) (c : Nat) : Nat × Nat :=
  (d.rd F.HT_CG_CFG_period_num (Ix.on (c / 64) (c % 64)), d.rd F.HT_CG_CFG_period_den (Ix.on (c / 64) (c % 64)))

/-- Rounded to the nearest. -/
def roundDiv (a b : Nat) : Nat := (2 * a + b) / (2 * b)

/-- The units per frame of the slot that a receive flow feeds. -/
def Dev.flowUnits (d : Dev) (b g i : Nat) : Nat :=
  match d.slotsFrom b 0 g i with
  | s :: _ => d.rd F.SSW_SLOT_RATE_units (slotIx s)
  | [] => F.SSW_SLOT_RATE_units.reset

/-- The bytes of one unit of the slot that a receive flow feeds. -/
def Dev.flowBytes (d : Dev) (b g i : Nat) : Nat :=
  match d.slotsFrom b 0 g i with
  | s :: _ => d.rd F.SSW_SLOT_RATE_unit_bytes (slotIx s)
  | [] => F.SSW_SLOT_RATE_unit_bytes.reset

/-- A flow emits a unit to every slot that names it. -/
def Dev.flowEmit (d : Dev) (b g i : Nat) (seq : BitVec 32) (kind line frame : Nat) (data : List Byte) : Dev :=
  (d.slotsFrom b 0 g i).foldl (fun (d : Dev) (s : Nat) => d.sourceUnit s seq kind line frame data) d

/-! ### SDI receive (R297 to R300, R302) -/

/-- An SDI channel's state. -/
def Dev.sdi (d : Dev) (b g c : Nat) : SdiSt := Tbl.get SdiSt.fresh d.mp.sdi (pgNo b g * 8 + c)

/-- Change it. -/
def Dev.setSdi (d : Dev) (b g c : Nat) (x : SdiSt) : Dev := { d with mp := { d.mp with sdi := d.mp.sdi.set SdiSt.fresh (pgNo b g * 8 + c) x } }

/-- The channel whose settings apply: the second stream of dual-stream Level B runs under the channel before it (R300). -/
def Dev.sdiCfg (d : Dev) (b g c : Nat) : Ix :=
  let p := pgIx b g (c - 1)
  if decide (0 < c) && d.flag F.MP_SDI_CFG_enable p && d.rd F.MP_SDI_CFG_level_b p = 2 then p else pgIx b g c

/-- The lanes of a channel. -/
def Dev.sdiLanes (d : Dev) (cfg : Ix) : List Nat := (List.range (2 ^ d.rd F.MP_SDI_CFG_links cfg)).map (fun i => d.rd F.MP_SDI_CFG_lane cfg + i)

/-- The channel locks or unlocks: `locked`, and state 8 of its lanes (R274). -/
def Dev.sdiLock (d : Dev) (b g c : Nat) (cfg : Ix) (up : Bool) : Dev :=
  let d := d.stB F.MP_SDI_STAT_locked (pgIx b g c) up
  (d.sdiLanes cfg).foldl (fun (d : Dev) (l : Nat) => d.setLn b l (if up then 8 else 1)) d

/-- A channel takes a new program: it starts unlocked. -/
def Dev.sdiSet (d : Dev) (a : Ix) : Dev :=
  (d.setSdi a.die a.u a.i SdiSt.fresh).st F.MP_SDI_STAT_locked a 0

/-- Receive flows of a group of one type that take port (SDI channel) c. -/
def Dev.rxFlows (d : Dev) (b g type c : Nat) : List Nat :=
  (List.range 64).filter (fun i =>
    let a := pgIx b g i
    d.flag F.MP_RXF_CFG_enable a && d.rd F.MP_RXF_CFG_type a = type && decide (d.rd F.MP_RXF_CFG_port a = c))

/-- The payload ID of a frame (R298): shown, recorded when it changes, and compared. -/
def Dev.sdiPid (d : Dev) (b g c : Nat) (cfg : Ix) (pid : BitVec 32) : Dev :=
  let a := pgIx b g c
  let changed := d.flag F.MP_SDI_STAT_pid_valid a && decide (d.rd F.MP_SDI_STAT_pid a ≠ pid.toNat)
  let d := (d.st F.MP_SDI_STAT_pid a pid.toNat).st F.MP_SDI_STAT_pid_valid a 1
  let d := d.on changed (fun d => d.occur { die := b, block := 5, inst := g, cls := 10, sev := sevNote, sub := c, detail := pid.toNat })
  if d.flag F.MP_SDI_CFG_pid_check cfg && decide (d.rd F.MP_SDI_CFG_pid cfg ≠ pid.toNat) then
    (d.bump F.MP_SDI_ERR_pid_err a).setSdi b g c { d.sdi b g c with withheld := true }
  else d

/-- SDI_LINE_RECEIVED (R297, R298, R299): the checks of a line, the lock after 16 good ones, and the units of the flows on the channel. -/
def execSdiLineReceived (b : Fin 4) (g : Fin 6) (c : Fin 8) (x : SdiLine) (s : State) : Result := s.act fun d =>
  let cfg := d.sdiCfg b g c
  let a := pgIx b g c
  if !d.flag F.MP_SDI_CFG_enable cfg || d.flag F.MP_SDI_CFG_dir cfg || !d.pgRuns b g then d else
  let y := d.sdi b g c
  if !x.trsOk || !x.numOk then
    (d.bump F.MP_SDI_ERR_trs_err a).setSdi b g c { y with good := 0, bad := if x.trsOk then 0 else y.bad + 1 }
  else
    let locks := !d.flag F.MP_SDI_STAT_locked a && decide (16 ≤ y.good + 1)
    let d := ((d.st F.MP_SDI_STAT_lines a x.lines).stB F.MP_SDI_STAT_interlaced a x.interlaced).on locks (fun d => d.sdiLock b g c cfg true)
    let (num, den) := d.cgPeriod (d.rd F.MP_SDI_CFG_cg cfg)
    let f := roundDiv (d.ht * den) (num * 10 ^ 9 * nsUnits)
    let y := { y with good := y.good + 1, bad := 0 }
    let y := if x.frameStart then { y with emitting := d.flag F.MP_SDI_STAT_locked a, frame := f, withheld := false } else y
    let d := d.setSdi b g c y
    let d := match x.pid with | some p => d.sdiPid b g c cfg p | none => d
    let d := d.on (!x.crcOk) (fun d => d.bump F.MP_SDI_ERR_crc_err a)
    let y := d.sdi b g c
    if !y.emitting || y.withheld then d else
    let d := match x.active with
      | some (i, data) =>
        if !x.crcOk && d.flag F.MP_SDI_CFG_crc_drop cfg then d
        else (d.rxFlows b g 1 c).foldl (fun (d : Dev) (k : Nat) =>
          d.flowEmit b g k (BitVec.ofNat 32 (y.frame * d.flowUnits b g k + i)) 0 x.line y.frame data) d
      | none => d
    match x.anc with
    | some (field, data) => (d.rxFlows b g 2 c).foldl (fun (d : Dev) (k : Nat) =>
        d.flowEmit b g k (BitVec.ofNat 32 (y.frame * d.flowUnits b g k + field.val)) 2 field y.frame data) d
    | none => d

/-- SDI_UNLOCK (R302): loss of lock, or lines per frame that differ from the `cg` program. -/
def execSdiUnlock (b : Fin 4) (g : Fin 6) (c : Fin 8) (s : State) : Result := s.act fun d =>
  let cfg := d.sdiCfg b g c
  if !d.flag F.MP_SDI_STAT_locked (pgIx b g c) then d else
  let flows := d.rxFlows b g 1 c ++ d.rxFlows b g 2 c
  let safe := !flows.isEmpty && flows.all (fun i => d.flowProtected b g i)
  let d := (d.sdiLock b g c cfg false).setSdi b g c SdiSt.fresh
  d.occur { die := b, block := 5, inst := g, cls := 10, sev := if safe then sevDegrade else sevStream, sub := c }

/-! ### Units at a sink of a group -/

/-- The key of a group's sink i. -/
def pgSink (b g i : Nat) : Nat := b * 512 + g * 64 + i

/-- Units that wait for a transmit flow. -/
def Dev.sinkUnits (d : Dev) (k : Nat) : List SinkUnit := Tbl.get [] d.ssw.sinks k

/-- Change them. -/
def Dev.setSinkUnits (d : Dev) (k : Nat) (l : List SinkUnit) : Dev := { d with ssw := { d.ssw with sinks := d.ssw.sinks.set [] k l } }

/-- A unit's first fragment's field, 0 for an empty unit. -/
def SinkUnit.hd (u : SinkUnit) (f : LineFrag → Nat) : Nat := match u.frags with | x :: _ => f x | [] => 0

/-- Its sequence number. -/
def SinkUnit.seq (u : SinkUnit) : BitVec 32 := BitVec.ofNat 32 (u.hd (fun x => x.seq.toNat))

/-- Its payload. -/
def SinkUnit.data (u : SinkUnit) : List Byte := u.frags.flatMap (fun x => x.data.take x.bytes.val)

/-- Its frame number is older than `f`, modulo 2^16. -/
def SinkUnit.olderThan (u : SinkUnit) (f : BitVec 16) : Bool :=
  let n := (f - BitVec.ofNat 16 (u.hd (fun x => x.frame.toNat))).toNat
  decide (1 ≤ n) && decide (n < 2 ^ 15)

/-! ### SDI transmit (R299, R301) -/

/-- Bits [i, i + w) of a byte string, most significant bit first. -/
def bitsBE (l : List Byte) (i w : Nat) : Nat :=
  (List.range w).foldl (fun n k => 2 * n + bits ((l.getD ((i + k) / 8) 0).toNat) (7 - (i + k) % 8) 1) 0

/-- The ANC packets of an RFC 8331 body as (line, words on the wire): the header of 6 words with DID, SDID, count and checksum, and the user words. -/
def ancPackets (l : List Byte) : Nat → Nat → List (Nat × Nat)
  | 0, _ => []
  | k + 1, at_ =>
    if l.length * 8 < at_ + 62 then [] else
    let line := bitsBE l (at_ + 1) 11
    let dc := bitsBE l (at_ + 52) 10 % 256
    let len := 32 + 10 * (dc + 4)
    (line, dc + 7) :: ancPackets l k (at_ + (len + 31) / 32 * 32)

/-- Insert the ANC packets of a line as far as its space goes; the others are dropped and counted (R299). -/
def fitAnc (room : Nat) : List (Nat × Nat) → Nat × Nat
  | [] => (0, 0)
  | p :: r => if p.2 ≤ room then let (i, n) := fitAnc (room - p.2) r; (i + 1, n) else let (i, n) := fitAnc room r; (i, n + 1)

/-- Transmit flows of one type that leave by a port. -/
def Dev.txFlows (d : Dev) (b g type c : Nat) : List Nat :=
  (List.range 64).filter (fun i =>
    let a := pgIx b g i
    d.flag F.MP_TXF_CFG_enable a && d.rd F.MP_TXF_CFG_type a = type && decide (d.rd F.MP_TXF_CFG_port a = c))

/-- Discard the units of a flow that come too late for line `line` of frame `frame`; keep those of later lines and frames, at most 16 lines. -/
def Dev.dropLate (d : Dev) (b g i : Nat) (frame : BitVec 16) (line : Nat) : Dev :=
  let k := pgSink b g i
  let l := d.sinkUnits k
  let lateU := fun (u : SinkUnit) => u.olderThan frame || (decide (u.hd (fun x => x.frame.toNat) = frame.toNat) && decide (u.hd (fun x => x.line.toNat) < line))
  let keep := (l.filter (fun u => !lateU u))
  (d.setSinkUnits k (keep.take 16)).on (l.any lateU) (fun d => d.bump F.MP_TXF_CNT_tx_late (pgIx b g i) (l.filter lateU).length)

/-- The ANC units of the frame at hand that have come: their packets wait for their lines. -/
def Dev.takeAnc (d : Dev) (b g c i : Nat) (frame : BitVec 16) : Dev :=
  let k := pgSink b g i
  let l := d.sinkUnits k
  let old := l.filter (fun u => u.olderThan frame)
  let mine := l.filter (fun u => decide (u.hd (fun x => x.frame.toNat) = frame.toNat))
  let dflt := d.rd F.MP_TXF_CFG_anc_line (pgIx b g i)
  let pk := mine.flatMap (fun u => (ancPackets u.data u.data.length 0).map (fun p => (if 0x7FD ≤ p.1 then dflt else p.1, p.2)))
  let d := d.setSinkUnits k (l.filter (fun u => !u.olderThan frame && decide (u.hd (fun x => x.frame.toNat) ≠ frame.toNat)))
  let d := d.on (!old.isEmpty) (fun d => d.bump F.MP_TXF_CNT_tx_late (pgIx b g i) old.length)
  d.setSdi b g c { d.sdi b g c with anc := (d.sdi b g c).anc ++ pk }

/-- SDI_LINE_START (R301): line `line` of output frame `frame` starts; `active` says that the raster has samples on it, `room` how many ANC words fit. -/
def execSdiLineStart (b : Fin 4) (g : Fin 6) (c : Fin 8) (line : Fin 8192) (frame : BitVec 16) (active : Bool) (room : Nat) (s : State) : Result :=
  s.act fun d =>
  let cfg := pgIx b g c
  if !d.flag F.MP_SDI_CFG_enable cfg || !d.flag F.MP_SDI_CFG_dir cfg || !d.pgRuns b g then d else
  let d := (d.txFlows b g 2 c).foldl (fun (d : Dev) (i : Nat) => d.takeAnc b g c i frame) d
  let y := d.sdi b g c
  let (fit, lost) := fitAnc room (y.anc.filter (fun p => decide (p.1 = line.val)))
  let d := d.setSdi b g c { y with anc := y.anc.filter (fun p => decide (p.1 ≠ line.val)) }
  let d := (d.txFlows b g 2 c).foldl (fun (d : Dev) (i : Nat) => d.on (decide (0 < lost)) (fun d => d.bump F.MP_TXF_CNT_anc_dropped (pgIx b g i) lost)) d
  let send := fun (d : Dev) (x : Option (List Byte)) => d.on (!d.lanesFenced) (fun d => d.emit (.sdiLine b g c line x fit))
  if !active then send d none else
  match d.txFlows b g 1 c with
  | [] => send d none
  | i :: _ =>
    let d := d.dropLate b g i frame line
    let k := pgSink b g i
    match (d.sinkUnits k).find? (fun u => decide (u.hd (fun x => x.frame.toNat) = frame.toNat) && decide (u.hd (fun x => x.line.toNat) = line.val)) with
    | some u =>
      let d := (d.setSinkUnits k (remove (d.sinkUnits k) u)).setSdi b g c { d.sdi b g c with lastLine := u.data }
      send d (some u.data)
    | none =>
      let d := d.bump F.MP_SDI_ERR_lines_missed cfg
      send d (if d.flag F.MP_TXF_CFG_fill (pgIx b g i) then some (d.sdi b g c).lastLine else none)

/-! ### Receive flows (R295, R296, R304 to R306) -/

/-- A receive flow's state. -/
def Dev.rxf (d : Dev) (b g i : Nat) : RxSt := Tbl.get RxSt.fresh d.mp.rx (pgNo b g * 64 + i)

/-- Change it. -/
def Dev.setRxf (d : Dev) (b g i : Nat) (x : RxSt) : Dev := { d with mp := { d.mp with rx := d.mp.rx.set RxSt.fresh (pgNo b g * 64 + i) x } }

/-- A receive flow takes a new program. -/
def Dev.rxFlowSet (d : Dev) (a : Ix) : Dev :=
  let d := (d.setRxf a.die a.u a.i { RxSt.fresh with legA := d.root, legB := d.root }).st F.MP_RXF_STAT_leg_lost a 0
  d.st F.MP_RXF_STAT_state a (if d.flag F.MP_RXF_CFG_enable a then 1 else 0)

/-- The media clock of a flow in Hz (R296). -/
def Dev.mediaRate (d : Dev) (a : Ix) : Nat :=
  let t := d.rd F.MP_RXF_CFG_type a
  if t = 5 || t = 6 then (if d.flag F.MP_RXF_CFG_arate a then 96000 else 48000) else 90000

/-- The full media count M of a timestamp (R296): congruent to it modulo 2^32 and nearest to r × house time. -/
def Dev.mediaCount (d : Dev) (r : Nat) (ts : BitVec 32) : Nat :=
  let h := r * d.ht / (nsUnits * 10 ^ 9)
  let ahead := (ts.toNat + 2 ^ 32 - h % 2 ^ 32) % 2 ^ 32
  if ahead < 2 ^ 31 then h + ahead else h - (2 ^ 32 - ahead)

/-- The bytes that the parts of a unit hold. -/
def AsmUnit.size (u : AsmUnit) : Nat := (u.parts.map (fun p => p.2.length)).sum

/-- Insert a part by its offset or index. -/
def insertPart (p : Nat × List Byte) : List (Nat × List Byte) → List (Nat × List Byte)
  | [] => [p]
  | q :: r => if p.1 < q.1 then p :: q :: r else if p.1 = q.1 then q :: r else q :: insertPart p r

/-- Count `incomplete` of a flow. -/
def Dev.rxIncomplete (d : Dev) (b g i : Nat) : Dev := d.bump F.MP_RXF_CNT_incomplete (pgIx b g i)

/-- A unit is complete (R305): it leaves, unless a later one has left. -/
def Dev.rxComplete (d : Dev) (b g i kind : Nat) (u : AsmUnit) : Dev :=
  let x := d.rxf b g i
  match x.left with
  | some q =>
    if laterSeq q u.seq || decide (q = u.seq) then d.rxIncomplete b g i
    else (d.setRxf b g i { x with left := some u.seq }).flowEmit b g i u.seq kind u.line u.frame (u.parts.flatMap (·.2))
  | none => (d.setRxf b g i { x with left := some u.seq }).flowEmit b g i u.seq kind u.line u.frame (u.parts.flatMap (·.2))

/-- Add a part to the unit of sequence number `seq`; at 33 units the oldest is discarded; a unit with `full` parts or bytes is complete (R305). -/
def Dev.rxPart (d : Dev) (b g i kind : Nat) (seq : BitVec 32) (line frame : Nat) (part : Nat × List Byte) (full : AsmUnit → Bool) : Dev :=
  let x := d.rxf b g i
  let u := match x.asm.find? (fun u => decide (u.seq = seq)) with
    | some u => u
    | none => { seq := seq, line := line, frame := frame, since := d.root, parts := [] }
  let isNew := !x.asm.any (fun u => decide (u.seq = seq))
  let crowd := isNew && decide (32 ≤ x.asm.length)
  let asm := if crowd then x.asm.drop 1 else x.asm
  let d := d.on crowd (fun d => d.rxIncomplete b g i)
  let u := { u with parts := insertPart part u.parts }
  let rest := asm.filter (fun v => decide (v.seq ≠ seq))
  if full u then (d.setRxf b g i { x with asm := rest }).rxComplete b g i kind u
  else d.setRxf b g i { x with asm := if isNew then rest ++ [u] else asm.map (fun v => if v.seq = seq then u else v) }

/-- A packet that passed a flow's checks gives its content to units (R295, R296). -/
def Dev.rxContent (d : Dev) (b g i : Nat) (p : RtpPkt) : Dev :=
  let a := pgIx b g i
  let t := d.rd F.MP_RXF_CFG_type a
  let r := d.mediaRate a
  let m := d.mediaCount r p.ts
  let (num, den) := d.cgPeriod (d.rd F.MP_RXF_CFG_cg a)
  let f := roundDiv (m * den) (r * num)
  let units := d.flowUnits b g i
  let far := if t = 3 || t = 4 || t = 7 then
      let h := d.ht * r * den
      let w := m * nsUnits * 10 ^ 9 * den
      decide (2 * num * nsUnits * 10 ^ 9 * r < (if h ≤ w then w - h else h - w))
    else false
  let d := d.on (decide (d.rd F.MP_RXF_STAT_state a = 1)) (fun d => d.st F.MP_RXF_STAT_state a 2)
  if far then d.bump F.MP_RXF_CNT_ts_err a
  else match t with
  | 3 =>
    p.srds.foldl (fun (d : Dev) (x : Srd) =>
      let row := x.row + if x.field2 then (units + 1) / 2 else 0
      d.rxPart b g i 0 (BitVec.ofNat 32 (f * units + row)) (x.row + 1) f (x.offset, x.data) (fun u => decide (d.flowBytes b g i ≤ u.size))) d
  | 4 => if units ≤ p.index then d.bump F.MP_RXF_CNT_bad_pkts a
         else d.rxPart b g i 3 (BitVec.ofNat 32 (f * units + p.index)) p.index f (0, p.payload) (fun _ => true)
  | 7 => d.rxPart b g i 2 (BitVec.ofNat 32 (f * units + p.index)) p.index f (0, p.payload) (fun _ => true)
  | _ =>
    let n := d.rd F.MP_RXF_CFG_n a
    let ps := d.rd F.MP_RXF_CFG_pkt_samples a
    d.rxPart b g i 1 (BitVec.ofNat 32 (m / (n * ps))) 0 f (m / ps % n, p.payload) (fun u => decide (n ≤ u.parts.length))

/-- ST 2022-7 merge-on-receive (R306): whether the packet goes on. -/
def Dev.legMerge (d : Dev) (b g i : Nat) (ext : BitVec 32) : Bool × Dev :=
  let a := pgIx b g i
  let x := d.rxf b g i
  match x.high with
  | none => (true, d.setRxf b g i { x with high := some ext, seen := [ext] })
  | some h =>
    let up := laterSeq ext h
    if !up && decide (4096 ≤ (h - ext).toNat) then (false, d.bump F.MP_RXF_CNT_bad_pkts a)
    else if x.seen.contains ext then (false, d.bump F.MP_RXF_CNT_dup_pkts a)
    else
      let h' := if up then ext else h
      (true, d.setRxf b g i { x with high := some h', seen := (x.seen ++ [ext]).filter (fun q => decide ((h' - q).toNat < 4096)) })

/-- A UDP packet reaches a flow's address from MAC m: the checks of R304, the merge, then its content. -/
def Dev.rxFlowIn (d : Dev) (b g i m : Nat) (vid : Nat) (u : UdpPkt) : Dev :=
  let a := pgIx b g i
  let merge := d.flag F.MP_RXF_CFG_merge a
  let second := merge && decide (d.rd F.MP_RXF_CFG_mac_b a = m) && decide (d.rd F.MP_RXF_CFG_port a ≠ m)
  let ok := decide (d.rd F.MP_RXF_ADDR_vid a = vid) && (d.rd F.MP_RXF_SRC_src_ip a = 0 || decide (d.rd F.MP_RXF_SRC_src_ip a = u.src.toNat)) &&
    decide (u.rtp.version.val = 2) && decide (u.rtp.pt.val = d.rd F.MP_RXF_CFG_pt a) &&
    (d.flag F.MP_RXF_CFG_ssrc_any a || decide (d.rd F.MP_RXF_SRC_ssrc a = u.rtp.ssrc.toNat)) &&
    (d.rd F.MP_RXF_CFG_type a ≠ 3 || (decide (u.rtp.srds.length ≤ 3) && u.rtp.srds.all (fun x => x.inRaster)))
  if !ok then d.bump F.MP_RXF_CNT_bad_pkts a
  else
    let x := d.rxf b g i
    let d := d.setRxf b g i (if second then { x with legB := d.root } else { x with legA := d.root })
    let d := d.on (d.flag F.MP_RXF_STAT_leg_lost a && decide (d.root < min (d.rxf b g i).legA (d.rxf b g i).legB + 100 * msCycles))
      (fun d => (d.st F.MP_RXF_STAT_leg_lost a 0).st F.MP_RXF_STAT_state a 2)
    let (go, d) := if merge then d.legMerge b g i u.rtp.ext else (true, d)
    if go then d.rxContent b g i u.rtp else d

/-- ASSEMBLY_TIMEOUT (R305): `asm_us` after a unit's first packet. -/
def execAssemblyTimeout (b : Fin 4) (g : Fin 6) (i : Fin 64) (seq : BitVec 32) (s : State) : Result := s.act fun d =>
  let x := d.rxf b g i
  if x.asm.any (fun u => decide (u.seq = seq) && decide (u.since + d.rd F.MP_RXF_CFG_asm_us (pgIx b g i) * 3200 ≤ d.root)) then
    (d.setRxf b g i { x with asm := x.asm.filter (fun u => decide (u.seq ≠ seq)) }).rxIncomplete b g i
  else d

/-- LEG_LOST (R306): a leg of a merging flow has delivered nothing for 100 ms. -/
def execLegLost (b : Fin 4) (g : Fin 6) (i : Fin 64) (second : Bool) (s : State) : Result := s.act fun d =>
  let a := pgIx b g i
  let x := d.rxf b g i
  if d.flag F.MP_RXF_CFG_enable a && d.flag F.MP_RXF_CFG_merge a && !d.flag F.MP_RXF_STAT_leg_lost a &&
     decide ((if second then x.legB else x.legA) + 100 * msCycles ≤ d.root) then
    ((d.st F.MP_RXF_STAT_leg_lost a 1).st F.MP_RXF_STAT_state a 3).occur
      { die := b, block := 5, inst := g, cls := 10, sev := sevDegrade, sub := i, detail := second.toNat }
  else d

/-! ### Ethernet receive (R303, R310, R313) -/

/-- MACsec on receive (R310): whether a frame passes. -/
def Dev.secIn (d : Dev) (b g m : Nat) (x : EthFrame) : Bool × Dev :=
  let a := pgIx b g m
  if !d.flag F.MP_SEC_CFG_enable a || decide (x.kind = .eapol) then (true, d) else
  match x.sec with
  | none => (false, d.bump F.MP_SEC_CNT_untagged a)
  | some t =>
    let sc := (List.range 8).find? (fun k => d.rd F.MP_SEC_RXSC_sci { a with j := k } ≠ 0 && decide (d.rd F.MP_SEC_RXSC_sci { a with j := k } = t.sci.toNat))
    match sc with
    | none => (false, d.bump F.MP_SEC_CNT_no_sa a)
    | some k =>
      let n := saKey a (4 + k * 4 + t.an.val)
      if !d.mp.keyed.contains n then (false, d.bump F.MP_SEC_CNT_no_sa a)
      else if !t.icvOk then (false, d.bump F.MP_SEC_CNT_icv_fail a)
      else
        let next := Tbl.get 1 d.mp.pn n
        if d.flag F.MP_SEC_CFG_replay_protect a && decide (t.pn.toNat + d.rd F.MP_SEC_CFG_replay_window a < next) then (false, d.bump F.MP_SEC_CNT_late_pn a)
        else (true, { d with mp := { d.mp with pn := d.mp.pn.set 1 n (max next (t.pn.toNat + 1)) } })

/-- A frame goes to the host packet queue. -/
def Dev.toHost (d : Dev) (b g : Nat) (x : EthFrame) : Dev :=
  { d with mp := { d.mp with hostRx := d.mp.hostRx.modify [] (pgNo b g) (· ++ [x]) } }

/-- ETH_FRAME_RECEIVED (R303): dropped and counted, or to the flows, the timestamp path, the host. -/
def execEthFrameReceived (b : Fin 4) (g : Fin 6) (m : Fin 4) (x : EthFrame) (s : State) : Result := s.act fun d =>
  let a := pgIx b g m
  if !d.flag F.MP_MAC_CFG_enable a || !d.pgRuns b g then d
  else if !x.fcsOk then d.bump F.MP_MAC_CNT_fcs_err a
  else if x.size < 64 || decide (d.rd F.MP_MAC_CFG_max_frame a < x.size) then d.bump F.MP_MAC_CNT_size_err a
  else if 1 < x.tags then d
  else if x.kind = .pause then d.bump F.MP_MAC_CNT_pause_rx a
  else
    let (ok, d) := d.secIn b g m x
    if !ok then d else
    match x.kind with
    | .udp u =>
      let flows := (List.range 64).filter (fun i =>
        let f := pgIx b g i
        let t := d.rd F.MP_RXF_CFG_type f
        d.flag F.MP_RXF_CFG_enable f && decide (3 ≤ t) && decide (t ≤ 7) && decide (d.rd F.MP_RXF_ADDR_dst_ip f = u.dst.toNat) &&
        decide (d.rd F.MP_RXF_ADDR_udp f = u.port.toNat) &&
        (decide (d.rd F.MP_RXF_CFG_port f = m.val) || (d.flag F.MP_RXF_CFG_merge f && decide (d.rd F.MP_RXF_CFG_mac_b f = m.val))))
      if !u.hdrOk || u.fragment || (u.options && !flows.isEmpty) then d.bump F.MP_MAC_CNT_ip_err a
      else if flows.isEmpty then d.toHost b g x
      else flows.foldl (fun (d : Dev) (i : Nat) => d.rxFlowIn b g i m x.vid u) d
    | .ptp p =>
      if !d.flag F.MP_MAC_CFG_ptp_en a then d.toHost b g x
      else if !p.lenOk then d.bump F.MP_MAC_CNT_ip_err a
      else if d.rd F.HT_CFG_ptp_port {} = pgNo b g then d.ptpMessage { p with port := Fin.ofNat 24 (pgNo b g) }
      else d.toHost b g x
    | .other forMac => if forMac then d.toHost b g x else d
    | _ => d.toHost b g x

/-! ### Transmit flows (R307 to R309, R312, R316) -/

/-- MACsec on transmit (R312): the association's next packet number; whether the frame can go. -/
def Dev.secOut (d : Dev) (b g m i : Nat) : Bool × Dev :=
  let a := pgIx b g m
  if !d.flag F.MP_SEC_CFG_enable a then (true, d) else
  let n := saKey a (d.rd F.MP_SEC_CFG_tx_an a)
  let pn := Tbl.get 1 d.mp.pn n
  let xpn := d.flag F.MP_SEC_CFG_xpn a
  if (if xpn then 2 ^ 64 else 2 ^ 32) ≤ pn then
    (false, (d.bump F.MP_TXF_CNT_pn_dropped (pgIx b g i)).occur { die := b, block := 5, inst := g, cls := 10, sev := sevStream, sub := m })
  else
    let d := { d with mp := { d.mp with pn := d.mp.pn.set 1 n (pn + 1) } }
    let w := d.rd F.MP_PG_STAT_pn_warn (pgIx b g 0)
    if pn + 1 = (if xpn then 2 ^ 63 else 2 ^ 31) then
      (true, ((d.st F.MP_PG_STAT_pn_warn (pgIx b g 0) (w ||| 2 ^ m))).occur { die := b, block := 5, inst := g, cls := 10, sev := sevNote, sub := m })
    else (true, d)

/-- Send one RTP packet of a flow on its MAC, and with `dup` on the second (R307). -/
def Dev.sendRtp (d : Dev) (b g i : Nat) (ext ts : Nat) (marker : Bool) (payload : List Byte) : Dev :=
  let a := pgIx b g i
  let pt := d.rd F.MP_TXF_RTP_pt a
  let ssrc := d.rd F.MP_TXF_RTP_ssrc a
  let leg := fun (d : Dev) (m dst port : Nat) =>
    let (ok, d) := d.secOut b g m i
    d.on (ok && !d.lanesFenced) (fun d => d.emit (.rtp b g m dst port pt ssrc (ext % 2 ^ 32) (ts % 2 ^ 32) marker payload))
  let d := leg d (d.rd F.MP_TXF_CFG_port a) (d.rd F.MP_TXF_ADDR_dst_ip a) (d.rd F.MP_TXF_ADDR_dst_udp a)
  if d.flag F.MP_TXF_CFG_dup a then leg d (d.rd F.MP_TXF_CFG_mac_b a) (d.rd F.MP_TXF_ADDRB_dst_ip a) (d.rd F.MP_TXF_ADDRB_dst_udp a) else d

/-- The unit a transmit flow is sending. -/
def Dev.txCur (d : Dev) (b g i : Nat) : Option SinkUnit := Tbl.get none d.mp.tx (pgNo b g * 64 + i)

/-- Change it. -/
def Dev.setTx (d : Dev) (b g i : Nat) (u : Option SinkUnit) : Dev := { d with mp := { d.mp with tx := d.mp.tx.set none (pgNo b g * 64 + i) u } }

/-- Send packet k of a unit (R307). -/
def Dev.sendUnitPkt (d : Dev) (b g i k frameNo : Nat) (u : SinkUnit) : Dev :=
  let a := pgIx b g i
  let t := d.rd F.MP_TXF_CFG_type a
  let n := d.rd F.MP_TXF_CFG_ppl a
  let q := u.seq.toNat
  let (num, den) := d.cgPeriod (d.rd F.MP_TXF_CFG_cg a)
  let start := roundDiv (frameNo * 90000 * num) den
  match t with
  | 3 => let pb := d.rd F.MP_TXF_CFG_pkt_bytes a
         d.sendRtp b g i (q * n + k) start (decide (k + 1 = n)) ((u.data.drop (k * pb)).take pb)
  | 4 => d.sendRtp b g i q start (bitsBE u.data 2 1 = 1) u.data
  | 7 => d.sendRtp b g i q start true u.data
  | _ => let part := u.data.length / max 1 n
         d.sendRtp b g i ((q * n + k) % 2 ^ 16) ((q * n + k) * d.rd F.MP_TXF_RTP_pkt_samples a) false ((u.data.drop (k * part)).take part)

/-- TX_PACKET_DEPARTURE (R308, R309, R316): the departure slot of packet k of unit `seq`. At packet 0 the unit must be there; earlier ones are late. Flow 63
of type 8 hands the unit's words to the group's native link. -/
def execTxPacketDeparture (b : Fin 4) (g : Fin 6) (i : Fin 64) (seq : BitVec 32) (k : Fin 256) (frameNo : Nat) (s : State) : Result := s.act fun d =>
  let a := pgIx b g i
  let t := d.rd F.MP_TXF_CFG_type a
  if !d.flag F.MP_TXF_CFG_enable a || t < 3 || !d.pgRuns b g then d else
  let key := pgSink b g i
  let l := d.sinkUnits key
  if t = 8 then
    match l with
    | [] => d
    | u :: r =>
      let d := d.setSinkUnits key r
      match (List.range 6).find? (fun n => d.flag F.LN_NL_CFG_enable (Ix.on b n) && d.rd F.LN_NL_CFG_user (Ix.on b n) = 0 &&
          decide (d.rd F.LN_NL_CFG_pg (Ix.on b n) = g.val) && decide (2 ≤ d.rd F.LN_NL_STAT_state (Ix.on b n))) with
      | none => d.bump F.MP_TXF_CNT_tx_missed a
      | some n => (List.range (ceilDiv u.data.length 64)).foldl (fun (d : Dev) (j : Nat) =>
          d.nlOffer b n (BitVec.ofNat 512 (leNat ((u.data.drop (64 * j)).take 64)))) d
  else if k.val = 0 then
    let late := l.filter (fun u => laterSeq seq u.seq)
    let d := d.on (!late.isEmpty) (fun d => d.bump F.MP_TXF_CNT_tx_late a late.length)
    let rest := l.filter (fun u => !laterSeq seq u.seq)
    match rest.find? (fun u => decide (u.seq = seq)) with
    | some u => ((d.setSinkUnits key (remove rest u)).setTx b g i (some u)).sendUnitPkt b g i 0 frameNo u
    | none => ((d.setSinkUnits key rest).setTx b g i none).bump F.MP_TXF_CNT_tx_missed a
  else match d.txCur b g i with
    | some u => if u.seq = seq then d.sendUnitPkt b g i k frameNo u else d
    | none => d

end Sys2Proof.Machine
end

