-- ==== Sys2Proof/Machine/EngEvt.lean ====
section
/-! DEFINITION. What happens to an engine and a pack beside its instructions: interrupts (R339 to R342), context save and restore (R344), failure (R346), stream rings
(R347), halts (R350), the scrub (R324). Log entries: DEDUCED 66, 69, 70. -/

namespace Sys2Proof.Machine

/-! ### The save-area layout (R344) -/

/-- The 32-bit word k of the register part of a drained engine's context. -/
def EngSt.areaWord (x : EngSt) (k : Nat) : Nat :=
  let r := fun (l : Nat) => Tbl.get 0 x.regs l
  if k < 32 then (if k = 0 then 0 else r k)
  else if k < 64 then
    (let v := r (32 + (k - 32) / 2)
     if k % 2 = 0 then v % 2 ^ 32 else unsgn 32 (sgn 16 (v / 2 ^ 32)))
  else if k < 103 then r (locX (k - 64))
  else if k = 103 then ((List.range 8).map (fun i => r (128 + i) % 2 * 2 ^ i)).sum + r locRND * 2 ^ 8 + r locSAT * 2 ^ 10
  else if k = 104 then x.pc % 2 ^ 18
  else if k = 105 then r (locX 40)
  else if k = 106 then r (locX 41)
  else if k = 107 then x.xqWord
  else if k = 108 then x.xb / 1024 + x.xs / 1024 * 2 ^ 16
  else if k = 109 then x.yb / 1024 + x.ys / 1024 * 2 ^ 16
  else 0

/-- Set a register's value where nothing is in flight. -/
def EngSt.put (x : EngSt) (l v : Nat) : EngSt := { x with regs := x.regs.set 0 l v }

/-- Set st whole where nothing is in flight. -/
def EngSt.putStatus (x : EngSt) (v : Nat) : EngSt :=
  (((List.range 8).foldl (fun (x : EngSt) (i : Nat) => x.put (128 + i) (bits v i 1)) x).put locRND (bits v 8 2)).put locSAT (bits v 10 1)

/-- Write word k of the context; the units of transfer status are 2 bits a tag. -/
def EngSt.putArea (x : EngSt) (k v : Nat) : EngSt :=
  let r := fun (l : Nat) => Tbl.get 0 x.regs l
  if k < 32 then (if k = 0 then x else x.put k v)
  else if k < 64 then
    (let l := 32 + (k - 32) / 2
     if k % 2 = 0 then x.put l (r l / 2 ^ 32 * 2 ^ 32 + v % 2 ^ 32) else x.put l (v % 2 ^ 16 * 2 ^ 32 + r l % 2 ^ 32))
  else if k < 96 then x.put (locX (k - 64)) (v % 2 ^ 16)
  else if k < 98 then x.put (locX (k - 64)) (v % 2 ^ 11)
  else if k < 102 then x.put (locX (k - 64)) (v % 2 ^ 18)
  else if k = 102 then x.put locBX (v % 2 ^ 6)
  else if k = 103 then x.putStatus v
  else if k = 104 then { x with pc := v % 2 ^ 18 }
  else if k = 105 then x.put (locX 40) (v % 2 ^ 18)
  else if k = 106 then x.put (locX 41) v
  else if k = 107 then { x with xq := (List.range 8).foldl (fun (t : Tbl Nat) (i : Nat) => t.set 0 i (bits v (2 * i) 2)) [] }
  else if k = 108 then { x with xb := v % 2 ^ 16 * 1024, xs := v / 2 ^ 16 * 1024 }
  else if k = 109 then { x with yb := v % 2 ^ 16 * 1024, ys := v / 2 ^ 16 * 1024 }
  else x

/-- The pack-memory address of a save slot (pack × 32 + slot). -/
def Dev.slotAddr (d : Dev) (s : Nat) : Nat :=
  let a := Ix.on (s / 256) (s / 32 % 8)
  (d.rd F.KEN_SAVE_base a + s % 32 * d.rd F.KEN_SAVE_slot_lines a) * 64

/-- Bytes of local memory. -/
def EngSt.window (x : EngSt) (a n : Nat) : List Byte := (List.range n).map (fun i => Tbl.get 0#8 x.mem (a + i))

/-- The bytes of a drained engine's save area: the register part, then the X and the Y window. -/
def EngSt.areaBytes (x : EngSt) : List Byte :=
  (List.range 128).flatMap (fun w => numBytes (x.areaWord w) 4) ++ x.window x.xb x.xs ++ x.window (0x8000 + x.yb) x.ys

/-- Write the area of task t's context into its save slot k and put the task at the head of its queue (R344, R395). -/
def Dev.contextSaved (d : Dev) (e : Nat) (t : Task) (k : Nat) : Dev :=
  let x := d.eng e
  ((d.pmWrite (k / 32) none (d.slotAddr k) x.areaBytes).setTask e none).toHead
    { t with preempted := true, xq := x.xq, level := x.level, inner := x.inner }

/-- Engine e with the registers and windows that save slot k holds for task t (R344). -/
def Dev.contextRead (d : Dev) (e : Nat) (t : Task) (k : Nat) : EngSt :=
  let p := d.packOf (k / 32)
  let o := d.slotAddr k
  let x0 := d.eng e
  let fresh := { EngSt.fresh with mem := x0.mem, excHalt := x0.excHalt, debug := x0.debug, lastFn := some (d.queueOwner (t.q / 2048) (t.q % 2048)) }
  let x := (List.range 110).foldl (fun (x : EngSt) (w : Nat) => x.putArea w (p.load (o + 4 * w) 4)) fresh
  let put := fun (m : Tbl Byte) (dst src n : Nat) => (List.range n).foldl (fun (m : Tbl Byte) (i : Nat) => m.set 0#8 (dst + i) (Tbl.get 0#8 p.pm (src + i))) m
  let mem := put (put x.mem x.xb (o + 512) x.xs) (0x8000 + x.yb) (o + 512 + x.xs) x.ys
  let xq := x.xq.map (fun (v : Nat × Nat) => (v.1, if v.2 = 3 then max 3 (Tbl.get 0 t.xq v.1) else v.2))
  { x with mem := mem, xq := xq, level := t.level, inner := t.inner }

/-- Whether a tag is still busy. -/
def EngSt.busy (x : EngSt) : Bool := x.xq.any (fun t => decide (t.2 = 1))

/-! ### Interrupts (R339 to R342) -/

/-- Whether DEBUG or PREEMPT waits at an engine. -/
def Dev.urgent (d : Dev) (e : Nat) : Bool := (d.eng e).debug || d.flag F.PK_ENG_STAT_preempt_pending (engIx e)

/-- STREAM_INTERRUPT (R342): taken at an acceptance point with `ie` set, when nothing of higher priority can be taken there. -/
def execStreamInterrupt (e : Fin 1024) (s : State) : Result := s.act fun d =>
  let e := e.val
  let x := d.eng e
  let a := engIx e
  if d.engState e ≠ 1 || !d.mode.engines || !d.flag F.PK_ENG_STAT_stream_pending a || !x.acceptance || x.rd .late locIE = 0 || (d.urgent e && x.ll.isNone) then d else
  let x := x.drain
  let x := ((((x.put (locX 40) x.pc).put (locX 41) x.status).put locIE 0).put locIH 1)
  (d.setEng e { x with pc := d.rd F.PK_ENG_CFG_vec_line a * 64, atEnd := false }).st F.PK_ENG_STAT_stream_pending a 0

/-- LL_WAIT_EXPIRED (R341): the reservation that held a DEBUG or PREEMPT back is cancelled. -/
def execLlWaitExpired (e : Fin 1024) (s : State) : Result := s.act fun d =>
  let x := d.eng e.val
  if d.urgent e.val && x.ll.isSome then d.setEng e.val { x with ll := none, llCut := true } else d

/-- PREEMPT_ACCEPT (R344): the engine drains and saves; any reservation has ended. -/
def execPreemptAccept (e : Fin 1024) (s : State) : Result := s.act fun d =>
  let e := e.val
  let x := d.eng e
  let a := engIx e
  if d.engState e ≠ 1 || !d.mode.engines || !d.flag F.PK_ENG_STAT_preempt_pending a || !x.acceptance || x.ll.isSome || x.debug then d else
  match d.taskOn e with
  | none => d
  | some t =>
    let (t, d) := d.clockTask e t
    let d := ((d.setTask e (some { t with phase := .saving })).setEng e { x.drain with atEnd := false }).setEngState e 2
    (d.st F.PK_ENG_STAT_preempt_pending a 0).bump F.PK_ENG_CNT_preempts a

/-- CONTEXT_SAVE_COMPLETE (R344, R395): once no transfer is busy, the registers and windows are in the save area, the task is at the head of its queue, and the task it
was pre-empted for takes the engine. With DEBUG pending the engine halts idle, and that task goes to the next free engine (R547). -/
def execContextSaveComplete (e : Fin 1024) (s : State) : Result := s.act fun d =>
  let e := e.val
  let x := d.eng e
  match d.taskOn e with
  | none => d
  | some t =>
    match t.phase, t.slot with
    | .saving, some k =>
      if x.busy || d.engState e ≠ 2 then d else
      let d := d.contextSaved e t k
      let c := d.claimant e
      let d := d.engLeave e x
      match c with
      | some c =>
        if d.engFree e then d.dispatch c e 0 2
        else if x.debug then (match d.freeOf (e / 32) with
          | f :: _ => d.dispatch c f 0 2
          | [] => d)
        else d
      | none => d
    | _, _ => d

/-- CONTEXT_RESTORE_COMPLETE (R344): the saved context is back, the save slot is free, the task runs on. -/
def execContextRestoreComplete (e : Fin 1024) (s : State) : Result := s.act fun d =>
  let e := e.val
  match d.taskOn e with
  | none => d
  | some t =>
    match t.phase, t.slot with
    | .restoring, some k =>
      if d.engState e ≠ 2 then d else
      ((d.setEng e (d.contextRead e t k)).setTask e (some { t with phase := .runs, slot := none, since := d.root })).setEngState e 1
    | _, _ => d

/-- DEBUG_HALT (R350): DEBUG is taken and the engine is HALTED with its in-flight instructions complete. -/
def execDebugHalt (e : Fin 1024) (s : State) : Result := s.act fun d =>
  let e := e.val
  let x := d.eng e
  if d.engState e ≠ 1 || !x.debug || !x.acceptance || x.ll.isSome then d else
  let d := match d.taskOn e with
    | some t => let (t, d) := d.clockTask e t; d.setTask e (some t)
    | none => d
  ((d.setEng e { x.drain with debug := false, atEnd := x.atEnd }).setEngState e 3).haltDone e

/-! ### Failure (R346, R406) -/

/-- The engine enters FAILED and leaves the pool; the Kennel takes its task. -/
def Dev.engFail (d : Dev) (e : Nat) : Dev :=
  let (lost, d) := d.engineTaskLost e 1
  let x := d.eng e
  let d := d.setEng e { x with ll := none, pend := [], redirect := none, rpt := none, debug := false, excHeld := none }
  let d := (d.setEngState e 4).st F.PK_ENG_STAT_preempt_pending (engIx e) 0
  let d := { d with en := { d.en with out := addNew d.en.out e } }
  d.occur { die := e / 256, block := 6, inst := e % 256, cls := 11, sev := if lost then sevStream else sevDegrade, needs := true }

/-- ENGINE_FAILED: a checker fires, which shows as exception CHECK. -/
def execEngineFailed (e : Fin 1024) (s : State) : Result := s.act fun d =>
  let a := engIx e.val
  if d.engState e.val = 4 || d.engState e.val = 6 || d.dieOff a.die then d else
  let d := (d.st F.PK_ENG_STAT_exc a excCHECK).st F.PK_ENG_PC_exc_pc a (d.eng e.val).pc
  d.engFail e.val

/-! ### Stream rings (R347) -/

/-- A unit goes into the ring of stream index i of pack p, or is discarded and counted. -/
def Dev.ringDeliver (d : Dev) (p i : Nat) (u : SinkUnit) : Dev :=
  let a : Ix := { die := p / 8, u := p % 8, i := i }
  let base := d.rd F.PK_SRX_CFG_base a * 64
  let lines := d.rd F.PK_SRX_CFG_entry_lines a
  let n := d.rd F.PK_SRX_CFG_entries a
  let prod := d.rd F.PK_SRX_STAT_produced a
  let cons := (d.packOf p).load (base + 8) 4
  if !d.flag F.PK_SRX_CFG_enable a then d
  else if n ≤ (prod + 2 ^ 32 - cons) % 2 ^ 32 then d.bump F.PK_SRX_STAT_rx_drop a
  else if (lines - 1) * 64 < u.data.length then d.bump F.PK_SRX_STAT_rx_bad a
  else match u.frags with
    | [] => d
    | f :: _ =>
      let h := ({ f with frag := 0, first := true, last := true, bytes := 0, resv := false } : LineFrag).header.toNat
      let o := base + 64 + prod % n * lines * 64
      let d := d.pmWrite p none o (numBytes h 16 ++ numBytes u.data.length 4)
      let d := d.pmWrite p none (o + 64) u.data
      let d := d.addWrap F.PK_SRX_STAT_produced a
      let d := d.pmWrite p none base (numBytes (d.rd F.PK_SRX_STAT_produced a) 4)
      match d.rd F.PK_SRX_CFG_evt a with
      | 1 => d.st F.PK_ENG_STAT_stream_pending { a with i := d.rd F.PK_SRX_CFG_evt_eng a } 1
      | 2 => d.releaseEvent (p / 8 * 2048 + d.rd F.PK_SRX_CFG_evt_queue a)
      | _ => d

/-- STREAM_RING_DELIVERY: the oldest unit that waits at the sink. -/
def execStreamRingDelivery (p : Fin 32) (i : Fin 64) (s : State) : Result := s.act fun d =>
  let k := 4096 + p.val / 8 * 512 + p.val % 8 * 64 + i.val
  if !d.packUp p.val || d.mode == .ember || d.mode == .cold then d else
  match d.sinkUnits k with
  | [] => d
  | u :: r => (d.setSinkUnits k r).ringDeliver p.val i.val u

/-! ### Scrub (R324) -/

/-- PACK_MEMORY_SCRUB: single-bit errors corrected, uncorrectable words found. -/
def execPackMemoryScrub (p : Fin 32) (corrected : Nat) (bad : List (Fin 131072)) (s : State) : Result := s.act fun d =>
  let a : Ix := { die := p.val / 8, u := p.val % 8 }
  if !d.packUp p.val || !d.flag F.PK_CFG_pm_scrub a then d else
  let d := (d.bump F.PK_PM_ERR_corrected a corrected).bump F.PK_PM_ERR_uncorrectable a bad.length
  let x := d.packOf p.val
  let d := d.setPack p.val { x with bad := bad.foldl (fun l w => addNew l w.val) x.bad }
  bad.foldl (fun (d : Dev) (w : Fin 131072) =>
    d.occur { die := a.die, block := 6, inst := a.u * 32, cls := 13, sev := sevNote, detail := w.val * 8 }) d

end Sys2Proof.Machine
end

