-- ==== Sys2Proof/Machine/Keys.lean ====
section
/-! DEFINITION. The KEY command group and FULL regions (R424 to R433, R437 to R439, R444), and link encryption (R446, R447). Log entries: DEDUCED 74; DESIGN CHOICE 4. -/

namespace Sys2Proof.Machine

/-! ### Key IDs -/

/-- The key IDs that KEY commands may not name (R424, R426). -/
def badKeyId (key : Nat) : Bool := key = 0 || decide (120 ≤ key)

/-- The check value of a key: the first 4 bytes of AES-256 of the all-zero block under it (R427). -/
def checkValue (key : Nat) : Nat := Config.cipher 0 [key] % 2 ^ 32

/-- The regions of a key ID: stack and region number. -/
def Dev.keyRegions (d : Dev) (key : Nat) : List (Nat × Nat) :=
  ((List.range 8).flatMap (fun k => (List.range 64).map (fun n => (k, n)))).filter (fun x =>
    decide (d.rd F.CRY_RGN_state (rgnIx x.1 x.2) ≠ 0) && decide (d.rd F.CRY_RGN_key_id (rgnIx x.1 x.2) = key))

/-- Keep `CRY_KEYSTATE.regions` of a key ID. -/
def Dev.countRegions (d : Dev) (key : Nat) : Dev := d.st F.CRY_KEYSTATE_regions (Ix.at key) (d.keyRegions key).length

/-- Drop every counter block of a region. -/
def Dev.clearPages (d : Dev) (k n : Nat) : Dev :=
  { d with mem := { d.mem with page := d.mem.page.filter (fun e => decide (e.1 / 2 ^ 24 ≠ rgnKey k n)) } }

/-- Destroy a region (R420, R425, R428): its record goes; its memory keeps its ciphertext. -/
def Dev.destroyRegion (d : Dev) (k n : Nat) : Dev :=
  let a := rgnIx k n
  let key := d.rd F.CRY_RGN_key_id a
  let d := (d.clearPages k n).setRgnRec k n RgnRec.fresh
  let d := (((d.st F.CRY_RGN_state a 0).st F.CRY_RGN_key_id a 0).st F.CRY_RGN_durable a 0).st F.CRY_RGN_wide a 0
  let d := (((d.st F.CRY_RGN_generation a 0).st F.CRY_RGN_owner a 0).st F.CRY_RGN_CTR_major_hw a 0).st F.CRY_RGN_CTR_sweep a 0
  let d := (((d.st F.CRY_RGN_EXT_base a 0).st F.CRY_RGN_EXT_size a 0).st F.CRY_RGN_EXT_meta_base a 0).st F.CRY_RGN_EXT_meta_units a 0
  d.countRegions key

/-- Re-initialise a transient region (R439): a new generation, every counter block in the unwritten state. -/
def Dev.reinitRegion (d : Dev) (k n : Nat) : Dev :=
  let a := rgnIx k n
  let d := (d.clearPages k n).setRgnRec k n { d.rgnRec k n with extents := [] }
  let d := d.st F.CRY_RGN_generation a (d.rd F.CRY_RGN_generation a + 1)
  (((d.st F.CRY_RGN_CTR_major_hw a 0).st F.CRY_RGN_CTR_sweep a 0).st F.CRY_RGN_state a 2).bump F.CRY_CNT_reinits (ctlIx k)

/-- The key material of a KEY command, and the device with a used key buffer zeroised (R465, R466). -/
def Dev.takeKey (d : Dev) (fn : Nat) (src : KeySrc) : Option Nat × Dev :=
  match src with
  | .wrapped k => (k, d)
  | .buffer n =>
    let key := fn * 8 + n.val
    ((Tbl.get none d.hst.keyBuf key).map (·.key), { d with hst := { d.hst with keyBuf := d.hst.keyBuf.set none key none } })

/-- Whether an enabled far-mode group encrypts under a key ID. -/
def Dev.linkKeyInUse (d : Dev) (key : Nat) : Bool :=
  (List.range 8).any (fun i =>
    let a := Ix.on (i / 2) (i % 2)
    d.flag F.CRD_FAR_CFG_enable a && (decide (d.rd F.CRY_LINK_key_id a = key) || decide (d.rd F.CRY_LINK_next_key_id a = key)))

/-- Enter a key in every controller. -/
def Dev.enterKey (d : Dev) (fn key level kcv value : Nat) : Dev :=
  let a := Ix.at key
  let d := (((d.st F.CRY_KEYSTATE_state a 1).st F.CRY_KEYSTATE_level a level).st F.CRY_KEYSTATE_owner a fn).st F.CRY_KEYSTATE_kcv a kcv
  let d := { d with mem := { d.mem with keyVal := d.mem.keyVal.set 0 key value } }
  (List.range 8).foldl (fun (d : Dev) (i : Nat) =>
    let g := Ix.on (i / 2) (i % 2)
    d.on (decide (level = 3) && decide (d.rd F.CRY_LINK_key_id g = key)) (fun d => d.st F.CRY_LINK_STAT_frames g 0)) d

/-- The regions of a RESTORED key whose key has returned: durable ones continue from their records, transient ones are re-initialised
(R443, R444). -/
def Dev.keyReturns (d : Dev) (key : Nat) : Dev :=
  (d.keyRegions key).foldl (fun (d : Dev) (x : Nat × Nat) =>
    let a := rgnIx x.1 x.2
    if d.rd F.CRY_RGN_state a ≠ 5 then d
    else if d.flag F.CRY_RGN_durable a then d.st F.CRY_RGN_state a (if (d.rgnRec x.1 x.2).extents.isEmpty then 2 else 4)
    else d.reinitRegion x.1 x.2) d

/-- KEY_INSTALL (R425 to R427, R444): the key is unwrapped, its check value compared, and it becomes ACTIVE in every controller. A RESTORED key ID
takes only the value recorded for it, at its recorded level. -/
def execKeyInstall (c : HostCmd) (key level : BitVec 8) (src : KeySrc) (kcv : BitVec 32) (s : State) : Result := s.act fun d =>
  d.command c grpKEY 1 fun d =>
    let k := key.toNat
    let l := level.toNat
    let a := Ix.at k
    let st := d.rd F.CRY_KEYSTATE_state a
    if badKeyId k then refuse d 0x01
    else if !d.keyInPart c.fn k then refuse d 0x02
    else if l = 0 || 3 < l then refuse d 0x09
    else if st = 1 || st = 2 then refuse d 0x03
    else match d.takeKey c.fn src with
      | (none, d) => refuse d 0x04
      | (some v, d) =>
        if checkValue v ≠ kcv.toNat then refuse d 0x05
        else if st = 3 then
          if d.rd F.CRY_KEYSTATE_kcv a ≠ kcv.toNat || d.rd F.CRY_KEYSTATE_level a ≠ l then refuse d 0x05
          else done ((d.enterKey c.fn k l kcv.toNat v).keyReturns k)
        else done (d.enterKey c.fn k l kcv.toNat v)

/-- The key is zeroised and its key ID becomes FREE (R428). -/
def Dev.freeKey (d : Dev) (key : Nat) : Dev :=
  let a := Ix.at key
  let d := (((d.st F.CRY_KEYSTATE_state a 0).st F.CRY_KEYSTATE_level a 0).st F.CRY_KEYSTATE_owner a 0).st F.CRY_KEYSTATE_kcv a 0
  { d with mem := { d.mem with keyVal := d.mem.keyVal.set 0 key 0 } }

/-- KEY_RETIRE (R424, R428): new requests get KEYOFF and the key ID's regions are destroyed; a RESTORED key ID becomes FREE at once. -/
def execKeyRetire (c : HostCmd) (key : BitVec 8) (s : State) : Result := s.act fun d =>
  d.command c grpKEY 2 fun d =>
    let k := key.toNat
    let st := d.rd F.CRY_KEYSTATE_state (Ix.at k)
    if badKeyId k then refuse d 0x01
    else if !d.keyInPart c.fn k then refuse d 0x02
    else if st = 0 || st = 2 then refuse d 0x03
    else if d.keyLevel k = 3 && d.linkKeyInUse k then refuse d 0x0A
    else
      let d := (d.keyRegions k).foldl (fun (d : Dev) (x : Nat × Nat) => d.destroyRegion x.1 x.2) d
      if st = 3 then done (d.freeKey k) else done (d.st F.CRY_KEYSTATE_state (Ix.at k) 2)

/-- RETIREMENT_COMPLETE (R428): no key-slot reference of the key ID is outstanding on any controller. -/
def execRetirementComplete (key : Fin 128) (s : State) : Result := s.act fun d =>
  let refs := (List.range 8).any (fun k => decide (d.ledOut (k / 2) 4 (k % 2 * 128 + key.val) ≠ 0))
  if d.rd F.CRY_KEYSTATE_state (Ix.at key) ≠ 2 || refs then d else d.freeKey key

/-! ### Regions -/

/-- ceil(log8 p): the least L with p ≤ 8^L. -/
def log8Up (p : Nat) : Nat := ((List.range 24).find? (fun l => decide (p ≤ 8 ^ l))).getD 24

/-- The nodes of the tree over p counter blocks: L = ceil(log8 p) − 1 levels, ceil(p / 8^j) nodes at level j (R429). -/
def treeNodes (p : Nat) : Nat := ((List.range (log8Up p - 1)).map (fun j => (p + 8 ^ (j + 1) - 1) / 8 ^ (j + 1))).sum

/-- Metadata bytes that a region of S bytes needs (R429, R433). -/
def metaBytes (bytes : Nat) (wide : Bool) : Nat :=
  if wide then 68 * bytes / 256 + 64 * treeNodes (bytes / 512) else 73 * bytes / 512 + 64 * treeNodes (bytes / 4096)

/-- Whether two extents of units share one. -/
def unitsMeet (b1 n1 b2 n2 : Nat) : Bool := decide (b1 < b2 + n2) && decide (b2 < b1 + n1)

/-- Whether a new region or its metadata overlaps another region, metadata area or the stack end (R426). -/
def Dev.regionOverlaps (d : Dev) (k base size mb mu : Nat) : Bool :=
  decide (12288 < base + size) || decide (12288 < mb + mu) || unitsMeet base size mb mu ||
  (List.range 64).any (fun m =>
    let a := rgnIx k m
    decide (d.rd F.CRY_RGN_state a ≠ 0) && (
      let x := d.rd F.CRY_RGN_EXT_base a
      let y := d.rd F.CRY_RGN_EXT_size a
      let u := d.rd F.CRY_RGN_EXT_meta_base a
      let v := d.rd F.CRY_RGN_EXT_meta_units a
      unitsMeet base size x y || unitsMeet base size u v || unitsMeet mb mu x y || unitsMeet mb mu u v))

/-- KEY_REGION (R425, R426, R429): creates a region and starts its initialisation. -/
def execKeyRegion (c : HostCmd) (key stack n : BitVec 8) (base size metaBase metaUnits : BitVec 32) (durable wide : Bool) (s : State) : Result :=
  s.act fun d => d.command c grpKEY 3 fun d =>
    let key := key.toNat
    let k := stack.toNat
    let n := n.toNat
    let b := base.toNat
    let z := size.toNat
    let mb := metaBase.toNat
    let mu := metaUnits.toNat
    let a := rgnIx k n
    if badKeyId key then refuse d 0x01
    else if !d.keyInPart c.fn key then refuse d 0x02
    else if 8 ≤ k || 64 ≤ n || z = 0 || 12287 < z || mu = 0 || 12287 < mu || mu * unitBytes < metaBytes (z * unitBytes) wide then refuse d 0x09
    else if d.keyState key ≠ 1 then refuse d 0x03
    else if d.keyLevel key ≠ 2 || d.rd F.CRY_RGN_state a ≠ 0 then refuse d 0x07
    else if !d.stackUp k then refuse d 0x08
    else if d.regionOverlaps k b z mb mu then refuse d 0x06
    else
      let d := (d.clearPages k n).setRgnRec k n RgnRec.fresh
      let d := ((((d.st F.CRY_RGN_state a 1).st F.CRY_RGN_key_id a key).stB F.CRY_RGN_durable a durable).stB F.CRY_RGN_wide a wide).st F.CRY_RGN_owner a c.fn
      let d := (((d.st F.CRY_RGN_EXT_base a b).st F.CRY_RGN_EXT_size a z).st F.CRY_RGN_EXT_meta_base a mb).st F.CRY_RGN_EXT_meta_units a mu
      done (d.countRegions key)

/-- REGION_INIT_COMPLETE (R429): every counter block and tree node stands in the unwritten state. -/
def execRegionInitComplete (k : Fin 8) (n : Fin 64) (s : State) : Result := s.act fun d =>
  if d.rd F.CRY_RGN_state (rgnIx k n) = 1 then d.st F.CRY_RGN_state (rgnIx k n) 2 else d

/-- The checks that KEY_REGION_FREE, KEY_REKEY and KEY_REINIT share: range, a defined region, its owner, nothing under way on it. -/
def Dev.regionBad (d : Dev) (fn k n : Nat) : Option Nat :=
  let a := rgnIx k n
  let st := d.rd F.CRY_RGN_state a
  if 8 ≤ k || 64 ≤ n then some 0x09
  else if st = 0 then some 0x07
  else if d.isVf fn && decide (d.rd F.CRY_RGN_owner a ≠ fn) then some 0x02
  else if d.keyState (d.rd F.CRY_RGN_key_id a) = 2 then some 0x03
  else if st = 1 || st = 3 then some 0x0A
  else none

/-- KEY_REGION_FREE (R425). -/
def execKeyRegionFree (c : HostCmd) (stack n : BitVec 8) (s : State) : Result := s.act fun d =>
  d.command c grpKEY 4 fun d =>
    match d.regionBad c.fn stack.toNat n.toNat with
    | some e => refuse d e
    | none => done (d.destroyRegion stack.toNat n.toNat)

/-- KEY_REKEY (R433, R438): starts a sweep now; a `wide` region has none. -/
def execKeyRekey (c : HostCmd) (stack n : BitVec 8) (s : State) : Result := s.act fun d =>
  d.command c grpKEY 5 fun d =>
    let k := stack.toNat
    let n := n.toNat
    match d.regionBad c.fn k n with
    | some e => refuse d e
    | none =>
      if d.flag F.CRY_RGN_wide (rgnIx k n) || d.rd F.CRY_RGN_state (rgnIx k n) ≠ 2 then refuse d 0x03
      else if !d.stackUp k then refuse d 0x08
      else if d.rd F.CRY_RGN_generation (rgnIx k n) = 2 ^ 24 - 1 then refuse d 0x0B
      else done (d.startSweep k n)

/-- Rewrite one page under the new generation: major 0, every written block at minor 1 (R438). -/
def Dev.sweepPage (d : Dev) (k n p : Nat) : Dev :=
  let a := rgnIx k n
  let c := d.pageCtr k n p
  if c.gen = d.rd F.CRY_RGN_generation a then d else
  let d := d.setPage k n p { major := 0, minors := c.written.map (fun i => (i, 1)), gen := d.rd F.CRY_RGN_generation a }
  d.resealPage (d.rd F.CRY_RGN_key_id a) k n p c.written

/-- REKEY_SWEEP_COMPLETE (R438): every page has been rewritten. -/
def execRekeySweepComplete (k : Fin 8) (n : Fin 64) (s : State) : Result := s.act fun d =>
  let a := rgnIx k n
  if d.rd F.CRY_RGN_state a ≠ 3 then d else
  let pages := d.rd F.CRY_RGN_EXT_size a * 512
  let d := (List.range pages).foldl (fun (d : Dev) (p : Nat) => d.sweepPage k n p) d
  (d.st F.CRY_RGN_CTR_sweep a pages).st F.CRY_RGN_state a 2

/-- KEY_REINIT (R425, R439): an extent's counter blocks go to the unwritten state with a new major, and its POISON state clears. -/
def execKeyReinit (c : HostCmd) (stack n : BitVec 8) (first count : BitVec 32) (s : State) : Result := s.act fun d =>
  d.command c grpKEY 6 fun d =>
    let k := stack.toNat
    let n := n.toNat
    let a := rgnIx k n
    match d.regionBad c.fn k n with
    | some e => refuse d e
    | none =>
      let r := d.rgnRec k n
      if d.rd F.CRY_RGN_state a ≠ 4 then refuse d 0x03
      else if !d.stackUp k then refuse d 0x08
      else if !r.extents.contains (first.toNat, count.toNat) then refuse d 0x09
      else
        let major := d.rd F.CRY_RGN_CTR_major_hw a + 1
        let rest := remove r.extents (first.toNat, count.toNat)
        let d := (d.setRgnRec k n { r with extents := rest }).st F.CRY_RGN_CTR_major_hw a major
        let gen := d.rd F.CRY_RGN_generation a
        let d := (List.range count.toNat).foldl (fun (d : Dev) (i : Nat) =>
          d.setPage k n (first.toNat + i) { major := major, minors := [], gen := gen }) d
        done ((d.st F.CRY_RGN_state a (if rest.isEmpty then 2 else 4)).bump F.CRY_CNT_reinits (ctlIx k))

/-- KEY_BBK (R100, R425): writes the battery-backed key and clears `tamper_seen`. -/
def execKeyBbk (c : HostCmd) (src : KeySrc) (s : State) : Result := s.act fun d =>
  d.command c grpKEY 7 fun d =>
    match d.takeKey c.fn src with
    | (none, d) => refuse d 0x04
    | (some v, d) => done ((({ d with bbk := { d.bbk with key := some v, tamperLow := false } }).st F.HRT_CFG_SEC_tamper_seen {} 0).st F.HRT_CFG_SEC_bbk_valid {} 1)

/-- KEY_STATUS (R425): `result` holds `CRY_KEYSTATE`(i). -/
def execKeyStatus (c : HostCmd) (key : BitVec 8) (s : State) : Result := s.act fun d =>
  d.command c grpKEY 8 fun d =>
    if badKeyId key.toNat then refuse d 0x01
    else if !d.keyInPart c.fn key.toNat then refuse d 0x02
    else done d [d.regRead .CRY_KEYSTATE (Ix.at key.toNat)]

/-! ### Failed metadata (R439) -/

/-- Whether a mirrored frame store lies in region n of stack k: it uses the region's key ID on that stack. -/
def Dev.storeOnRegion (d : Dev) (k n : Nat) : Bool :=
  (List.range 256).any (fun i =>
    let a := Ix.on (i / 64) (i % 64)
    d.flag F.SSW_FS_CFG_enable a && d.flag F.SSW_FS_CFG_mirrored a && decide (d.rd F.SSW_FS_CFG_key_id a = d.rd F.CRY_RGN_key_id (rgnIx k n)) &&
    (decide (d.rd F.SSW_FS_CFG_stack a = k) || decide (d.rd F.SSW_FS_CFG_mirror_stack a = k)))

/-- A record of class INTEGRITY about region n of stack k. -/
def Dev.integrity (d : Dev) (k n sev action detail : Nat) : Dev :=
  (d.bump F.CRY_CNT_integrity (ctlIx k)).occur
    { die := k / 2, block := 3, inst := k % 2 * 52, cls := 14, sev := sev, action := action, sub := n, detail := detail }

/-- A failed node of a region: a transient region is re-initialised, a durable one gets a POISON extent. -/
def Dev.failMeta (d : Dev) (k n first count : Nat) : Dev :=
  let a := rgnIx k n
  let st := d.rd F.CRY_RGN_state a
  if st = 0 || st = 1 then d
  else if !d.flag F.CRY_RGN_durable a then
    (d.reinitRegion k n).integrity k n (if d.storeOnRegion k n then sevDegrade else sevStream) 9 0
  else
    let r := d.rgnRec k n
    let d := (d.setRgnRec k n { r with extents := addNew r.extents (first, count) }).st F.CRY_RGN_state a 4
    d.integrity k n sevStream 13 (first + count * 2 ^ 32)

/-- METADATA_FAILURE (R439): the pages under the failed node. -/
def execMetadataFailure (k : Fin 8) (n : Fin 64) (first count : Nat) (s : State) : Result := s.act fun d => d.failMeta k n first count

/-! ### Link encryption (R446, R447) -/

/-- The sender moves to the next key after its command-2 frame, with its frame count from 0. -/
def Dev.linkSwitch (d : Dev) (b g : Nat) : Dev :=
  let a := Ix.on b g
  let k := d.rd F.CRY_LINK_next_key_id a
  let d := { d with mem := { d.mem with linkTx := d.mem.linkTx.set none (b * 2 + g) (some k) } }
  ((d.st F.CRY_LINK_STAT_frames a 0).st F.CRY_LINK_switch a 0).emit (.farControl b g 2)

/-- LINK_KEY_SWITCH_FRAME (R447): a command-2 frame moves the receiver to its next key; with none set the frame is dropped and counted. -/
def execLinkKeySwitchFrame (b : Fin 4) (g : Fin 2) (s : State) : Result := s.act fun d =>
  let a := Ix.on b g
  let k := d.rd F.CRY_LINK_next_key_id a
  if d.rd F.CRD_FAR_STAT_state a < 3 then d
  else if k = 0 then d.bump F.CRD_FAR_STAT_bad_pkts a
  else (d.st F.CRY_LINK_key_id a k).st F.CRY_LINK_next_key_id a 0

end Sys2Proof.Machine
end

