-- ==== Sys2Proof/Machine/Memory.lean ====
section
/-! DEFINITION. The stacks in service (R415 to R420, R436): patrol scrub, repairs of rows and pseudo-channels, failed stacks and pipelines. Log entries: DEDUCED 72, 73. -/

namespace Sys2Proof.Machine

/-- A record of class MEMORY about stack k. -/
def Dev.memRecord (d : Dev) (k sev action sub : Nat) : Dev :=
  d.occur { die := k / 2, block := 3, inst := k % 2 * 52, cls := 13, sev := sev, action := action, sub := sub }

/-- The pseudo-channel of a stack offset (R416). -/
def pcOf (o : Nat) : Nat := bits o 10 5

/-- PATROL_SCRUB (R417): a patrol read of one 64-byte block. A corrected block is written back and counted; an uncorrectable one reads POISON, is
counted, and its offset goes to `HBM_ERRADDR`. -/
def execPatrolScrub (k : Fin 8) (block : Nat) (found : PatrolResult) (s : State) : Result := s.act fun d =>
  let a := ctlIx k
  let o := block * 64
  if !d.stackUp k || !d.flag F.HBM_CFG_patrol a || stackBytes ≤ o then d else
  match found with
  | .clean => d
  | .corrected => d.bump F.HBM_ERR_corrected a
  | .uncorrectable =>
    let d := ((d.bump F.HBM_ERR_uncorrectable a).st F.HBM_ERRADDR_offset a o).st F.HBM_ERRADDR_pc a (pcOf o)
    let b := (k.val * stackBytes + o) / 64
    d.setBlk b { d.blkMeta b with poison := true }

/-- ROW_REPAIR (R418): soft post-package repair of a row; it is made permanent when the stack next enters self-refresh or on REPAIR_PPR. -/
def execRowRepair (k : Fin 8) (row : Nat) (lastResource : Bool) (s : State) : Result := s.act fun d =>
  let a := ctlIx k
  if !d.stackUp k || !d.flag F.HBM_CFG_ppr_auto a then d else
  let d := (d.bump F.HBM_ERR_soft a).memRecord k sevNote 2 (row % 4096)
  let d := { d with mem := { d.mem with softRows := d.mem.softRows.modify 0 k (· + 1) } }
  d.on lastResource (fun d => d.memRecord k sevDegrade 2 (row % 4096))

/-- The soft repairs of a stack become permanent (R418). -/
def Dev.hardRepair (d : Dev) (k : Nat) : Dev :=
  let n := Tbl.get 0 d.mem.softRows k
  if n = 0 then d
  else ({ d with mem := { d.mem with softRows := d.mem.softRows.set 0 k 0 } }).bump F.HBM_ERR_hard (ctlIx k) n

/-- Whether a frame store is enabled and has a copy on stack k. -/
def Dev.storeOn (d : Dev) (a : Ix) (k : Nat) : Bool :=
  d.flag F.SSW_FS_CFG_enable a && (decide (d.rd F.SSW_FS_CFG_stack a = k) ||
    (d.flag F.SSW_FS_CFG_mirrored a && decide (d.rd F.SSW_FS_CFG_mirror_stack a = k)))

/-- Every frame store of the device. -/
def allStores : List Ix := (List.range 256).map (fun i => Ix.on (i / 64) (i % 64))

/-- Whether every frame store on a stack is mirrored (R420). -/
def Dev.allMirrored (d : Dev) (k : Nat) : Bool := allStores.all (fun a => !d.storeOn a k || d.flag F.SSW_FS_CFG_mirrored a)

/-- The stores with a copy on a stack run on the other copy alone (R253). -/
def Dev.unmirror (d : Dev) (k : Nat) : Dev :=
  allStores.foldl (fun (d : Dev) (a : Ix) => if d.storeOn a k then (d.st F.SSW_FS_STAT_mirror_valid a 0).st F.SSW_FS_STAT_mirror_rebuild a 0 else d) d

/-- The resource number of a stack in the handling order. -/
def resStack (k : Nat) : Nat := 2 ^ 41 + k

/-- A stack fails (R420): its ports close as a domain, its FULL regions are destroyed, and its stores run unmirrored. -/
def Dev.failStack (d : Dev) (k : Nat) : Dev :=
  if d.rd F.HBM_STATUS_state (ctlIx k) = 4 then d else
  let sev := if d.allMirrored k then sevDegrade else sevStream
  let d := (d.st F.HBM_STATUS_state (ctlIx k) 4).closeDom (.stack (Fin.ofNat 8 k))
  let d := (List.range 64).foldl (fun (d : Dev) (n : Nat) => if d.rd F.CRY_RGN_state (rgnIx k n) ≠ 0 then d.destroyRegion k n else d) d
  (d.unmirror k).occur { die := k / 2, block := 3, inst := k % 2 * 52, cls := 13, sev := sev, action := 11, detail := k, needs := true, repair := true,
                         res := [resStack k] }

/-- STACK_FAILED (R420). -/
def execStackFailed (k : Fin 8) (s : State) : Result := s.act fun d => d.failStack k

/-- PSEUDO_CHANNEL_FAILED (R419): PCS takes its place with a record of severity DEGRADE; a second one on the stack fails the stack. -/
def execPseudoChannelFailed (k : Fin 8) (pc : Fin 32) (s : State) : Result := s.act fun d =>
  let a := ctlIx k
  let o := d.rd F.HBM_STATUS_pc_failed a
  if !d.stackUp k || bits o pc 1 = 1 then d else
  let d := d.st F.HBM_STATUS_pc_failed a (o + 2 ^ pc.val)
  if d.flag F.HBM_STATUS_spare_used a then d.failStack k
  else (((d.st F.HBM_STATUS_spare_used a 1).st F.HBM_STATUS_spare_pc a pc).st F.HBM_STATUS_copying a 1).memRecord k sevDegrade 2 pc

/-- PCS_COPY_COMPLETE (R419): every readable block stands in PCS; one that could not be read is stored with a poison code word. -/
def execPcsCopyComplete (k : Fin 8) (unreadable : List Nat) (s : State) : Result := s.act fun d =>
  let a := ctlIx k
  if !d.flag F.HBM_STATUS_copying a then d else
  (unreadable.filter (fun b => decide (b * 64 < stackBytes) && decide (pcOf (b * 64) = d.rd F.HBM_STATUS_spare_pc a))).foldl (fun (d : Dev) (i : Nat) =>
    let b := (k.val * stackBytes) / 64 + i
    d.setBlk b { d.blkMeta b with poison := true }) (d.st F.HBM_STATUS_copying a 0)

/-- The number of a pipeline among the units of R503. -/
def pipeUnit (k pipe : Nat) : Nat := 288 + k % 2 * 52 + pipe

/-- Whether a pipeline is a free spare: not in service, not failed, not under test. -/
def Dev.pipeFree (d : Dev) (k i : Nat) : Bool :=
  decide (bits (d.rd F.CRY_PIPE_up (ctlIx k)) i 1 = 0) && !d.flag F.KLN_RES_failed (Ix.on (k / 2) (pipeUnit k i)) &&
  !d.underSlice (k / 2) (pipeUnit k i) && !d.fullTest (k / 2) (pipeUnit k i)

/-- Free spares of a controller. -/
def Dev.freePipes (d : Dev) (k : Nat) : List Nat := (List.range 52).filter (fun i => d.pipeFree k i)

/-- A pipeline goes in or out of service, and `CRY_PIPE` shows how many of the four spares are not free. -/
def Dev.setPipe (d : Dev) (k i : Nat) (v : Bool) : Dev :=
  let up := d.rd F.CRY_PIPE_up (ctlIx k)
  let d := d.st F.CRY_PIPE_up (ctlIx k) (up - bits up i 1 * 2 ^ i + v.toNat * 2 ^ i)
  d.st F.CRY_PIPE_spares (ctlIx k) (4 - min 4 (d.freePipes k).length)

/-- PIPELINE_MISMATCH (R436): the request is retried on another pipeline and a spare takes the failed one's place; the record is NOTE, or DEGRADE when
it uses the last spare. -/
def execPipelineMismatch (k : Fin 8) (pipe : Fin 52) (s : State) : Result := s.act fun d =>
  if bits (d.rd F.CRY_PIPE_up (ctlIx k)) pipe 1 = 0 then d else
  let free := d.freePipes k
  let d := (d.st F.KLN_RES_failed (Ix.on (k.val / 2) (pipeUnit k pipe)) 1).setPipe k pipe false
  let d := match free with
    | i :: _ => d.setPipe k i true
    | [] => d
  d.occur { die := k.val / 2, block := 3, inst := k.val % 2 * 52 + pipe.val, cls := 15, sev := if 2 ≤ free.length then sevNote else sevDegrade, action := 4 }

end Sys2Proof.Machine
end

