-- ==== Sys2Proof/Machine/KilnOps.lean ====
section
/-! DEFINITION. Kiln's slices as shared operations (R491 to R498): handing a unit over, the verdict, and the unit's return. Log entries: DEDUCED 80. -/

namespace Sys2Proof.Machine

/-! ### Units (R491, R503) -/

/-- The kinds of unit, in the order of R491: engine, router, encryption pipeline, delivery engine, dispatch lane. -/
def klnKind (u : Nat) : Nat := if u < 256 then 0 else if u < 288 then 1 else if u < 392 then 2 else if u < 401 then 3 else 4

/-- Segments of a unit's full test. -/
def klnSegs (u : Nat) : Nat := match klnKind u with | 0 => 24 | 1 => 4 | 2 => 8 | _ => 16

/-- The block of a unit. -/
def klnBlock (u : Nat) : Nat := match klnKind u with | 0 => 6 | 1 => 2 | 2 => 3 | 3 => 1 | _ => 0

/-- The first unit of a kind. -/
def klnBase : Nat → Nat
  | 0 => 0 | 1 => 256 | 2 => 288 | 3 => 392 | _ => 401

/-- The instance of a unit in its block. -/
def klnInst (u : Nat) : Nat := u - klnBase (klnKind u)

/-- The unit that a block index and an instance name. -/
def klnUnit (blk inst : Nat) : Option Nat :=
  if blk = 6 && decide (inst < 256) then some inst
  else if blk = 2 && decide (inst < 32) then some (256 + inst)
  else if blk = 3 && decide (inst < 104) then some (288 + inst)
  else if blk = 1 && decide (inst < 9) then some (392 + inst)
  else if blk = 0 && decide (inst < 9) then some (401 + inst)
  else none

/-- The key of a unit in Kiln's tables. -/
def klnKey (b u : Nat) : Nat := b * 410 + u

/-- The stack whose controller holds a pipeline. -/
def klnStack (b u : Nat) : Nat := 2 * b + klnInst u / 52

/-- The slice under way on a base die. -/
def Dev.slice (d : Dev) (b : Nat) : Option KilnSlice := Tbl.get none d.kln.slice b

/-- Set the slice of a base die, shown in `KLN_STATUS`. -/
def Dev.setSlice (d : Dev) (b : Nat) (x : Option KilnSlice) : Dev :=
  let d := { d with kln := { d.kln with slice := d.kln.slice.set none b x } }
  match x with
  | some y => ((d.st F.KLN_STATUS_busy (Ix.onDie b) 1).st F.KLN_STATUS_unit (Ix.onDie b) y.unit).st F.KLN_STATUS_segment (Ix.onDie b) y.seg
  | none => d.st F.KLN_STATUS_busy (Ix.onDie b) 0

/-- Set one bit of a field. -/
def Dev.stBit (d : Dev) (f : Fld) (a : Ix) (i : Nat) (v : Bool) : Dev := d.st f a (d.rd f a - bits (d.rd f a) i 1 * 2 ^ i + v.toNat * 2 ^ i)

/-! ### Handing over (R257, R407, R436, R491) -/

/-- Whether the unit's spare stands in for another unit, so that the unit cannot be handed over (R493). -/
def Dev.spareTaken (d : Dev) (b u : Nat) : Bool :=
  let i := klnInst u
  match klnKind u with
  | 2 => decide (bits (d.rd F.CRY_PIPE_up (ctlIx (klnStack b u))) (i % 52) 1 = 1) && (d.freePipes (klnStack b u)).isEmpty
  | 3 => d.flag F.SSW_STATUS_spare_busy (Ix.onDie b) || decide (bits (d.rd F.SSW_STATUS_de_up (Ix.onDie b)) 8 1 = 0)
  | 4 => d.flag F.KEN_STATUS_spare_busy (Ix.onDie b) || decide (bits (d.rd F.KEN_STATUS_lane_up (Ix.onDie b)) 8 1 = 0)
  | _ => false

/-- Whether the unit can be handed over now: an engine that is idle, a router without a packet in its buffers. -/
def Dev.unitReady (d : Dev) (b u : Nat) : Bool :=
  match klnKind u with
  | 0 => decide (d.engState (b * 256 + u) = 0) && (d.taskOn (b * 256 + u)).isNone
  | 1 => decide (d.rtState b (klnInst u) = 1) && d.noc.bufs.all (fun x => decide (x.router ≠ b * 32 + klnInst u))
  | _ => true

/-- The unit's block hands it over: it is under test, and its spare takes its share. -/
def Dev.handOver (d : Dev) (b u : Nat) : Dev :=
  let i := klnInst u
  match klnKind u with
  | 0 => d.setEngState (b * 256 + u) 5
  | 1 => d.setRtState b i 3
  | 2 => let k := klnStack b u
    if bits (d.rd F.CRY_PIPE_up (ctlIx k)) (i % 52) 1 = 1 then
      match d.freePipes k with
      | j :: _ => (d.setPipe k (i % 52) false).setPipe k j true
      | [] => d
    else d
  | 3 => (d.stBit F.SSW_STATUS_de_up (Ix.onDie b) i false).on (decide (i < 8)) (fun d => d.st F.SSW_STATUS_spare_busy (Ix.onDie b) 1)
  | _ => (d.stBit F.KEN_STATUS_lane_up (Ix.onDie b) i false).on (decide (i < 8)) (fun d =>
      { d.st F.KEN_STATUS_spare_busy (Ix.onDie b) 1 with ken := { d.ken with standIn := d.ken.standIn.set none b (some i) } })

/-- The pipeline that takes over the share of another one. -/
def Dev.shareOf (d : Dev) (b u : Nat) : Option Nat :=
  if klnKind u = 2 && decide (bits (d.rd F.CRY_PIPE_up (ctlIx (klnStack b u))) (klnInst u % 52) 1 = 1) then (d.freePipes (klnStack b u)).head? else none

/-- A slice begins: a failed unit is tested out of service, segment after segment (R497). -/
def Dev.sliceBegin (d : Dev) (b u : Nat) (cmd : Option HostCmd) : Dev :=
  if d.unitFailed b u then
    let d := d.setSlice b (some { unit := u, seg := 0, cmd := cmd, full := true, sub := none })
    match klnKind u with
    | 0 => d.setEngState (b * 256 + u) 5
    | 1 => d.setRtState b (klnInst u) 3
    | _ => d
  else
    let sub := d.shareOf b u
    (d.handOver b u).setSlice b (some { unit := u, seg := Tbl.get 0 d.kln.nextSeg (klnKey b u), cmd := cmd, full := false, sub := sub })

/-- A KILN_RUN is answered with the unit's verdict and signature. -/
def Dev.kilnReply (d : Dev) (cmd : Option HostCmd) (b u : Nat) : Dev :=
  match cmd with
  | some c => d.respond c grpKILN 1 { status := 0, result := [d.regRead .KLN_RES (Ix.on b u), d.regRead .KLN_SIG (Ix.on b u)] }
  | none => d

/-- The block declines: verdict REFUSED (R493). -/
def Dev.sliceRefused (d : Dev) (b u : Nat) (cmd : Option HostCmd) : Dev :=
  ((d.st F.KLN_RES_verdict (Ix.on b u) 4).bump F.KLN_STATUS_refused (Ix.onDie b)).kilnReply cmd b u

/-- Whether Kiln runs (R498). -/
def Mode.kiln : Mode → Bool
  | .rehearse | .onair | .bench | .repair | .safe => true
  | _ => false

/-- Waiting KILN_RUN commands of a base die start as soon as their units can be taken; a router waits for its table set. -/
def Dev.kilnNext (d : Dev) (b : Nat) : Dev :=
  if (d.slice b).isSome || !d.mode.kiln || d.dieOff b then d else
  match d.kln.wait.find? (fun w => decide (w.die = b) && (d.unitFailed b w.unit || (klnKind w.unit ≠ 1 && !d.spareTaken b w.unit && d.unitReady b w.unit))) with
  | some w => { d with kln := { d.kln with wait := d.kln.wait.erase w } }.sliceBegin b w.unit (some w.cmd)
  | none => d

/-! ### The end of a slice (R493 to R497) -/

/-- Verdicts: PASS 1, FAIL 2, INCOMPLETE 3 (R493). -/
def klnVerdict (patterns : Nat) (sigOk restoreErr : Bool) : Nat :=
  if restoreErr || (patterns = 128 && !sigOk) then 2 else if patterns = 128 then 1 else 3

/-- A full pass is complete: its age starts at the minute of ROOT time, and the unit is not overdue. -/
def Dev.fullPass (d : Dev) (b u : Nat) : Dev :=
  let d := { d with kln := { d.kln with passAt := d.kln.passAt.set 0 (klnKey b u) (d.root / (60000 * msCycles)) } }
  if d.flag F.KLN_RES_overdue (Ix.on b u) then
    (d.st F.KLN_RES_overdue (Ix.on b u) 0).st F.KLN_STATUS_overdue (Ix.onDie b) (d.rd F.KLN_STATUS_overdue (Ix.onDie b) - 1)
  else d

/-- An INCOMPLETE verdict: counted, and the sixth in a row on a unit is recorded (R494). -/
def Dev.incomplete (d : Dev) (b u : Nat) : Dev :=
  let d := d.bump F.KLN_STATUS_incomplete (Ix.onDie b)
  let n := Tbl.get 0 d.kln.incRun (klnKey b u) + 1
  let d := { d with kln := { d.kln with incRun := d.kln.incRun.set 0 (klnKey b u) (n % 6) } }
  d.on (n = 6) (fun d => d.occur { die := b, block := klnBlock u, inst := klnInst u, cls := 17, sev := sevNote })

/-- The record of a FAIL: class KILN, the severity of a failure of that unit, and a detail whose form no rule gives. -/
def Dev.kilnFail (d : Dev) (b u sev : Nat) (needs : Bool) : Dev :=
  let (v, d) := d.draw 64
  d.occur { die := b, block := klnBlock u, inst := klnInst u, cls := 17, sev := sev, action := 11, detail := v, needs := needs }

/-- The unit goes back into service as it was before the slice: an engine to the pool, a router on its tables, a pipeline to its share or among the spares, a
delivery engine to its slots, a lane to its pack. -/
def Dev.takeBack (d : Dev) (b : Nat) (x : KilnSlice) : Dev :=
  let u := x.unit
  let i := klnInst u
  match klnKind u with
  | 0 => d.setEngState (b * 256 + u) 0
  | 1 => d.routerBack b i
  | 2 => let k := klnStack b u
    match x.sub with
    | some j => if bits (d.rd F.CRY_PIPE_up (ctlIx k)) j 1 = 1 then (d.setPipe k j false).setPipe k (i % 52) true else d.setPipe k (i % 52) false
    | none => d.setPipe k (i % 52) false
  | 3 => (d.stBit F.SSW_STATUS_de_up (Ix.onDie b) i true).on (decide (i < 8)) (fun d => d.st F.SSW_STATUS_spare_busy (Ix.onDie b) 0)
  | _ => (d.stBit F.KEN_STATUS_lane_up (Ix.onDie b) i true).on (decide (i < 8)) (fun d =>
      { d.st F.KEN_STATUS_spare_busy (Ix.onDie b) 0 with ken := { d.ken with standIn := d.ken.standIn.set none b none } })

/-- The row of R496 for a unit that was in service. -/
def Dev.unitReturn (d : Dev) (b : Nat) (x : KilnSlice) (verdict : Nat) : Dev :=
  let u := x.unit
  let i := klnInst u
  if verdict = 2 then
    match klnKind u with
    | 0 => ({ d.setEngState (b * 256 + u) 4 with en := { d.en with out := addNew d.en.out (b * 256 + u) } }).kilnFail b u sevDegrade true
    | 1 => ({ d.setRtState b i 4 with noc := { d.noc with portDown := (portsTo (b * 32 + i)).foldl addNew d.noc.portDown } }).kilnFail b u sevDegrade true
    | 2 => let d := (d.st F.KLN_RES_failed (Ix.on b u) 1).setPipe (klnStack b u) (i % 52) false
      d.kilnFail b u (if (d.freePipes (klnStack b u)).isEmpty then sevDegrade else sevNote) false
    | _ => d.kilnFail b u sevNote false
  else if verdict = 3 && klnKind u = 1 then
    ({ d.setRtState b i 4 with noc := { d.noc with portDown := (portsTo (b * 32 + i)).foldl addNew d.noc.portDown } }).occur
      { die := b, block := 2, inst := i, cls := 8, sev := sevDegrade, action := 6, needs := true }
  else d.takeBack b x

/-- The end of a full test (R497): a unit whose segments have all passed returns to service, unless it has failed again; another verdict leaves it out. -/
def Dev.fullReturn (d : Dev) (b : Nat) (x : KilnSlice) (verdict : Nat) : Dev :=
  let u := x.unit
  let back := verdict = 1 && !d.kln.failedTwice.contains (klnKey b u)
  let d := d.on (verdict = 2) (fun d => { d with kln := { d.kln with failedTwice := addNew d.kln.failedTwice (klnKey b u) } })
  match klnKind u with
  | 0 => if back then ({ d with en := { d.en with out := if d.flag F.PK_ENG_CFG_retire (engIx (b * 256 + u)) then d.en.out else remove d.en.out (b * 256 + u) } }).setEngState (b * 256 + u) 0
    else d.setEngState (b * 256 + u) 4
  | 1 => if back then d.routerBack b (klnInst u) else d.setRtState b (klnInst u) 4
  | _ => d

/-- A slice ends with its pattern count, its signature and the check of the restore: the verdict is kept, the unit returns, and a KILN_RUN is answered. A
full test goes on to its next segment. -/
def Dev.sliceDone (d : Dev) (b : Nat) (x : KilnSlice) (patterns : Nat) (sigOk : Bool) (sig : Nat) (restoreErr : Bool) : Dev :=
  let u := x.unit
  let a := Ix.on b u
  let v := klnVerdict patterns sigOk restoreErr
  let d := ((d.st F.KLN_RES_verdict a v).st F.KLN_RES_segment a x.seg).st F.KLN_RES_patterns a patterns
  let d := (d.stB F.KLN_RES_restore_err a restoreErr).st F.KLN_SIG_sig a sig
  let last := x.seg + 1 = klnSegs u
  let d := if v = 3 then d.incomplete b u else { d with kln := { d.kln with incRun := d.kln.incRun.set 0 (klnKey b u) 0 } }
  if x.full && v = 1 && !last then d.setSlice b (some { x with seg := x.seg + 1 })
  else
    let d := if v = 1 then ({ d with kln := { d.kln with nextSeg := d.kln.nextSeg.set 0 (klnKey b u) (if last then 0 else x.seg + 1) } }).on last (fun d => d.fullPass b u) else d
    let d := d.setSlice b none
    let d := if x.full then d.fullReturn b x v else d.unitReturn b x v
    (d.kilnReply x.cmd b u).kilnNext b

/-- A slice is cut short by a reset, with which the unit's block takes it back, or by EMBER (R494): INCOMPLETE. How many patterns had been applied, and the
signature, no rule gives. -/
def Dev.sliceCut (d : Dev) (b : Nat) (byReset : Bool) : Dev :=
  match d.slice b with
  | none => d
  | some x =>
    let (p, d) := d.draw 7
    let (g, d) := d.draw 64
    if byReset then
      let a := Ix.on b x.unit
      let d := (((d.st F.KLN_RES_verdict a 3).st F.KLN_RES_segment a x.seg).st F.KLN_RES_patterns a p).st F.KLN_SIG_sig a g
      let d := (d.incomplete b x.unit).setSlice b none
      let d := if x.full then d.fullReturn b x 3 else d.takeBack b x
      d.kilnReply x.cmd b x.unit
    else d.sliceDone b x p true g false

end Sys2Proof.Machine
end

