-- ==== Sys2Proof/Machine/TxnOps.lean ====
section
/-! DEFINITION. Transactions and configuration streams as shared operations (chapters The Configuration Stream, Configuration Planes, Regions
and Transactions): restore and rollback, the end of a stream on each path, and the start of one. Log entries: DEDUCED 22, 30, 31, 34, 42. -/

namespace Sys2Proof.Machine

/-! ### Frames that await restore or resync (R116) -/

/-- Bit f: a frame of fabric die f is in the list. -/
def dieMask (l : List Nat) : Nat := ((List.range 12).map (fun f => (l.any (fun a => decide (bits a 20 4 = f))).toNat * 2 ^ f)).sum

/-- Show which dies have frames waiting. -/
def Dev.restoreShow (d : Dev) : Dev :=
  (d.st F.HRT_CFG_RESTORE_restore_dies {} (dieMask d.pl.stale)).st F.HRT_CFG_RESTORE_resync_dies {} (dieMask d.pl.resync)

/-- Add frames to those that await restore. -/
def Dev.markStale (d : Dev) (l : List Nat) : Dev :=
  ({ d with pl := { d.pl with stale := l.foldl addNew d.pl.stale } }).restoreShow

/-- The content of a frame in a plane; an unlisted frame is unconfigured. -/
def frameAt (t : Tbl (List Nat)) (a : Nat) : List Nat := Tbl.get [] t a

/-- Copy frames from the active to the shadow plane: their restore or resync ends. -/
def Dev.copyBack (d : Dev) (l : List Nat) : Dev :=
  let d := { d with pl := { d.pl with
    shadow := l.foldl (fun t a => t.set [] a (frameAt d.pl.active a)) d.pl.shadow
    stale := d.pl.stale.filter (fun a => !l.contains a)
    resync := d.pl.resync.filter (fun a => !l.contains a) } }
  (l.foldl (fun d a => if d.fab.clashes.any (fun e => decide (e.2 = a)) then d.unclash a else d) d).restoreShow

/-! ### The end of a transaction (R116, R123, R125) -/

/-- A default transaction that is no longer its function's leaves `dflt_txn`. -/
def Dev.dropDflt (d : Dev) (t : Nat) : Dev :=
  d.on ((d.txn t).dflt && decide (d.tOwner t < 64) && decide (d.rd F.HRT_FN_STAT_dflt_txn (Ix.at (d.tOwner t)) = t))
    (fun d => d.st F.HRT_FN_STAT_dflt_valid (Ix.at (d.tOwner t)) 0)

/-- Discard a transaction: its frames await restore, its reservation is returned, it takes state `state` with `status`. -/
def Dev.dropTxn (d : Dev) (t state status : Nat) : Dev :=
  let x := d.txn t
  let d := (((d.dropDflt t).unreserve t).setTState t state).st F.HRT_TXN_STAT_status (Ix.at t) status
  let d := d.setTxn t { x with staged := { Staged.empty with frames := x.staged.frames }, trig := none, places := [] }
  d.markStale x.staged.frames

/-! ### A stream's end (R112, R113) -/

/-- Write the error registers, and log the failure. -/
def Dev.streamErr (d : Dev) (code secondary offset frame detail : Nat) : Dev :=
  let d := ((d.st F.HRT_CFG_ERR_code {} code).st F.HRT_CFG_ERR_secondary {} secondary).st F.HRT_CFG_ERR_byte_offset {} offset
  let d := (d.st F.HRT_CFG_ERRADDR_frame_addr {} frame).st F.HRT_CFG_ERRADDR_detail {} detail
  let d := (d.st F.HRT_CFG_STAT_state {} 7).st F.HRT_CFG_STAT_busy {} 0
  d.occur { die := d.hearthDie, block := 15, inst := 0, cls := 1, sev := sevNote, detail := code + secondary * 2 ^ 8 + offset * 2 ^ 16 }

/-- Whether a copy of the slot directory counts before another: both good, by sequence number (R105). -/
def Dev.slotDir (d : Dev) : SlotDir :=
  if d.peat.dirA.good && (!d.peat.dirB.good || decide (d.peat.dirB.seq ≤ d.peat.dirA.seq)) then d.peat.dirA else d.peat.dirB

/-- Whether a slot is valid. -/
def SlotDir.valid (x : SlotDir) (n : Nat) : Bool := if n = 0 then x.valid0 else x.valid1

/-- The controller takes a stream: registers of the last stream are replaced by those of this one (R86, R114). -/
def Dev.beginStream (d : Dev) (path : Path) (source : Nat) (cmd : Option HostCmd) (fn : Nat) : Dev :=
  let d := ((d.st F.HRT_CFG_STAT_state {} 1).st F.HRT_CFG_STAT_source {} source).st F.HRT_CFG_STAT_busy {} 1
  let d := (d.st F.HRT_CFG_STAT_bytes_in {} 0).st F.HRT_CFG_STAT_extra_bytes {} 0
  let d := ((d.st F.HRT_CFG_ERR_code {} 0).st F.HRT_CFG_ERR_secondary {} 0).st F.HRT_CFG_ERR_byte_offset {} 0
  let d := (d.st F.HRT_CFG_ERRADDR_frame_addr {} 0).st F.HRT_CFG_ERRADDR_detail {} 0
  { d with cfg := { d.cfg with path := path, hdr := Hdr.empty, pos := 0, frames := 0, err := none, ended := false, img := Staged.empty,
                               place := { die := 0, rgn := 0, col := 0, bram := 0, vacate := false }, icp := none, req := none, fn := fn, cmd := cmd } }

/-- The controller is free again. -/
def Dev.freeController (d : Dev) : Dev := { d with cfg := { d.cfg with path := .none, cmd := none, icp := none, req := none } }

/-- The fabric die whose internal port owns transaction t. -/
def Dev.icpOf (d : Dev) (t : Nat) : Option Nat := (List.range 12).find? (fun f => Tbl.get none d.pl.icpTxn f = some t)

/-- What a stream of transaction t answers when it ends: its TXN_STREAM command, or the internal port. -/
def Dev.streamReply (d : Dev) (t status detail err : Nat) : Dev :=
  let d := match d.cfg.cmd with
    | some c => d.respond c grpTXN 4 { status := status, detail := detail }
    | none => d
  match d.cfg.icp with
  | some f =>
    let d := (d.st F.FAB_ICP_STAT_state (Ix.onDie f) (if status = 0 then 5 else 6)).st F.FAB_ICP_STAT_err (Ix.onDie f) err
    (d.st F.HRT_TXN_STAT_status (Ix.at t) status).emit (.icpDone f status err)
  | none => d.st F.HRT_TXN_STAT_status (Ix.at t) status

/-- Start-up loads a slot, from step 5 (R66, R68). -/
def Dev.loadSlot (d : Dev) (n : Nat) : Dev :=
  let d := { d with pl := { d.pl with shadow := [] } }
  (d.st F.HRT_BOOT_slot {} n).beginStream .startup n none 255

/-- A start-up attempt has failed: the other slot once, if it is valid; else SAFE (R68, R106, R109). -/
def Dev.startupFailed (d : Dev) : Dev :=
  let d := { d with pl := { d.pl with shadow := [] }, cfg := { d.cfg with path := .none } }
  let other := 1 - d.rd F.HRT_BOOT_slot {}
  if d.fuse.chainIn then d.safeTrigger 6 false
  else if !d.cfg.retried && d.slotDir.valid other && d.mode == .load then
    ({ d with cfg := { d.cfg with retried := true } }).st F.HRT_BOOT_fallback {} 1 |>.loadSlot other
  else d.safeTrigger 9 false

/-- What follows a failed stream on its path (R112). -/
def Dev.pathFailed (d : Dev) (code : Nat) : Dev :=
  match d.cfg.path with
  | .none => d
  | .startup => d.startupFailed
  | .hostLoad =>
    let d := d.markStale d.cfg.img.frames
    let d := match d.cfg.cmd with
      | some c => d.respond c grpIMAGE 2 { status := 2, detail := code }
      | none => d
    d.freeController.safeTrigger 10 true
  | .txn t =>
    let x := d.txn t
    let d := d.setTxn t { x with staged := { x.staged with frames := d.cfg.img.frames.foldl addNew x.staged.frames } }
    let d := (d.st F.HRT_TXN_STAT_stream_err (Ix.at t) code).dropTxn t tFAILED 6
    (d.streamReply t 6 code code).freeController

/-- End the stream with an error: `at_` its offset, `frame` and `detail` where it was found. A body error found before becomes the
secondary code (R112). -/
def Dev.stopStream (d : Dev) (code at_ frame detail : Nat) : Dev :=
  let sec := match d.cfg.err with | some e => e.code | none => 0
  (d.streamErr code sec at_ frame detail).pathFailed code

/-- End the stream with the body error it holds. -/
def Dev.failBody (d : Dev) (e : BodyErr) : Dev := (d.streamErr e.code 0 e.offset e.frame e.detail).pathFailed e.code

/-- EARLY_END, CHAIN_TIMEOUT, STORE_ECC and ABORTED stop a stream at once. -/
def eEARLY_END : Nat := 0x15
/-- STORE_ECC. -/
def eSTORE_ECC : Nat := 0x18
/-- ABORTED. -/
def eABORTED : Nat := 0x1B

/-- Whether a stream is in progress. -/
def Dev.streaming (d : Dev) : Bool := decide (d.cfg.path ≠ .none)

/-- Abort the stream in progress (R112). -/
def Dev.abortStream (d : Dev) : Dev := if d.streaming then d.stopStream eABORTED d.cfg.pos 0 0 else d

/-- A placement is refused (R139): the transaction goes back to the state it came from; frames the stream wrote await restore. -/
def Dev.relocRefused (d : Dev) (t status detail : Nat) : Dev :=
  let d := d.markStale d.cfg.img.frames
  let d := (d.st F.HRT_CFG_STAT_state {} 7).st F.HRT_CFG_STAT_busy {} 0
  let x := d.txn t
  let d := (d.setTxn t { x with staged := { x.staged with frames := d.cfg.img.frames.foldl addNew x.staged.frames } }).setTState t x.from_
  (d.streamReply t status detail 0).freeController

/-- Roll a transaction back; in LOADING its stream first ends with ABORTED (R578). -/
def Dev.rollTxn (d : Dev) (t status : Nat) : Dev :=
  let d := if d.tState t = tLOADING && d.cfg.path = .txn t then d.abortStream else d
  d.dropTxn t tROLLED status

/-- Roll back every open transaction (R121): the next command to each returns `next`. -/
def Dev.rollAll (d : Dev) (next : Nat) : Dev :=
  (List.range 16).foldl (fun d t =>
    if decide (1 ≤ d.tState t) && decide (d.tState t ≤ tARMED) then
      let d := d.rollTxn t next
      d.setTxn t { d.txn t with next := some next }
    else d) d

/-- Roll back a function's open transactions (R455). -/
def Dev.rollOwner (d : Dev) (fn : Nat) : Dev :=
  (List.range 16).foldl (fun d t =>
    if decide (1 ≤ d.tState t) && decide (d.tState t ≤ tARMED) && decide (d.tOwner t = fn) then d.rollTxn t 0 else d) d

/-- A number returns to IDLE; a status its next command is owed stays (R131). -/
def Dev.freeNumber (d : Dev) (t : Nat) : Dev :=
  let next := (d.txn t).next
  (d.setTState t tIDLE).setTxn t { TxnSt.empty with next := next }

/-! ### Regions in reset (R71, R135) -/

/-- A region enters region reset: its flip-flops go to init values and its border outputs hold. -/
def Dev.resetRegion (d : Dev) (f n : Nat) : Dev :=
  if n = 64 then { d with fab := { d.fab with dieSwap := addNew d.fab.dieSwap f } }
  else ({ d with fab := { d.fab with regionReset := addNew d.fab.regionReset (f * 64 + n) } }).enterSwapping f n

/-! ### Triggers (R118, R126, R128, R579) -/

/-- The event of a trigger's code: the position in the list of R54. Line starts are no triggers. -/
def trigEvent : Nat → Option CgEvent
  | 1 => some .frame
  | 2 => some .field
  | 4 => some (.switch false)
  | 5 => some .user
  | _ => none

/-- The house time, rounded down to 2^-16 ns, of frame n of generator `a` plus `line - 1` lines and `off` ns (R53). -/
def Dev.eventTime (d : Dev) (a : Ix) (n line off : Nat) : Nat :=
  let num := d.rd F.HT_CG_CFG_period_num a
  let den := d.rd F.HT_CG_CFG_period_den a
  let lines := d.rd F.HT_CG_CFG_lines a
  ((n * num * lines + (line - 1) * num) * 10 ^ 9 * 2 ^ 16 / (den * lines) + off * 2 ^ 16) * 2 ^ 24

/-- The instants of an event in a frame. -/
def Dev.eventTimes (d : Dev) (a : Ix) (ev : CgEvent) (n : Nat) : List Nat :=
  match ev with
  | .user => [d.eventTime a n (d.rd F.HT_CG_USR_line a) (d.rd F.HT_CG_USR_offset a)]
  | .switch _ =>
    let off := d.rd F.HT_CG_SWP_swp_offset a
    let l2 := d.rd F.HT_CG_SWP_swp_line2 a
    [d.eventTime a n (d.rd F.HT_CG_SWP_swp_line1 a) off] ++ (if l2 = 0 then [] else [d.eventTime a n l2 off])
  | ev => [d.eventTime a n (d.cgLine a ev) 0]

/-- The first instant of an event at or after `t`. -/
def Dev.nextEvent (d : Dev) (a : Ix) (ev : CgEvent) (t : Nat) : Nat :=
  let num := d.rd F.HT_CG_CFG_period_num a
  let den := d.rd F.HT_CG_CFG_period_den a
  let n := t * den / (num * 10 ^ 9 * nsUnits)
  let all := ([n - 1, n, n + 1, n + 2].flatMap (d.eventTimes a ev)).filter (fun x => decide (t ≤ x))
  all.foldl min (all.headD t)

/-- 20 µs, the least lead of a trigger (R128). -/
def leadTime : Nat := 20000 * nsUnits

/-- Where a trigger falls: its house time; or the status LATE (7) or RANGE (0x12) that refuses it. -/
def Dev.trigger (d : Dev) (x : Trigger) : Except Nat Nat :=
  match x with
  | .instant sec ns =>
    let t := ((d.sec / 2 ^ 32 * 2 ^ 32 + sec % 2 ^ 32) * 10 ^ 9 + ns) * nsUnits
    if 10 ^ 9 ≤ ns then .error 0x12 else if t < d.ht + leadTime then .error 7 else .ok t
  | .cadence b g e =>
    let a := Ix.on b g
    match trigEvent e with
    | none => .error 0x12
    | some ev => if 3 < b || 63 < g then .error 0x12 else if d.cgIssues a ev then .ok (d.nextEvent a ev (d.ht + leadTime)) else .error 0x12

/-- Seconds [31:0] and nanoseconds of a house time, as `HRT_TXN_AT` lays them out. -/
def timeWord (t : Nat) : Nat := t / nsUnits % 10 ^ 9 + t / (nsUnits * 10 ^ 9) % 2 ^ 32 * 2 ^ 32

end Sys2Proof.Machine
end

