-- ==== Sys2Proof/Machine/ModeOps.lean ====
section
/-! DEFINITION. Resets and changes of mode as shared operations (chapter Modes, Start-up and Reset): device reset, start-up steps 1 to 4,
base-die and fabric-die resets, leaving BENCH and SAFE. Log entries: DEDUCED 19, 23, 24, 26, 41, 82, 83, 92, 99; DESIGN CHOICE 8, 9, 10. -/

namespace Sys2Proof.Machine

/-! ### Device reset (R71, R82, R480) -/

/-- Records at a device reset: every handling ends; the ring's records survive. -/
def FltSt.afterReset (r : FltSt) : FltSt :=
  { ring := (r.ring.filter (fun e => decide (e.1 < 256))).map (fun e => (e.1, e.2.map (fun x => { x with stage := 0 }))), era := r.era + 1,
    readPos := [], notify := [], rejected := [] }

/-- The causes that survive the reset they record (R83). -/
def causeFlds : List Fld := [F.HRT_RST_CAUSE_por, F.HRT_RST_CAUSE_host_reset, F.HRT_RST_CAUSE_ember_cold]

/-- Device reset (R71): everything but the fuses, the battery domain, the peat store, the ledger storage and the fault log goes to its reset
state; the outputs are fenced, and the device is held until POR_N is released, unless the host commanded the reset. -/
def Dev.deviceReset (d : Dev) (cause : Option Fld) : Dev :=
  let r := Dev.reset
  let n : Dev :=
    { r with free := d.free, out := d.out, fuse := d.fuse, bbk := d.bbk, peat := d.peat, led := d.led, flt := d.flt.afterReset,
             hst := { r.hst with bank0 := d.hst.bank0, bank1 := d.hst.bank1, bootBank := d.hst.bootBank },
             clk := { r.clk with refOk := d.clk.refOk },
             crd := { r.crd with fieldMap := d.crd.fieldMap },
             mem := { r.mem with hbm := d.mem.hbm, blk := d.mem.blk },
             lsh := { r.lsh with tap := d.lsh.tap },
             pwr := { r.pwr with seq := d.pwr.seq, record := d.pwr.record, newer := d.pwr.newer, trip := d.pwr.trip, warm := d.pwr.warm, level := d.pwr.level } }
  let n := n.st F.HRT_RST_CAUSE_por {} 0
  let n := causeFlds.foldl (fun (n : Dev) (f : Fld) => n.st f {} (max (d.rd f {}) (decide (cause = some f)).toNat)) n
  let n := n.st F.HRT_MODE_fence_pin {} (d.rd F.HRT_MODE_fence_pin {})
  ((n.st F.HRT_MODE_fenced {} 1).emit (.pin "SAFE_N" false)).emit (.pin "CHAIN_DONE_N" false)

/-! ### Start-up, steps 1 to 4 (R66) -/

/-- The registers that show fuses and the battery domain (R114, R451). -/
def Dev.fuseRegs (d : Dev) : Dev :=
  let x := d.fuse
  let present := ((List.range 4).map (fun k => (decide (x.aesKey.getD k 0 ≠ 0)).toNat * 2 ^ k)).sum
  let d := (d.st F.HRT_CFG_SEC_key_present {} present).st F.HRT_CFG_SEC_key_revoked {} x.aesRevoke
  let d := (d.stB F.HRT_CFG_SEC_bbk_valid {} d.bbk.key.isSome).stB F.HRT_CFG_SEC_tamper_seen {} d.bbk.tamperLow
  let d := (d.stB F.HRT_CFG_SEC_bbk_allowed {} x.bbkAllowed).stB F.HRT_CFG_SEC_sig_required {} x.sigRequired
  let d := d.st F.HRT_CFG_SEC_svn_fuse {} x.svnFuse
  let d := (d.stB F.HRT_CFG_CHAIN_chain_in {} x.chainIn).stB F.HRT_CFG_CHAIN_chain_out_off {} x.chainOutOff
  d.st F.HRT_HEARTH_fw_svn {} x.fwSvn

/-- Show the slot directory. -/
def Dev.dirRegs (d : Dev) : Dev :=
  let x := d.slotDir
  let d := (d.stB F.HRT_CFG_SEC_slot0_valid {} x.valid0).stB F.HRT_CFG_SEC_slot1_valid {} x.valid1
  ((d.st F.HRT_CFG_SEC_slot0_svn {} x.svn0).st F.HRT_CFG_SEC_slot1_svn {} x.svn1).st F.HRT_CFG_SEC_boot_pref {} x.bootPref

/-- The physical functions that are present (R452). -/
def Dev.functionsUp (d : Dev) : Dev :=
  let up := fun (d : Dev) (n : Nat) => (d.st F.HRT_FN_STAT_type (Ix.at n) 1).st F.HRT_FN_STAT_active (Ix.at n) 1
  ((up d 0).on d.fuse.hostaSplit (fun d => up d 62)).on d.fuse.hostbEn (fun d => up d 63)

/-- The firmware in a bank. -/
def Dev.bank (d : Dev) (n : Nat) : FwBank := if n = 0 then d.hst.bank0 else d.hst.bank1

/-- Step 2: both Hearth controllers run the boot bank; routers start on Kindling's default tables. -/
def Dev.step2 (d : Dev) : Dev :=
  let d := (d.fuseRegs.functionsUp).st F.HRT_BOOT_step {} 2
  let v := (d.bank d.hst.bootBank).version
  let d := { d with hst := { d.hst with runBank := d.hst.bootBank, standbyBank := d.hst.bootBank } }
  let d := ((d.st F.HRT_HEARTH_standby_ready {} 1).st F.HRT_HEARTH_fw_active {} v).st F.HRT_HEARTH_fw_standby {} v
  let d := { d with noc := { d.noc with kindled := true } }
  let d := allRouters.foldl (fun (d : Dev) (n : Nat) => d.setRtState (n / 32) (n % 32) 1) d
  (List.range 4).foldl (fun (d : Dev) (b : Nat) =>
    let d := (d.st F.SSW_STATUS_de_up (Ix.onDie b) 0x1FF).st F.KEN_STATUS_lane_up (Ix.onDie b) 0x1FF
    let d := (List.range 2).foldl (fun (d : Dev) (c : Nat) => d.st F.CRY_PIPE_up { die := b, u := c } (2 ^ 48 - 1)) d
    (List.range 8).foldl (fun (d : Dev) (r : Nat) => (d.st F.LN_REF_present (Ix.on b r) 1).st F.LN_REF_in_range (Ix.on b r) 1) d) d

/-- Key IDs 120 and 125 to 127 are drawn at step 4 (R421). -/
def Dev.deviceKeys (d : Dev) : Dev :=
  let d := (List.range 8).foldl (fun (d : Dev) (i : Nat) => d.st F.CRY_KEYSTATE_device (Ix.at (120 + i)) 1) d
  [(120, 1), (125, 1), (126, 1), (127, 2)].foldl (fun (d : Dev) (e : Nat × Nat) =>
    let (v, d) := d.draw 256
    let d := (d.st F.CRY_KEYSTATE_state (Ix.at e.1) 1).st F.CRY_KEYSTATE_level (Ix.at e.1) e.2
    { d with mem := { d.mem with keyVal := d.mem.keyVal.set 0 e.1 v } }) d

/-- Records left open by the last run are closed, unresolved (R480). -/
def Dev.closeOld (d : Dev) : Dev :=
  (d.flt.recs.foldl (fun (d : Dev) (e : Nat × FltRec) =>
    d.on e.2.openR (fun d => d.putRec e.1 (some { e.2 with openR := false, unresolved := true, action := 13 }))) d).resched

/-- The register fields that an Ember record saves: `CRY_KEYSTATE` and the regions of both controllers of every base die. -/
def savedKey (k : Nat) : Bool :=
  let addr := k / 64
  let o := (addr - 0xF000000000) % 0x10000000
  decide (0xF000000000 ≤ addr) && decide (addr < 0xF040000000) &&
  ((decide (0x3001000 ≤ o) && decide (o < 0x3001400)) || (decide (0x3101000 ≤ o) && decide (o < 0x3101800)) || (decide (0x3201000 ≤ o) && decide (o < 0x3201800)))

/-- Restore the newest restorable Ember record (R443, R518, R520): house time, counter blocks, region records and key metadata of the stacks that it
retains. A region of a lost stack is destroyed; a key ID that has no retained region and is not CONF becomes FREE. -/
def Dev.emberRestore (d : Dev) (r : EmberRec) : Dev :=
  let d := { d with ht := r.ht, mem := { d.mem with rgn := r.rgn, page := r.page }, mp := { d.mp with pn := r.pn },
                    regs := r.regs.foldl (fun (t : Tbl Nat) (e : Nat × Nat) => t.put e.1 e.2) d.regs }
  let d := (List.range 8).foldl (fun (d : Dev) (k : Nat) =>
    if r.retained.contains k then
      (List.range 64).foldl (fun (d : Dev) (n : Nat) => if d.rd F.CRY_RGN_state (rgnIx k n) = 0 then d else d.st F.CRY_RGN_state (rgnIx k n) 5)
        (d.st F.HBM_STATUS_retained (ctlIx k) 1)
    else (List.range 64).foldl (fun (d : Dev) (n : Nat) => if d.rd F.CRY_RGN_state (rgnIx k n) = 0 then d else d.destroyRegion k n) d) d
  let d := (List.range 119).foldl (fun (d : Dev) (i : Nat) =>
    let a := Ix.at (i + 1)
    if d.rd F.CRY_KEYSTATE_state a = 0 then d
    else if d.rd F.CRY_KEYSTATE_level a = 1 || !(d.keyRegions (i + 1)).isEmpty then d.st F.CRY_KEYSTATE_state a 3
    else (((d.st F.CRY_KEYSTATE_state a 0).st F.CRY_KEYSTATE_level a 0).st F.CRY_KEYSTATE_owner a 0).st F.CRY_KEYSTATE_kcv a 0) d
  d.st F.HRT_BOOT_ember_restored {} 1

/-- The contents of a stack that is not retained are gone after training (R443). -/
def Dev.dropStacks (d : Dev) (retained : List Nat) : Dev :=
  { d with mem := { d.mem with hbm := d.mem.hbm.filter (fun e => retained.contains (e.1 / stackBytes))
                               blk := d.mem.blk.filter (fun e => retained.contains (e.1 / (stackBytes / 64))) } }

/-- The restorable record, with the stacks that count as retained: those it names, where VCC_HBM stayed valid throughout and the self-refresh marker reads
back after training (R443), which `kept` says. -/
def Dev.restorable (d : Dev) (kept : List (Fin 8)) : Option EmberRec :=
  (d.pwr.record.filter (fun r => !r.consumed)).map (fun r => { r with retained := r.retained.filter (fun k => kept.any (fun x => decide (x.val = k))) })

/-- What start-up reports of the last sag (R132, R520): transactions that were lost, and an incomplete newer record. -/
def Dev.emberReport (d : Dev) : Dev :=
  let d := d.on d.pwr.newer (fun d => d.occur { die := 0, block := 13, inst := 0, cls := 20, sev := sevDegrade })
  match d.pwr.record with
  | some r => if r.consumed || r.txns.isEmpty then d
      else d.occur { die := d.hearthDie, block := 15, inst := 0, cls := 1, sev := sevNote, detail := (r.txns.map (fun t => 2 ^ t)).sum }
  | none => d

/-- Entry from COLD into SAFE (R61): no loadable image, or a failed self-check. -/
def Dev.coldSafe (d : Dev) (cause : Nat) : Dev :=
  ((d.setMode .safe .safe).st F.HRT_MODE_safe_cause {} cause).occur
    { die := d.hearthDie, block := 15, inst := 0, cls := 4, sev := sevDevice, action := 14, detail := cause }

/-- Step 4: the Ember record, the credit pools, the device keys; HBM training starts; a slot is chosen and LOAD entered (R66, R106, R109). -/
def Dev.step4 (d : Dev) (kept : List (Fin 8)) : Dev :=
  let d := { d with led := Dev.reset.led }
  let d := d.closeOld.emberReport
  let d := match d.restorable kept with
    | some r => (d.dropStacks r.retained).emberRestore r
    | none => d.dropStacks []
  let d := d.deviceKeys.dirRegs
  let d := (List.range 8).foldl (fun (d : Dev) (k : Nat) => d.st F.HBM_STATUS_state (ctlIx k) 1) d
  let d := d.st F.HRT_BOOT_step {} 4
  let x := d.slotDir
  if d.fuse.chainIn then (d.setMode .load .load).beginStream .startup 4 none 255
  else if x.valid x.bootPref then (d.setMode .load .load).loadSlot x.bootPref
  else if x.valid (1 - x.bootPref) then (d.setMode .load .load).loadSlot (1 - x.bootPref)
  else d.coldSafe 6

/-- The window of rail r in mV (R505). -/
def railWindow (r : Nat) : Nat × Nat :=
  match r with
  | 0 | 7 => (1746, 1854)
  | 1 | 2 | 3 => (873, 927)
  | 4 => (1067, 1133)
  | _ => (1164, 1236)

/-- A rail's reading in `PWR_RAIL`. -/
def Dev.railRead (d : Dev) (b r mv : Nat) : Dev :=
  let a := Ix.on b r
  (d.st F.PWR_RAIL_mv a mv).stB F.PWR_RAIL_valid a (decide ((railWindow r).1 ≤ mv) && decide (mv ≤ (railWindow r).2))

/-- Every rail stands inside its window; where in it, no rule says. -/
def Dev.railsValid (d : Dev) : Dev :=
  (List.range 32).foldl (fun (d : Dev) (k : Nat) =>
    if d.flag F.PWR_RAIL_valid (Ix.on (k / 8) (k % 8)) then d else
    let w := railWindow (k % 8)
    let (v, d) := d.draw 8
    d.railRead (k / 8) (k % 8) (w.1 + v % (w.2 - w.1 + 1))) d

/-- A field of the PWR block that shows one state of the device on every base die. -/
def Dev.pwrAll (d : Dev) (f : Fld) (v : Nat) : Dev := (List.range 4).foldl (fun (d : Dev) (b : Nat) => d.st f (Ix.onDie b) v) d

/-- Kindling, steps 1 to 4, and the entry into LOAD or SAFE. The hold-up capacitor charges from step 1 (R513). -/
def Dev.startup (d : Dev) (selfCheckOk : Bool) (kept : List (Fin 8)) : Dev :=
  let d := { d with clk := { d.clk with held := false, stopped := false }, root := 0 }
  let d := d.railsValid.pwrAll F.PWR_STATUS_charging 1
  let d := d.step2
  if selfCheckOk then d.step4 kept else d.coldSafe 8

/-! ### Leaving BENCH and SAFE (R61, R81) -/

/-- Halted engines run on (R61, R402): an engine that halted without a task is idle. -/
def Dev.resumeEngine (d : Dev) (e : Nat) : Dev :=
  match d.taskOn e with
  | some t => ((d.setTask e (some { t with since := d.root })).setEng e { d.eng e with excHeld := none, llCut := false }).setEngState e 1
  | none => d.setEngState e 0

/-- Engines that are halted. -/
def Dev.haltedEngines (d : Dev) : List Nat := (List.range 1024).filter (fun e => decide (d.engState e = 3))

/-- BENCH is left for REHEARSE (R61). -/
def Dev.leaveBench (d : Dev) : Dev :=
  if d.mode == .bench then (d.haltedEngines.foldl (fun (d : Dev) (e : Nat) => d.resumeEngine e) d).setMode .rehearse .rehearse else d

/-- The conditions of R81 that fail: bit 0 no committed image, 1 FENCE_N, 2 REFCLK_ROOT, 3 `safe_pending`. -/
def Dev.safeBars (d : Dev) : Nat :=
  (!d.pl.image).toNat + 2 * d.rd F.HRT_MODE_fence_pin {} + 4 * (!d.clk.refOk).toNat + 8 * d.rd F.HRT_MODE_safe_pending {}

/-- Whether a MODE_SET may ask for a change from one mode to another (R61, R62, R65). -/
def modeAllowed : Mode → Mode → Bool
  | .rehearse, .onair | .onair, .rehearse | .bench, .rehearse | .safe, .rehearse | .safe, .onair => true
  | .load, .safe | .rehearse, .safe | .onair, .safe | .bench, .safe | .repair, .safe => true
  | _, _ => false

/-- Make a change that a host MODE command asked for. -/
def Dev.hostMode (d : Dev) (m : Mode) : Dev :=
  match d.mode, m with
  | _, .safe => d.safeTrigger 1 true
  | .bench, _ => d.leaveBench
  | .safe, m => ((d.setMode m m).st F.HRT_MODE_safe_cause {} 0).unfence
  | _, m => d.setMode m m

/-! ### Base-die reset (R72, R73, R445) -/

/-- Every cord and light cord. -/
def allCords : List CordId := (List.range 640).map (fun k => .cord (Fin.ofNat 640 k)) ++ (List.range 32).map (fun k => .light (Fin.ofNat 32 k))

/-- Cords with an end on base die b. -/
def cordsOf (b : Nat) : List CordId :=
  allCords.filter (fun c =>
    let at_ := fun (o : Option Ix) => match o with | some a => decide (a.die = b) | none => false
    at_ (cordEnds c).1 || at_ (cordEnds c).2)

/-- Engines of a base die lose what they ran. -/
def Dev.engDieReset (d : Dev) (b : Nat) : Dev :=
  let d := { d with en := { d.en with eng := d.en.eng.filter (fun e => decide (e.1 / 256 ≠ b)) } }
  (List.range 256).foldl (fun (d : Dev) (i : Nat) => if d.engState (b * 256 + i) = 4 then d else d.setEngState (b * 256 + i) 0) d

/-- Armed transactions that touch base die b lose their launch (R121); launched ones are applied there at its return (R122). -/
def Dev.dieDownTxns (d : Dev) (touched : Nat → Bool) (dies : List Nat) : Dev :=
  (List.range 16).foldl (fun (d : Dev) (t : Nat) =>
    if !touched t then d
    else if d.tState t = tARMED then d.cancelLaunch t 8
    else if d.tState t = tLAUNCHED then { d with pl := { d.pl with rejoin := dies.foldl addNew d.pl.rejoin } }
    else d) d

/-- Whether a transaction touches base die b, its fabric dies included. -/
def Dev.touchesBase (d : Dev) (b t : Nat) : Bool :=
  bits (d.rd F.HRT_TXN_STAT_base_mask (Ix.at t)) b 1 = 1 || (d.txn t).staged.frames.any (fun a => decide (bits a 20 4 / 3 = b))

/-- The FULL regions of a stack whose controller lost its caches (R445): as if every region had failed at its root. -/
def Dev.loseCaches (d : Dev) (k : Nat) : Dev :=
  (List.range 64).foldl (fun (d : Dev) (n : Nat) => if d.rd F.CRY_RGN_state (rgnIx k n) = 0 then d else d.failMeta k n 0 (2 ^ 24)) d

/-- Base die b goes into base-die reset: with the drain of R72, or, where its clock is lost, without (R73). -/
def Dev.baseReset (d : Dev) (b : Nat) (clockLoss : Bool) : Dev :=
  let x := Dom.base (Fin.ofNat 4 b)
  let d := (d.dieDownTxns (d.touchesBase b) [b]).closeDom x
  let d := (d.endDrain x).sliceCut b true
  let d := (List.range 2).foldl (fun (d : Dev) (c : Nat) =>
    let k := 2 * b + c
    let d := d.on clockLoss (fun d => d.loseCaches k)
    d.on (decide (d.rd F.HBM_STATUS_state (ctlIx k) = 2)) (fun d => d.st F.HBM_STATUS_state (ctlIx k) 3)) d
  let d := (d.noc.bufs.filter (fun y => decide (y.router / 32 = b))).foldl (fun (d : Dev) (y : NocBuf) => d.unbuffer y.pkt.id) d
  let d := (List.range 32).foldl (fun (d : Dev) (r : Nat) => if d.rtState b r = 4 then d else d.setRtState b r 5) d
  let d := (cordsOf b).foldl (fun (d : Dev) (c : CordId) => if d.cordState c = 5 then d else (d.setCord c { CordSt.fresh with bad := (d.cord c).bad, outst := (d.cord c).outst, owed := (d.cord c).outst.any (fun n => decide (0 < n)) }).setCordState c 1) d
  let d := (d.kenDieReset b).engDieReset b
  let d := (List.range 96).foldl (fun (d : Dev) (k : Nat) => d.gateNet (3 * b + k / 32) (k % 32)) d
  let d := { d with ssw := { d.ssw with slots := d.ssw.slots.filter (fun e => decide (e.1 / 1024 ≠ b)), merges := d.ssw.merges.filter (fun e => decide (e.1 / 1024 ≠ b)) }
                    obs := { d.obs with fifo := d.obs.fifo.set [] b [] }
                    clk := { d.clk with inReset := [b, 4 + 3 * b, 5 + 3 * b, 6 + 3 * b].foldl addNew d.clk.inReset } }
  let o := d.rd F.HRT_RST_CAUSE_base_reset {}
  let d := d.st F.HRT_RST_CAUSE_base_reset {} (o ||| 2 ^ b)
  let d := d.st F.HRT_RST_CAUSE_fabric_reset {} (d.rd F.HRT_RST_CAUSE_fabric_reset {} ||| 7 * 2 ^ (3 * b))
  let d := d.on (decide (b % 2 = 0) && decide (b ≠ d.hearthDie)) (fun d => (d.st F.HRT_HEARTH_standby_ready {} 0).st F.HRT_HEARTH_fw_standby {} 0)
  d.on clockLoss (fun d => d.st F.HRT_RST_CAUSE_clock_loss {} (d.rd F.HRT_RST_CAUSE_clock_loss {} ||| 2 ^ b))

/-- Count back every outstanding credit of base die b but for those of its cords and the Kennel's tokens, which have returns of their own (R197, R226,
R256, R410, R441). -/
def Dev.countBack (d : Dev) (b : Nat) : Dev :=
  (d.led.out.filter (fun e => decide (e.1 / 4096 / 8 = b) && decide (e.1 / 4096 % 8 ≠ 1) && decide (e.1 / 4096 % 8 ≠ 3))).foldl (fun (d : Dev) (e : Nat × Nat) =>
    d.giveBack b (e.1 / 4096 % 8) (e.1 % 4096) e.2) d

/-- The ledger has compared both ends of a die's cords: their credits are counted back (R73, R197). -/
def Dev.cordsBack (d : Dev) (b : Nat) : Dev :=
  (cordsOf b).foldl (fun (d : Dev) (c : CordId) => d.setCord c { d.cord c with outst := [0, 0, 0, 0], buffer := [0, 0, 0, 0], owed := false }) d

/-- A die that rejoins applies its share of a commit from the journal (R122). -/
def Dev.rejoinCommit (d : Dev) (dies : List Nat) : Dev :=
  if dies.any (fun n => d.pl.rejoin.contains n) then
    ({ d with pl := { d.pl with rejoin := d.pl.rejoin.filter (fun n => !dies.contains n) } }).st F.HRT_COMMIT_LAST_rejoined {} 1
  else d

/-- Base die b returns (R72, R73): dividers re-align, the house-time copy is loaded, the stacks leave self-refresh, routers reopen; its cords retrain
as CORD_TRAINING. -/
def Dev.baseReturn (d : Dev) (b : Nat) : Dev :=
  let dies := [b, 4 + 3 * b, 5 + 3 * b, 6 + 3 * b]
  let d := { d with clk := { d.clk with inReset := d.clk.inReset.filter (fun n => !dies.contains n), clockLost := remove d.clk.clockLost b }
                    htx := { d.htx with dev := d.htx.dev.set 0 b 0 } }
  let d := d.rejoinCommit dies
  let d := ((d.cordsBack b).countBack b).st F.HT_ALIGN_invalid (Ix.onDie b) 0
  let d := (List.range 2).foldl (fun (d : Dev) (c : Nat) =>
    let a := ctlIx (2 * b + c)
    d.on (decide (d.rd F.HBM_STATUS_state a = 3) && decide (bits (d.rd F.PWR_GATE_hbm_sr (Ix.onDie b)) c 1 = 0)) (fun d => d.st F.HBM_STATUS_state a 2)) d
  let d := (List.range 32).foldl (fun (d : Dev) (r : Nat) => if d.rtState b r = 5 then d.setRtState b r 1 else d) d
  let d := (List.range 96).foldl (fun (d : Dev) (k : Nat) => d.ungateNet (3 * b + k / 32) (k % 32)) d
  (d.openDom (.base (Fin.ofNat 4 b))).retryHeld

/-! ### Fabric-die reset (R71, R75) -/

/-- Fabric die f goes into reset: its flip-flops go to init values, its clocks stop, its ports answer DOMOFF. -/
def Dev.fabricReset (d : Dev) (f : Nat) : Dev :=
  let d := d.dieDownTxns (fun t => (d.txn t).staged.frames.any (fun a => decide (bits a 20 4 = f)) ||
    (d.txn t).staged.regs.any (fun e => decide (e.1.info.space = .fabric) && decide (e.2.die = f))) [4 + f]
  let d := { d with clk := { d.clk with inReset := addNew d.clk.inReset (4 + f) },
                    obs := { d.obs with stim := d.obs.stim.filter (fun e => decide (e.1 / 8 ≠ f)) } }
  let d := (List.range 32).foldl (fun (d : Dev) (n : Nat) => d.gateNet f n) d
  d.st F.HRT_RST_CAUSE_fabric_reset {} (d.rd F.HRT_RST_CAUSE_fabric_reset {} ||| 2 ^ f)

/-- Fabric die f leaves reset (R75). -/
def Dev.fabricReturn (d : Dev) (f : Nat) : Dev :=
  let d := { d with clk := { d.clk with inReset := remove d.clk.inReset (4 + f) } }
  (List.range 32).foldl (fun (d : Dev) (n : Nat) => d.ungateNet f n) (d.rejoinCommit [4 + f])

end Sys2Proof.Machine
end

