-- ==== Sys2Proof/Machine/RegAct.lean ====
section
/-! DEFINITION. What a register's new value does at once, beside being its new value: one place for direct writes, transactions and images. Log entries: DEDUCED 18, 45, 85. -/

namespace Sys2Proof.Machine

/-! ### Fabric clocks (R162, R170) -/

/-- A changed PLL program (R170): the nets that the PLL feeds are gated until it has locked again. -/
def Dev.pllProgram (d : Dev) (a : Ix) : Dev :=
  ((d.pllShow a.die a.i false).st F.FAB_PLL_STAT_ref_bad a 0 |>.st F.FAB_PLL_STAT_ref_khz a 0).gatePll a.die a.i

/-- A net's changed source: it runs on from a running source, and is gated without one. -/
def Dev.netSource (d : Dev) (a : Ix) : Dev := if d.netRunning a.die a.i then d.ungateNet a.die a.i else d.gateNet a.die a.i

/-! ### Power gating (R508, R509) -/

/-- The domain of bit n of `PWR_GATE` of base die b; a fabric clock row is no domain of R225. -/
def gateDom (b n : Nat) : Option Dom :=
  if n < 8 then some (.pack (Fin.ofNat 32 (8 * b + n)))
  else if n < 16 then some (.lanes (Fin.ofNat 4 b) (Fin.ofNat 8 (n - 8)))
  else if n < 52 then none
  else some (.stack (Fin.ofNat 8 (2 * b + (n - 52))))

/-- The contents that gating loses: pack, instruction and local memories; a row's block and deep RAM; the adaptation of a group's lanes. -/
def Dev.gateLoss (d : Dev) (b n : Nat) : Dev :=
  if n < 8 then
    let p := 8 * b + n
    let d := { d with en := { d.en with pack := d.en.pack.set PackSt.fresh p PackSt.fresh
                                        eng := d.en.eng.filter (fun e => decide (e.1 / 32 ≠ p)) } }
    (List.range 32).foldl (fun (d : Dev) (i : Nat) => if d.engState (p * 32 + i) = 4 then d else d.setEngState (p * 32 + i) 6) d
  else if n < 16 then
    (List.range 4).foldl (fun (d : Dev) (i : Nat) => d.setLane b (4 * (n - 8) + i) LaneSt.fresh) d
  else if n < 52 then
    let f := 3 * b + (n - 16) / 12
    let out := fun (e : Nat) => decide (bits e 20 4 ≠ f) || decide (bits e 16 4 ≠ (n - 16) % 12)
    { d with pl := { d.pl with bram := d.pl.bram.filter (fun e => out e.1), deep := d.pl.deep.filter (fun e => out e.1) } }
  else d.on (d.rd F.HBM_STATUS_state (ctlIx (2 * b + (n - 52))) = 2) (fun d => d.st F.HBM_STATUS_state (ctlIx (2 * b + (n - 52))) 3)

/-- Gate a domain: it closes, drains, and only then loses its power. -/
def Dev.gateOff (d : Dev) (b n : Nat) : Dev :=
  let d := match gateDom b n with
    | some x => (d.closeDom x).endDrain x
    | none => d
  d.gateLoss b n

/-- A write of `PWR_GATE`: domains newly gated lose their power; ungated ones keep their closing mark until they have woken. -/
def Dev.gateSet (d old : Dev) (a : Ix) : Dev :=
  let v := d.plainValue' .PWR_GATE a
  let o := old.plainValue' .PWR_GATE a
  (List.range 54).foldl (fun (d : Dev) (n : Nat) => d.on (decide (bits v n 1 = 1) && decide (bits o n 1 = 0)) (fun d => d.gateOff a.die n)) d

/-- VHOLD is charged to 12.6 V, and again once it has fallen below 12.3 V; not in EMBER, and not with the charger off (R513). -/
def Dev.charge (d : Dev) : Dev :=
  let mv := d.rd F.PWR_STATUS_vhold_mv {}
  if d.mode == .ember || !d.flag F.PWR_HOLD_chg_en {} || decide (12600 ≤ mv) then d.pwrAll F.PWR_STATUS_charging 0
  else if mv < 12300 then d.pwrAll F.PWR_STATUS_charging 1 else d

/-- A write of `PWR_HOLD`: the charger follows `chg_en`, and `test_go` asks for a measurement (R515). -/
def Dev.holdSet (d : Dev) : Dev :=
  let d := { d with pwr := { d.pwr with capAsked := d.pwr.capAsked || d.flag F.PWR_HOLD_test_go {} } }
  d.charge

/-! ### Observation (R502, R515, R522, R531, R538) -/

/-- The list of counters that count follows `enable`. -/
def Dev.evtEnable (d : Dev) (a : Ix) : Dev :=
  let k := a.die * 256 + a.i
  { d with obs := { d.obs with evtOn := if d.flag F.EVT_SEL_enable a then addNew d.obs.evtOn k else remove d.obs.evtOn k } }

/-- The list of fabric counters that count. -/
def Dev.fabEvtEnable (d : Dev) (a : Ix) : Dev :=
  let k := a.die * 32 + a.i
  { d with obs := { d.obs with fabEvtOn := if d.flag F.FAB_EVT_SEL_enable a then addNew d.obs.fabEvtOn k else remove d.obs.fabEvtOn k } }

/-- Remove the head packet of base die b's FIFO. -/
def Dev.tracePop (d : Dev) (b : Nat) : Dev :=
  let q := (Tbl.get [] d.obs.fifo b).drop 1
  ({ d with obs := { d.obs with fifo := d.obs.fifo.set [] b q } }).st F.EVT_TR_STAT_fifo_level (Ix.onDie b) q.length

/-- A test record (R502): class TEST, source FLT of the die whose address was written, closed at once. -/
def Dev.injectRecord (d : Dev) (die : Nat) : Dev :=
  d.occur { die := die, block := 12, inst := 0, cls := 0, sev := d.rd F.FLT_INJECT_severity {} }

/-- The session closes (R538): rights and nonce go; BENCH is left. -/
def Dev.closeSession (d : Dev) : Dev :=
  let d := d.st F.LSH_STAT_rights {} 0
  let d := { d with lsh := { d.lsh with nonce := none, wait := none } }
  d.leaveBench

/-! ### After a write -/

/-- What follows when the registers of `old` have become those of `d` by a write of register `r`: `die` is the die whose address the write named. -/
def Dev.afterWrite (d old : Dev) (r : Reg) (a : Ix) (die : Nat) : Dev :=
  let same := decide (old.plainValue' r a = d.plainValue' r a)
  match r with
  | .HT_CFG => if same && d.htx.servoOn then d else d.htSelect
  | .HT_STEP => d.htStep (signed 64 (d.rd F.HT_STEP_step {}))
  | .HT_PPS_SEC => { d with htx := { d.htx with ppsSecSet := true } }
  | .HT_HOST_ADJ => d.hostAdj (d.plainValue' .HT_HOST_ADJ {})
  | .HT_CG_CFG | .HT_CG_SWP | .HT_CG_USR => if same then d else d.cgProgram a
  | .FAB_PLL_CFG => if same then d else d.pllProgram a
  | .FAB_GNET => if old.rd F.FAB_GNET_src a = d.rd F.FAB_GNET_src a && old.rd F.FAB_GNET_idx a = d.rd F.FAB_GNET_idx a then d else d.netSource a
  | .NOC_INIT_CFG => if d.flag F.NOC_INIT_CFG_hist_clr a then d.clearInitStats a else d
  | .LN_CFG => if same then d else d.laneSet a.die a.i
  | .LN_NL_CFG => if same then d else d.linkSet a.die a.i
  | .LN_ERRINJ => if d.flag F.LN_ERRINJ_go a then d.injectGo a.die a.i else d
  | .MP_RXF_CFG => if same then d else d.rxFlowSet a
  | .MP_SDI_CFG => if same then d else d.sdiSet a
  | .KEN_QCFG => d.queueSet a (old.flag F.KEN_QCFG_enable a)
  | .KEN_QCMD => d.qcmd (a.die * 2048 + a.i) (d.rd F.KEN_QCMD_cmd a)
  | .CRY_LINK => if d.flag F.CRY_LINK_switch a then d.linkSwitch a.die a.i else d
  | .FLT_INJECT => if d.flag F.FLT_INJECT_go {} then d.injectRecord die else d
  | .PWR_GATE => d.gateSet old a
  | .PWR_HOLD => d.holdSet
  | .EVT_SEL => d.evtEnable a
  | .FAB_EVT_SEL => d.fabEvtEnable a
  | .EVT_TR_POP => if d.flag F.EVT_TR_POP_pop a then d.tracePop a.die else d
  | .LSH_CFG => if d.flag F.LSH_CFG_port_en {} then d else d.closeSession
  | _ => d

/-- A direct write with what follows from it; none where it is rejected whole. -/
def Dev.writeReg (d : Dev) (w : Writer) (r : Reg) (a : Ix) (v die : Nat) : Option Dev :=
  match d.directWrite w r a v with
  | none => none
  | some d' =>
    let live := r.info.fields.any (fun f => f.writable && (f.chg = .live || f.chg = .quiesce))
    some (if live then d'.afterWrite d r a die else d')

end Sys2Proof.Machine
end

