-- ==== Sys2Proof/Machine/Commit.lean ====
section
/-! DEFINITION. The commit (R115 to R122, R128 to R130, R135, R138): arming, launch, the commit cycle, resync, and region reset. Log entries: DEDUCED 28, 35, 37; DESIGN CHOICE 11, 15. -/

namespace Sys2Proof.Machine

/-! ### The planes swap -/

/-- The value of a whole register with what is staged of it. -/
def Dev.stagedWord (d : Dev) (s : Staged) (r : Reg) (a : Ix) : Nat :=
  (r.info.fields.map (fun f => d.stagedOr s (r.info.fld f) a * 2 ^ f.lo)).sum

/-- The touched frames swap between the planes; the shadow plane of each awaits resync (R116, R120). -/
def Dev.swapFrames (d : Dev) (l : List Nat) : Dev :=
  let x := d.pl
  let d := { d with pl := { x with
    active := l.foldl (fun t a => t.set [] a (frameAt x.shadow a)) x.active
    shadow := l.foldl (fun t a => t.set [] a (frameAt x.active a)) x.shadow
    resync := l.foldl addNew x.resync
    rebuild := x.rebuild.filter (fun k => !l.contains (k / 2)) } }
  (l.foldl (fun (d : Dev) (a : Nat) => if d.fab.clashes.any (fun e => decide (e.2 = a)) then d.unclash a else d) d).restoreShow

/-- The region of die `f` whose extent is the one a header declares. -/
def Dev.regionLike (d : Dev) (s : Staged) (h : Hdr) : Option Nat :=
  (List.range 64).find? (fun n =>
    let a := Ix.on h.rDie n
    decide (d.stagedOr s F.FAB_RGN_DEF_defined a = 1) && decide (d.stagedOr s F.FAB_RGN_DEF_first_row a = h.rRow0) &&
    decide (d.stagedOr s F.FAB_RGN_DEF_last_row a = h.rRow1) && decide (d.stagedOr s F.FAB_RGN_DEF_first_col a = h.rCol) &&
    decide (d.stagedOr s F.FAB_RGN_DEF_width a = h.rWidth))

/-- With `vacate_home`, the home region of a relocated image (R140). -/
def Dev.vacated (d : Dev) (p : Place × Hdr) : Option (Nat × Nat) :=
  if p.1.vacate then (d.regionLike Staged.empty p.2).map (fun n => (p.2.rDie, n)) else none

/-- Configured frames of a region. -/
def Dev.regionFrames (d : Dev) (f n : Nat) : List Nat := (d.pl.active.map (·.1)).filter (d.inRegion f n)

/-- The routing entries that a commit changes, with their old words, by (router × 256 + destination). -/
def Dev.oldRouteWords (d new : Dev) (s : Staged) : List (Nat × Nat) :=
  s.regs.filterMap (fun e => if e.1 = .NOC_ROUTE && decide (d.plainValue .NOC_ROUTE e.2 ≠ new.plainValue .NOC_ROUTE e.2)
    then some ((e.2.die * 32 + e.2.i) * 256 + e.2.j, d.plainValue .NOC_ROUTE e.2) else none)

/-- Base dies that registers and frames touch. -/
def touchedBases (s : Staged) : Nat :=
  ((List.range 4).map (fun b => ((s.regs.any (fun e => decide ((if e.1.info.space = .fabric then e.2.die / 3 else e.2.die) = b))) ||
    s.frames.any (fun a => decide (bits a 20 4 / 3 = b))).toNat * 2 ^ b)).sum

/-- Fabric dies that registers and frames touch. -/
def touchedFabs (s : Staged) : Nat :=
  ((List.range 12).map (fun f => ((s.regs.any (fun e => decide (e.1.info.space = .fabric) && decide (e.2.die = f))) ||
    s.frames.any (fun a => decide (bits a 20 4 = f))).toNat * 2 ^ f)).sum

/-- Clear a region's deep RAMs (R135). -/
def Dev.clearDeep (d : Dev) (f n : Nat) : Dev :=
  { d with pl := { d.pl with deep := d.pl.deep.filter (fun e => !(if n = 64 then decide (bits e.1 20 4 = f) else d.inRegion f n e.1)) } }

/-- What a commit records of one placed image: a full image's `user_id` and measurement 3, a region image's place and measurement 5 (R140, R150,
R467). -/
def Dev.placed (d : Dev) (p : Place × Hdr) : Dev :=
  let h := p.2
  if p.1.rgn = 65 then
    let d := (d.st F.HRT_CFG_USERID_user_id {} h.userId)
    { d with pl := { d.pl with image := true, m3 := h.digest, m5 := d.pl.m5 },
             cfg := { d.cfg with runSvn := h.svn, runStart := h.startMode, reached := decide (d.mode.code = h.startMode), runSlot := if p.1.col < 2 then some p.1.col else none } }
  else if p.1.rgn = 64 then d.clearDeep p.1.die 64
  else
    let a := Ix.on p.1.die p.1.rgn
    let away := decide (h.kind = 2) && (decide (p.1.die ≠ h.rDie) || decide (p.1.col ≠ h.rCol))
    let d := ((d.stB F.FAB_RGN_STAT_relocated a away).st F.FAB_RGN_STAT_placed_col a p.1.col).st F.FAB_RGN_BUILD_build a (h.buildId % 2 ^ 64)
    { (d.clearDeep p.1.die p.1.rgn) with pl := { (d.clearDeep p.1.die p.1.rgn).pl with m5 := Config.sha384 [d.pl.m5, h.digest, p.1.die, p.1.col] } }

/-- A home region is left vacant. -/
def Dev.vacate (d : Dev) (x : Nat × Nat) : Dev :=
  let a := Ix.on x.1 x.2
  ((d.st F.FAB_RGN_STAT_relocated a 0).st F.FAB_RGN_STAT_placed_col a 0).st F.FAB_RGN_BUILD_build a 0

/-- The commit cycle of what is staged (R120): regions enter region reset, planes swap, every staged field takes its value, block RAM contents are
loaded. `t` is the transaction, none for an image in LOAD, which swaps under global set-reset (R148). -/
def Dev.commit (d : Dev) (t : Option Nat) (s : Staged) (places : List (Place × Hdr)) : Dev :=
  let old := d
  let homes := places.filterMap d.vacated
  let d := if t.isSome then (places.filter (fun p => decide (p.1.rgn ≤ 64))).foldl (fun (d : Dev) (p : Place × Hdr) => d.resetRegion p.1.die p.1.rgn) d else d
  let cleared := homes.flatMap (fun x => old.regionFrames x.1 x.2)
  let d := { d with pl := { d.pl with shadow := cleared.foldl (fun t a => t.set [] a []) d.pl.shadow } }
  let d := d.swapFrames (s.frames ++ cleared.filter (fun a => !s.frames.contains a))
  let d := d.applyStaged s
  let new := d
  let d := s.regs.foldl (fun (d : Dev) (e : Reg × Ix) => d.afterWrite old e.1 e.2 e.2.die) d
  let routes := old.oldRouteWords new s
  let d := if routes.isEmpty then d else d.switchEpoch routes
  let d := d.switchCommit old t
  let d := { d with pl := { d.pl with bram := s.mems.foldl (fun t e => t.set [] e.1 e.2) d.pl.bram } }
  let d := places.foldl (fun (d : Dev) (p : Place × Hdr) => d.placed p) d
  let d := homes.foldl (fun (d : Dev) (x : Nat × Nat) => d.vacate x) d
  let d := ((d.st F.HRT_COMMIT_LAST_txn {} (t.getD 0)).st F.HRT_COMMIT_LAST_base_mask {} (touchedBases s)).st F.HRT_COMMIT_LAST_fabric_mask {} (touchedFabs s)
  (d.st F.HRT_COMMIT_LAST_rejoined {} 0).st F.HRT_COMMIT_TIME_ns {} d.ns |>.st F.HRT_COMMIT_TIME_sec {} d.sec

/-! ### Arming (R128 to R130, R138, R510, R580) -/

/-- Whether a frame that will be committed lies in a clock row that stays gated (R510). -/
def Dev.inGatedRow (d : Dev) (s : Staged) : Bool :=
  let v := fun (b : Nat) => d.stagedWord s .PWR_GATE (Ix.onDie b)
  s.frames.any (fun a => let f := bits a 20 4; decide (bits (v (f / 3)) (16 + 12 * (f % 3) + bits a 16 4) 1 = 1) && !(frameAt d.pl.shadow a).isEmpty)

/-- The first breach of a rule across registers among the values to be in force at C, by register offset (R580): staged registers, a step that would
carry house time below 0 from its value `at_` at C, frames in a gated row. -/
def Dev.breach (d : Dev) (s : Staged) (at_ : Nat) : Option Nat :=
  match d.firstBroken s with
  | some o => some o
  | none =>
    if s.regs.contains (.HT_STEP, {}) && decide ((at_ : Int) + signed 64 (d.stagedOr s F.HT_STEP_step {}) * 2 ^ 24 < 0) then some (Reg.HT_STEP.offset {})
    else if d.inGatedRow s then some (Reg.PWR_GATE.offset {}) else none

/-- Whether a staged QUIESCE field is a change while its block runs (R130). -/
def Dev.unquiet (d : Dev) (s : Staged) : Bool :=
  s.regs.any (fun e => let v := d.stagedWord s e.1 e.2; !(d.quiesceChanges e.1 e.2 v).isEmpty && !blockIdle e.1 e.2 v d)

/-- Whether a staged register is a setting of the Stream Switch. -/
def Staged.touchesSwitch (s : Staged) : Bool :=
  s.regs.any (fun e => decide (e.1.info.space = .base) && decide (e.1.info.off / 0x1000000 = 1))

/-- Regions that a commit swaps. -/
def Dev.swapped (d : Dev) (x : TxnSt) : List (Nat × Nat) :=
  x.places.flatMap (fun p => if p.1.rgn < 64 then [(p.1.die, p.1.rgn)] else if p.1.rgn = 64 then
    ((List.range 64).filter (fun n => d.flag F.FAB_RGN_DEF_defined (Ix.on p.1.die n))).map (fun n => (p.1.die, n)) else [])

/-- Whether both twins of a protected placement would swap (R138). -/
def Dev.twinBoth (d : Dev) (x : TxnSt) : Bool :=
  let l := d.swapped x
  l.any (fun r => d.hasTwin r.1 r.2 && l.contains (d.rd F.FAB_RGN_CTL_twin_die (Ix.on r.1 r.2), d.rd F.FAB_RGN_CTL_twin_rgn (Ix.on r.1 r.2)))

/-- Whether a die that a staging touches is in reset or without its clock (R127). -/
def Dev.touchesDown (d : Dev) (s : Staged) : Bool :=
  let down := fun (n : Nat) => d.clk.inReset.contains n || d.clk.clockLost.contains n || d.clk.failed.contains n
  (List.range 4).any (fun b => decide (bits (touchedBases s) b 1 = 1) && down b) || (List.range 12).any (fun f => decide (bits (touchedFabs s) f 1 = 1) && down (4 + f))

/-- Put a transaction into a list in the order of launch. -/
def Dev.insertByTime (d : Dev) (u : Nat) : List Nat → List Nat
  | [] => [u]
  | v :: l => if d.trigTime u < d.trigTime v then u :: v :: l else v :: d.insertByTime u l

/-- What a commit leaves in the registers that arming looks at: its staged values, and the allotments of the slots. -/
def Dev.foresee (d : Dev) (s : Staged) : Dev :=
  let d := d.applyStaged s
  if s.touchesSwitch then d.slotsOn.foldl (fun (d : Dev) (g : Nat) => d.st F.SSW_SLOT_STAT_allot (slotIx g) (d.slotAllot g)) d else d

/-- The values in force when transaction t's commit comes at house time `at_`, but for its own: those of transactions armed for an earlier instant, in
their order (R580). -/
def Dev.ahead (d : Dev) (t at_ : Nat) : Dev :=
  let l := (List.range 16).filter (fun u => u ≠ t && d.tState u = tARMED && decide (d.trigTime u ≤ at_))
  (l.foldl (fun m u => d.insertByTime u m) []).foldl (fun (e : Dev) (u : Nat) => e.foresee (d.txn u).staged) d

/-- Arm transaction t, or refuse with a status and its detail: it is READY then (R128). -/
def Dev.arm (d : Dev) (t : Nat) (x : Trigger) : Nat × Nat × Dev :=
  let s := d.txn t
  let ready := (d.setTState t tREADY)
  match d.trigger x with
  | .error e => (e, 0, ready)
  | .ok at_ =>
    let old := d.ahead t at_
    let new := old.applyStaged s.staged
    if d.touchesDown s.staged then (8, 0, ready) else
    match old.breach s.staged at_ with
    | some o => (0x0F, o, ready)
    | none =>
      if d.unquiet s.staged then (5, 0, ready)
      else match (if s.staged.touchesSwitch then admission old new else none) with
        | some e => (0x0D, 0, ready.admissionFailed e)
        | none =>
          if d.twinBoth s && (d.mode == .onair || d.mode == .repair) then (9, 0, ready)
          else
            let d := d.on (d.twinBoth s) (fun d => d.occur { die := d.hearthDie, block := 15, inst := 0, cls := 1, sev := sevNote })
            let d := (d.setTState t tARMED).setTxn t { s with trig := some x }
            let d := (d.st F.HRT_TXN_AT_ns (Ix.at t) (at_ / nsUnits)).st F.HRT_TXN_AT_sec (Ix.at t) (at_ / (nsUnits * 10 ^ 9))
            let d := (d.st F.HRT_TXN_AT_ns (Ix.at t) (at_ / nsUnits % 10 ^ 9))
            (0, 0, if s.staged.touchesSwitch then d.reserveBuffers t old new else d)

/-! ### Launch, commit, resync -/

/-- COMMIT_LAUNCH (R119, R121, R130, R132): the launch falls due. In EMBER it is not made; a block that runs again cancels it; otherwise it can no
longer be cancelled. -/
def execCommitLaunch (t : Fin 16) (s : State) : Result := s.act fun d =>
  let n := t.val
  if d.tState n ≠ tARMED then d
  else if d.mode == .ember then d.cancelLaunch n 7
  else if d.unquiet (d.txn n).staged then d.cancelLaunch n 5
  else d.setTState n tLAUNCHED

/-- COMMIT_CYCLE (R120, R122): C arrives for a launched transaction. -/
def execCommitCycle (t : Fin 16) (s : State) : Result := s.act fun d =>
  let n := t.val
  let x := d.txn n
  if d.tState n ≠ tLAUNCHED then d else
  let homes := (x.places.filterMap d.vacated).flatMap (fun h => d.regionFrames h.1 h.2)
  let d := d.dropDflt n
  let d := d.commit (some n) x.staged x.places
  let d := match d.icpOf n with | some f => d.st F.FAB_ICP_STAT_state (Ix.onDie f) 5 | none => d
  (d.setTState n tCOMMITTED).setTxn n { x with staged := { Staged.empty with frames := homes.foldl addNew x.staged.frames }, places := [], trig := none }

/-- RESYNC_COMPLETE (R116, R123): the shadow plane of the touched frames holds the active plane's content again, and the number is free. Without a
number: frames that belong to no transaction. -/
def execResyncComplete (t : Option (Fin 16)) (s : State) : Result := s.act fun d =>
  match t with
  | some t =>
    if d.tState t < tCOMMITTED then d else
    let l := (d.txn t).staged.frames
    let d := (d.copyBack (l.filter (fun a => d.pl.stale.contains a || d.pl.resync.contains a))).freeNumber t
    { d with pl := { d.pl with icpTxn := d.pl.icpTxn.filter (fun e => decide (e.2 ≠ some t.val)) } }
  | none =>
    let heldBy := fun (a : Nat) => (List.range 16).any (fun t => d.held t && (d.txn t).staged.frames.contains a)
    d.copyBack ((d.pl.stale ++ d.pl.resync.filter (fun a => !d.pl.stale.contains a)).filter (fun a => !heldBy a))

/-! ### Region reset (R135, R137) -/

/-- REGION_RESET_RELEASE (R135): the region's flip-flops leave their init values and its border outputs their hold values; without a region
number, a die that a full image swaps whole. -/
def execRegionResetRelease (f : Fin 12) (n : Option (Fin 64)) (s : State) : Result := s.act fun d =>
  match n with
  | some n =>
    let k := f.val * 64 + n.val
    if !d.fab.regionReset.contains k then d else
    (({ d with fab := { d.fab with regionReset := remove d.fab.regionReset k } }).st F.FAB_RGN_STAT_clk_stalled (Ix.on f n) 0).swapReleased f n
  | none =>
    if !d.fab.dieSwap.contains f.val then d else
    ({ d with fab := { d.fab with dieSwap := remove d.fab.dieSwap f.val } }).st F.FAB_RGN_STAT_clk_stalled (Ix.on f 0) 0

/-- REGION_CLOCK_STALL (R137): `rst_clk` shows no edge for 100 µs during a region reset; the region stays in reset. -/
def execRegionClockStall (f : Fin 12) (n : Option (Fin 64)) (s : State) : Result := s.act fun d =>
  let k : Nat := match n with | some n => n.val | none => 0
  let inReset := match n with | some n => d.fab.regionReset.contains (f.val * 64 + n.val) | none => d.fab.dieSwap.contains f.val
  if !inReset || d.flag F.FAB_RGN_STAT_clk_stalled (Ix.on f k) then d else
  (d.st F.FAB_RGN_STAT_clk_stalled (Ix.on f k) 1).occur { die := 4 + f.val, block := 0, inst := k, cls := 2, sev := sevDegrade }

end Sys2Proof.Machine
end

