-- ==== Sys2Proof/Machine/Stream.lean ====
section
/-! DEFINITION. The configuration stream (R84 to R113): header checks, command packets, tag and signature, and the ways a stream ends. Log entries: DEDUCED 30, 31, 32, 33, 35, 42; DESIGN CHOICE 3, 96. -/

namespace Sys2Proof.Machine

/-! ### Header (R87, R88) -/

/-- Field positions of R87 in the bytes of a header; the digest comes with the tag. -/
def Hdr.parse (x : List Byte) : Hdr :=
  let r := fieldAt x 0x48 8
  { kind := fieldAt x 8 1, grade := fieldAt x 9 1, startMode := fieldAt x 0xA 1, signed := bits (fieldAt x 0xB 1) 0 1 = 1, keySrc := fieldAt x 0xE 1,
    svn := fieldAt x 0xF 1, targetSn := fieldAt x 0x10 8, chainRemaining := fieldAt x 0x24 1, bodyLen := fieldAt x 0x28 8,
    buildId := fieldAt x 0x30 16, userId := fieldAt x 0x40 8, rDie := bits r 0 4, rRow0 := bits r 4 4, rRow1 := bits r 8 4,
    rCol := bits r 12 10, rWidth := bits r 22 10, ownerPub := leNat ((x.drop 0x80).take 96).reverse, digest := 0 }

/-- The subfields of `region` against R134. -/
def Hdr.regionOk (h : Hdr) : Bool :=
  decide (h.rDie ≤ 11) && decide (h.rRow0 ≤ h.rRow1) && decide (h.rRow1 ≤ 11) && decide (h.rCol % 8 = 0) && decide (h.rCol ≤ 712) &&
  decide (h.rWidth % 8 = 0) && decide (8 ≤ h.rWidth) && decide (h.rWidth ≤ 720) && decide (h.rCol + h.rWidth ≤ 720)

/-- The first of a list of checks that fails: whether it holds, the error code and the offset. -/
def firstFailed (l : List (Bool × Nat × Nat)) : Option (Nat × Nat) := (l.find? (fun e => !e.1)).map (·.2)

/-- Check 2 of R88: CRC, format, length, reserved bytes, every field against its range; with the offset of the field that fails. -/
def formatChecks (x : List Byte) (h : Hdr) : List (Bool × Nat × Nat) :=
  let reserved := (List.range 256).filter (fun o =>
    (decide (0x25 ≤ o) && decide (o ≤ 0x27)) || (decide (0x4C ≤ o) && decide (o ≤ 0x7F)) || (decide (0xE0 ≤ o) && decide (o ≤ 0xFB)))
  [(decide (fieldAt x 0xFC 4 = crc32 (x.take 0xFC)), 2, 0xFC), (decide (fieldAt x 4 2 = 1), 2, 4), (decide (fieldAt x 6 2 = 256), 2, 6)] ++
  reserved.map (fun o => (zeroAt x o 1, 2, o)) ++
  [(decide (h.kind ≤ 2), 2, 8), (decide (1 ≤ h.grade) && decide (h.grade ≤ 3), 2, 9),
   (if h.kind = 0 then decide (h.startMode = 2) || decide (h.startMode = 3) else decide (h.startMode = 0), 2, 0xA),
   (decide (fieldAt x 0xB 1 ≤ 1), 2, 0xB), (decide (h.keySrc ≤ 4), 2, 0xE), (decide (h.svn ≤ 64), 2, 0xF),
   (if h.kind = 0 then decide (h.chainRemaining ≤ 15) else decide (h.chainRemaining = 0), 2, 0x24),
   (if h.kind = 0 then decide (fieldAt x 0x48 8 = 0) else h.regionOk, 2, 0x48),
   (h.signed || decide (h.ownerPub = 0), 2, 0x80)]

/-- Whether the key source can be used (R99). -/
def Dev.keySrcOk (d : Dev) (k : Nat) : Bool :=
  if k < 4 then decide (d.fuse.aesKey.getD k 0 ≠ 0) && decide (bits d.fuse.aesRevoke k 1 = 0) else d.fuse.bbkAllowed && d.bbk.key.isSome

/-- Whether an owner key is authorised (R102). -/
def Dev.ownerOk (d : Dev) (pub : Nat) : Bool :=
  (List.range 4).any (fun k => decide (d.fuse.ownerHash.getD k 0 = Config.sha384 [pub]) && decide (bits d.fuse.ownerRevoke k 1 = 0))

/-- Total length of a stream with this header (R84). -/
def Hdr.total (h : Hdr) : Nat := 256 + h.bodyLen + 16 + (if h.signed then 96 else 0)

/-- The checks of R88 in order; `kindOk` is check 6 for the path the stream came on. -/
def Dev.headerError (d : Dev) (x : List Byte) (kindOk : Nat → Bool) : Option (Nat × Nat) :=
  let h := Hdr.parse x
  firstFailed ([(decide (fieldAt x 0 4 = 0x46435A54), 1, 0)] ++ formatChecks x h ++
    [(decide (fieldAt x 0xC 2 = 0x1296), 3, 0xC), (decide (h.targetSn = 0) || decide (h.targetSn = d.fuse.deviceSn), 4, 0x10),
     (decide (h.grade ≤ d.fuse.grade), 5, 9), (kindOk h.kind, 6, 8), (decide (d.fuse.svnFuse ≤ h.svn), 7, 0xF), (d.keySrcOk h.keySrc, 8, 0xE),
     (h.signed || !d.fuse.sigRequired, 9, 0xB), (!h.signed || d.ownerOk h.ownerPub, 0xA, 0x80),
     (decide (h.bodyLen % 8 = 0) && decide (8 ≤ h.bodyLen) && decide (h.total ≤ 840000000), 0xB, 0x28)])

/-- Check 6 for the stream in progress. -/
def Dev.kindAllowed (d : Dev) (k : Nat) : Bool :=
  match d.cfg.path with
  | .txn _ => d.cfg.icp.isNone || decide (k ≠ 0)
  | _ => decide (k = 0)

/-- The transaction of the stream in progress. -/
def Dev.streamTxn (d : Dev) : Option Nat := match d.cfg.path with | .txn t => some t | _ => none

/-- What is staged beside the image: the values that the stream's transaction already holds. -/
def Dev.streamStaged (d : Dev) : Staged := match d.streamTxn with | some t => (d.txn t).staged | none => Staged.empty

/-- Set the first body error (R112). -/
def Dev.bodyErr (d : Dev) (code offset frame detail : Nat) : Dev :=
  { d with cfg := { d.cfg with err := some (d.cfg.err.getD { code := code, offset := offset, frame := frame, detail := detail }) } }

/-- The ports of a region: how many bits of its stream-port and access-point maps are set, as staged or in effect. -/
def Dev.portCount (d : Dev) (s : Staged) (f n : Nat) : Nat × Nat :=
  let pop := fun (v w : Nat) => ((List.range w).map (fun i => bits v i 1)).sum
  (pop (d.stagedOr s F.FAB_RGN_SP_sp (Ix.on f n)) 64, pop (d.stagedOr s F.FAB_RGN_AP_ap (Ix.on f n)) 32)

/-- The first condition of R139, details 1 to 6, that a placement of an image fails; 0 if none. -/
def Dev.placeDetail (d : Dev) (s : Staged) (h : Hdr) (p : PlaceReq) : Nat :=
  let f := p.die.toNat
  let n := p.rgn.toNat
  let a := Ix.on f n
  let off := p.colOff.toNat
  let col := d.stagedOr s F.FAB_RGN_DEF_first_col a + off
  let here := d.portCount s f n
  let home := match d.regionLike s h with | some m => d.portCount s h.rDie m | none => (0, 0)
  if d.stagedOr s F.FAB_RGN_DEF_defined a = 0 || d.stagedOr s F.FAB_RGN_DEF_vacant_ok a = 0 || d.rgnState f n ≠ 1 then 1
  else if d.stagedOr s F.FAB_RGN_DEF_first_row a ≠ h.rRow0 || d.stagedOr s F.FAB_RGN_DEF_last_row a ≠ h.rRow1 then 2
  else if off % 8 ≠ 0 || d.stagedOr s F.FAB_RGN_DEF_width a < off + h.rWidth then 3
  else if (List.range h.rWidth).any (fun c => decide (colType (col + c) ≠ colType (h.rCol + c))) then 4
  else if !p.netsOk then 5
  else if !p.portsOk || decide (here.1 < home.1) || decide (here.2 < home.2) then 6
  else 0

/-- The transaction, other than t, that holds a region, or any region at all for a full image (R129). -/
def Dev.regionHeld (d : Dev) (t f n : Nat) : Bool := match d.rgnTxn f n with | some u => decide (u ≠ t) | none => false

/-- Whether any other live transaction has placed an image. -/
def Dev.anyPlaced (d : Dev) (t : Nat) : Bool :=
  (List.range 16).any (fun u => decide (u ≠ t) && d.tLive u && !(d.txn u).places.isEmpty)

/-- Set the placement, and end the restore or resync of the frames it will write (R116). -/
def Dev.setPlace (d : Dev) (p : Place) : Dev :=
  let d := { d with cfg := { d.cfg with place := p } }
  d.copyBack ((d.pl.stale ++ d.pl.resync.filter (fun a => !d.pl.stale.contains a)).filter (fun a =>
    if p.rgn = 64 then true else d.inRegion p.die p.rgn a))

/-- A region image needs the port's permission when it comes from an internal port (R143). -/
def Dev.icpBarred (d : Dev) (f n : Nat) : Bool := d.cfg.icp.isSome && !d.flag F.FAB_RGN_CTL_icp_ok (Ix.on f n)

/-- Where the image goes, once its header has passed: a full image everywhere, a region image onto the region it declares (R94), a relocatable one
where TXN_STREAM places it (R139). -/
def Dev.placeImage (d : Dev) (t : Nat) (h : Hdr) : Dev :=
  let s := d.streamStaged
  if h.kind = 0 then
    if d.anyPlaced t then d.relocRefused t 4 0 else d.setPlace { die := 0, rgn := 64, col := 0, bram := 0, vacate := false }
  else if h.kind = 1 then
    match d.regionLike s h with
    | none => d.bodyErr 0x12 0x48 0 0
    | some n =>
      if d.icpBarred h.rDie n then d.bodyErr 0x12 0x48 0 0
      else if d.regionHeld t h.rDie n then d.relocRefused t 4 0
      else d.setPlace { die := h.rDie, rgn := n, col := h.rCol, bram := 0, vacate := false }
  else match d.cfg.req with
    | none => d.relocRefused t 0xA 1
    | some p =>
      let f := p.die.toNat
      let n := p.rgn.toNat
      let col := d.stagedOr s F.FAB_RGN_DEF_first_col (Ix.on f n) + p.colOff.toNat
      if d.icpBarred f n then d.bodyErr 0x12 0x48 0 0
      else if d.regionHeld t f n then d.relocRefused t 4 0
      else match d.placeDetail s h p with
        | 0 => d.setPlace { die := f, rgn := n, col := col, bram := ((List.range col).filter (fun c => colType c == .bram)).length,
                            vacate := p.vacate }
        | e => d.relocRefused t 0xA e

/-- Whether the bytes of a slot from `o`, `n` of them, touch a unit that its ECC cannot correct (R107). -/
def Dev.slotBad (d : Dev) (slot o n : Nat) : Bool :=
  let base := slot * 0x32200000 + o
  d.peat.badUnits.any (fun u => decide (u * 4096 < base + n) && decide (base < u * 4096 + 4096))

/-- Whether the stream's next `n` bytes come from a slot and cannot be read. -/
def Dev.unreadable (d : Dev) (n : Nat) : Bool :=
  decide (d.rd F.HRT_CFG_STAT_source {} < 2) && d.slotBad (d.rd F.HRT_CFG_STAT_source {}) d.cfg.pos n

/-- STREAM_HEADER: the 256 bytes of a header reach the controller (R87, R88). -/
def execStreamHeader (x : List Byte) (s : State) : Result :=
  if x.length ≠ 256 then .fault (.illFormed "STREAM_HEADER") else s.act fun d =>
  if !d.streaming || d.rd F.HRT_CFG_STAT_state {} ≠ 1 then d else
  if d.unreadable 256 then d.stopStream eSTORE_ECC 0 0 0 else
  let d := d.st F.HRT_CFG_STAT_bytes_in {} 256
  match d.headerError x d.kindAllowed with
  | some (code, o) => d.failBody { code := code, offset := o, frame := 0, detail := if code = 4 then (Hdr.parse x).targetSn % 2 ^ 32 else 0 }
  | none =>
    let h := Hdr.parse x
    let d := ({ d with cfg := { d.cfg with hdr := h, pos := 256 } }).st F.HRT_CFG_STAT_state {} 2
    match d.cfg.path with
    | .txn t => d.placeImage t h
    | _ => (d.st F.HRT_CFG_CHAIN_remaining {} h.chainRemaining).setPlace { die := 0, rgn := 64, col := 0, bram := 0, vacate := false }

/-! ### Packets (R89 to R97) -/

/-- What a packet does: the image goes on, it has an error, or its transaction's command is refused without an error of the stream (R129, R139). -/
inductive Pkt where
  | ok (d : Dev)
  | bad (code frame detail : Nat)
  | badAt (code offset frame detail : Nat)
  | refused (status detail : Nat)

/-- The end of the body. -/
def Dev.bodyEnd (d : Dev) : Nat := 256 + d.cfg.hdr.bodyLen

/-- Move past a packet; at the end of the body the tag follows, and a body without END has failed there (R91). -/
def Dev.advance (d : Dev) (size : Nat) : Dev :=
  let p := min d.bodyEnd (d.cfg.pos + size)
  let d := ({ d with cfg := { d.cfg with pos := p } }).st F.HRT_CFG_STAT_bytes_in {} p
  if p < d.bodyEnd then d
  else (d.on (!d.cfg.ended && d.cfg.err.isNone) (fun d => d.bodyErr 0x13 d.bodyEnd 0 0)).st F.HRT_CFG_STAT_state {} 3

/-- A packet of `n` payload words reaches the controller. After the first error, packets are only read and authenticated (R112). `anyLen`: the
packet's error does not wait for its length to be judged. -/
def Dev.packet (d : Dev) (n : Nat) (anyLen : Bool) (op : Dev → Pkt) : Dev :=
  let size := 8 + 8 * n
  if !d.streaming || d.rd F.HRT_CFG_STAT_state {} ≠ 2 then d
  else if d.unreadable size then d.stopStream eSTORE_ECC d.cfg.pos 0 0
  else if d.cfg.err.isSome then d.advance size
  else match (if !anyLen && decide (d.bodyEnd < d.cfg.pos + size) then .bad 0xD 0 0 else op d) with
    | .ok d => d.advance size
    | .bad code frame detail => (d.bodyErr code d.cfg.pos frame detail).advance size
    | .badAt code o frame detail => (d.bodyErr code o frame detail).advance size
    | .refused status detail => match d.streamTxn with
      | some t => d.relocRefused t status detail
      | none => d.advance size

/-- NOP. -/
def execNop (operand : BitVec 32) (count : BitVec 24) (s : State) : Result := s.act fun d =>
  d.packet count.toNat false (fun d => if operand.toNat ≠ 0 then .bad 0xC 0 0 else .ok d)

/-- UNKNOWN_OPCODE_PACKET: any opcode outside the table of R90. -/
def execUnknownOpcodePacket (_ : Byte) (_ : BitVec 32) (count : BitVec 24) (s : State) : Result := s.act fun d =>
  d.packet count.toNat true (fun _ => .bad 0xC 0 0)

/-! #### Registers (R96, R98) -/

/-- Check and stage one register write of an image. -/
def Dev.imageWrite (d : Dev) (r : Reg) (a : Ix) (v off : Nat) : Pkt :=
  let t := d.streamTxn
  let l := d.linked r a v d.cfg.img
  let sideEffects := r.info.fields.any (fun f => (f.acc = .w1c || f.acc = .w1s || f.acc = .rc) && decide (bits v f.lo f.w ≠ 0))
  if !r.hasWritable then .bad 0xF 0 off
  else if !checkR9 r a v || refusedNow r a v d || sideEffects || (t.isSome && !(d.quiesceChanges r a v).isEmpty && !blockIdle r a v d) then .bad 0x10 0 off
  else if t.isSome && l.any (fun x => d.stagedBy r x t) then .refused 4 0
  else .ok { d with cfg := { d.cfg with img := l.foldl (fun (g : Staged) x => g.stage r x v (fun f => f.writable)) d.cfg.img } }

/-- Writes to consecutive registers of a die's control space, until the first that fails. -/
def Dev.imageWrites (sp : Space) (die : Nat) (own : Reg → Ix → Nat → Dev → Bool) : Nat → List Word64 → Dev → Pkt
  | _, [], d => .ok d
  | off, v :: rest, d =>
    match findIn sp die off allRegs with
    | none => if own .FAB_RGN_DEF { die := 16 } 0 d then .bad 0xF 0 off else .bad 0x12 0 0
    | some (r, a) =>
      if !own r a v.toNat d then .bad 0x12 0 0
      else match d.imageWrite r a v.toNat off with
        | .ok d => imageWrites sp die own (off + 8) rest d
        | e => e

/-- WCFG. -/
def execWcfg (operand : BitVec 32) (payload : List Word64) (s : State) : Result := s.act fun d =>
  d.packet payload.length false (fun d =>
    let o := operand.toNat
    if o % 8 ≠ 0 || decide (0x60 < o) then .bad 0xF 0 o
    else match payload with
      | [v] => d.imageWrite (cfgReg (o / 8)) (cfgIx (o / 8)) v.toNat o
      | _ => .bad 0xD 0 0)

/-- WBLK. -/
def execWblk (operand : BitVec 32) (payload : List Word64) (s : State) : Result := s.act fun d =>
  d.packet payload.length false (fun d =>
    let o := operand.toNat % 2 ^ 28
    if 2 ^ 30 ≤ operand.toNat || o % 8 ≠ 0 then .bad 0xF 0 o
    else if payload.isEmpty then .bad 0xD 0 0
    else Dev.imageWrites .base (operand.toNat / 2 ^ 28) (fun _ _ _ _ => true) o payload d)

/-- Whether a WFAB write lies within what a `kind` 1 image may write (R94): the `FAB_RGN_` registers of its own region, without a change of extent or
`defined`. A full image may write any register. -/
def ownWrite (r : Reg) (a : Ix) (v : Nat) (d : Dev) : Bool :=
  let p := d.cfg.place
  let s := d.streamStaged
  let keeps := [F.FAB_RGN_DEF_first_row, F.FAB_RGN_DEF_last_row, F.FAB_RGN_DEF_first_col, F.FAB_RGN_DEF_width, F.FAB_RGN_DEF_defined].all
    (fun f => decide (bits v f.lo f.w = d.stagedOr s f a))
  d.cfg.hdr.kind = 0 ||
  (decide (a = Ix.on p.die p.rgn) &&
   (match r with
    | .FAB_RGN_DEF => keeps
    | .FAB_RGN_CTL | .FAB_RGN_STAT | .FAB_RGN_BUILD | .FAB_RGN_SP | .FAB_RGN_AP => true
    | _ => false))

/-- WFAB. -/
def execWfab (operand : BitVec 32) (payload : List Word64) (s : State) : Result := s.act fun d =>
  d.packet payload.length false (fun d =>
    let o := operand.toNat % 2 ^ 24
    let f := operand.toNat / 2 ^ 24
    if d.cfg.hdr.kind = 2 then .bad 0x12 0 0
    else if 12 ≤ f || o % 8 ≠ 0 then .bad 0xF 0 o
    else if payload.isEmpty then .bad 0xD 0 0
    else Dev.imageWrites .fabric f ownWrite o payload d)

/-! #### Frames (R92 to R94, R116) -/

/-- The next frame address: through the minors of a column, then to the next column, then to the next row (R93); past row 11 the row is 12. -/
def nextFrame (row col minor : Nat) : Nat × Nat × Nat :=
  if minor + 1 < (colType col).minors then (row, col, minor + 1) else if col < 719 then (row, col + 1, 0) else (row + 1, 0, 0)

/-- `n` frames of a run from an address. -/
def frameRun : Nat → Nat → Nat → Nat → List (Nat × Nat × Nat)
  | 0, _, _, _ => []
  | n + 1, row, col, minor =>
    let x := nextFrame row col minor
    (row, col, minor) :: frameRun n x.1 x.2.1 x.2.2

/-- A frame address of R92. -/
def frameAddr (die row col minor : Nat) : Nat := die * 2 ^ 20 + row * 2 ^ 16 + col * 2 ^ 6 + minor

/-- Write one frame of the shadow plane, as the last in the order of writing; a rebuild that scrub holds for it is discarded (R146). -/
def Dev.writeFrame (d : Dev) (a : Nat) (content : List Nat) : Dev :=
  { d with pl := { d.pl with shadow := d.pl.shadow.set [] a content, rebuild := remove d.pl.rebuild (2 * a + 1) }
           cfg := { d.cfg with frames := d.cfg.frames + 1, img := { d.cfg.img with frames := remove d.cfg.img.frames a ++ [a] } } }

/-- Whether a frame's border cells name only the ports assigned to region n of die f (R141). -/
def Dev.bordersOk (d : Dev) (f n a : Nat) (content : List Nat) : Bool :=
  let s := d.streamStaged
  (Config.borderPorts a content).all (fun p =>
    if p < 64 then decide (bits (d.stagedOr s F.FAB_RGN_SP_sp (Ix.on f n)) p 1 = 1)
    else decide (bits (d.stagedOr s F.FAB_RGN_AP_ap (Ix.on f n)) (p - 64) 1 = 1))

/-- Write the frames of a run: each frame's place in the image's own coordinates and its content. -/
def Dev.writeRun (die : Nat) : List ((Nat × Nat × Nat) × List Nat) → Dev → Pkt
  | [], d => .ok d
  | ((row, col, minor), content) :: rest, d =>
    let h := d.cfg.hdr
    let p := d.cfg.place
    let inside := decide (h.rRow0 ≤ row) && decide (row ≤ h.rRow1) && decide (h.rCol ≤ col) && decide (col < h.rCol + h.rWidth)
    if h.kind = 0 then writeRun die rest (d.writeFrame (frameAddr die row col minor) content)
    else if h.kind = 1 then
      let a := frameAddr die row col minor
      if decide (die ≠ h.rDie) || !inside || !d.bordersOk p.die p.rgn a content then .bad 0x12 a 0
      else writeRun die rest (d.writeFrame a content)
    else if !inside then .bad 0x12 (frameAddr 0 row (col - h.rCol) minor) 0
    else writeRun die rest (d.writeFrame (frameAddr p.die row (col - h.rCol + p.col) minor) content)

/-- The frames of a packet: its first address, and their contents. -/
def Dev.frames (d : Dev) (operand n : Nat) (contents : List (List Nat)) : Pkt :=
  let k2 := decide (d.cfg.hdr.kind = 2)
  let die := bits operand 20 4
  let row := bits operand 16 4
  let col := bits operand 6 10 + (if k2 then d.cfg.hdr.rCol else 0)
  let minor := bits operand 0 6
  let range := decide (2 ^ 24 ≤ operand) || decide (11 < die) || decide (11 < row) || decide (719 < bits operand 6 10)
  if range then .bad 0xE operand 0
  else if k2 && decide (die ≠ 0) then .bad 0x12 operand 0
  else if k2 && decide (719 < col) then .bad 0x12 operand 0
  else if (colType col).minors ≤ minor then .bad 0xE operand 0
  else
    let run := frameRun n row col minor
    if run.any (fun x => decide (11 < x.1)) then (if k2 then .bad 0x12 operand 0 else .bad 0xE operand 0)
    else Dev.writeRun die (run.zip contents) d

/-- Cut payload words into frames of 32. -/
def cutFrames : Nat → List Word64 → List (List Nat)
  | 0, _ => []
  | n + 1, l => (l.take 32).map (·.toNat) :: cutFrames n (l.drop 32)

/-- FRAME. -/
def execFrame (operand : BitVec 32) (payload : List Word64) (s : State) : Result := s.act fun d =>
  d.packet payload.length false (fun d =>
    let n := payload.length / 32
    if payload.isEmpty || payload.length % 32 ≠ 0 then (if 2 ^ 24 ≤ operand.toNat then .bad 0xE operand.toNat 0 else .bad 0xD 0 0)
    else d.frames operand.toNat n (cutFrames n payload))

/-- FRAME_RPT. -/
def execFrameRpt (operand : BitVec 32) (payload : List Word64) (s : State) : Result := s.act fun d =>
  d.packet payload.length false (fun d =>
    match payload with
    | [] => .bad 0xD 0 0
    | w :: rest =>
      if 2 ^ 24 ≤ operand.toNat then .bad 0xE operand.toNat 0
      else if rest.length ≠ 32 || w.toNat = 0 || decide (2 ^ 24 ≤ w.toNat) then .bad 0xD 0 0
      else d.frames operand.toNat w.toNat (List.replicate w.toNat (rest.map (·.toNat))))

/-! #### Block RAM contents (R94, R95) -/

/-- The block RAM columns of a row, in order. -/
def bramCols : List Nat := (List.range 720).filter (fun c => colType c == .bram)

/-- MEMINIT. -/
def execMeminit (operand : BitVec 32) (payload : List Word64) (s : State) : Result := s.act fun d =>
  d.packet payload.length false (fun d =>
    let o := operand.toNat
    let h := d.cfg.hdr
    let p := d.cfg.place
    let die := bits o 20 4
    let row := bits o 16 4
    let blk := bits o 8 8
    let rows := decide (h.rRow0 ≤ row) && decide (row ≤ h.rRow1)
    let homeCols := bramCols.filter (fun c => decide (h.rCol ≤ c) && decide (c < h.rCol + h.rWidth))
    let words := payload.map (·.toNat)
    let put := fun (k : Nat) =>
      let d := { d with cfg := { d.cfg with img := { d.cfg.img with mems := d.cfg.img.mems.put k words } } }
      Pkt.ok (if d.streamTxn.isNone then { d with pl := { d.pl with bram := d.pl.bram.set [] k words } } else d)
    if 2 ^ 24 ≤ o || o % 256 ≠ 0 || decide (11 < die) || decide (11 < row) then .bad 0x11 0 0
    else if payload.length ≠ 640 then .bad 0xD 0 0
    else if h.kind = 0 then put o
    else if h.kind = 1 then
      if die ≠ h.rDie || !rows || !homeCols.contains (bramCols.getD (blk / 4) 720) then .bad 0x12 0 0 else put o
    else if die ≠ 0 || !rows || decide (homeCols.length ≤ blk / 4) then .bad 0x12 0 0
    else put (p.die * 2 ^ 20 + row * 2 ^ 16 + (4 * (p.bram + blk / 4) + blk % 4) * 2 ^ 8))

/-! #### END (R91, R97, R580) -/

/-- The tap drivers of the frames that count at END: line and frame. For a region image, those of the active plane outside its region too. -/
def Dev.drivers (d : Dev) : List (Nat × Nat) :=
  let p := d.cfg.place
  let taps := fun (t : Tbl (List Nat)) (a : Nat) => (Config.tapsOf a (frameAt t a)).map (fun l => (l, a))
  let outside := if d.cfg.hdr.kind = 0 then [] else (d.pl.active.map (·.1)).filter (fun a => !d.inRegion p.die p.rgn a)
  outside.flatMap (taps d.pl.active) ++ d.cfg.img.frames.flatMap (taps d.pl.shadow)

/-- The lowest-numbered line with more than one driver, and the last frame that enabled a driver on it. -/
def Dev.contention (d : Dev) : Option (Nat × Nat) :=
  let l := d.drivers
  let multiple := (l.map (·.1)).filter (fun n => decide (1 < (l.filter (fun e => decide (e.1 = n))).length))
  match multiple with
  | [] => none
  | n :: rest =>
    let m := rest.foldl min n
    some (m, ((d.cfg.img.frames.filter (fun a => (l.any (fun e => decide (e = (m, a)))))).getLast?).getD 0)

/-- END. -/
def execEndPacket (operand : BitVec 32) (payload : List Word64) (s : State) : Result := s.act fun d =>
  d.packet payload.length false (fun d =>
    let d := { d with cfg := { d.cfg with ended := true } }
    if !payload.isEmpty || operand.toNat ≠ d.cfg.frames then .bad 0x13 0 0
    else if d.cfg.pos + 8 < d.bodyEnd then .badAt 0x13 (d.cfg.pos + 8) 0 0
    else match d.contention with
      | some (line, frame) => if d.cfg.hdr.kind = 2 then .refused 0xA 7 else .bad 0x14 frame line
      | none =>
        match (if d.streamTxn.isNone then d.firstBroken d.cfg.img else none) with
        | some o => .bad 0x10 0 o
        | none => .ok d)

/-! ### Acceptance -/

/-- The fabric dies on which a full image differs from the active plane. -/
def Dev.diesDiffering (d : Dev) : List Nat :=
  (List.range 12).filter (fun f => d.cfg.img.frames.any (fun a => decide (bits a 20 4 = f) && decide (frameAt d.pl.shadow a ≠ frameAt d.pl.active a)))

/-- Lay one staging over another. -/
def Staged.over (a b : Staged) : Staged :=
  { vals := b.vals.foldl (fun t e => t.put e.1 e.2) a.vals, regs := b.regs.foldl addNew a.regs, frames := b.frames.foldl addNew a.frames,
    mems := b.mems.foldl (fun t e => t.put e.1 e.2) a.mems }

/-- A stream of transaction t is accepted: what it carries joins what the transaction stages, and the transaction goes back to the state it came from
(R578). -/
def Dev.acceptTxn (d : Dev) (t : Nat) : Dev :=
  let h := d.cfg.hdr
  let dies := d.diesDiffering
  let img := if h.kind = 0 then { d.cfg.img with frames := d.cfg.img.frames.filter (fun a => dies.contains (bits a 20 4)) } else d.cfg.img
  let src := d.rd F.HRT_CFG_STAT_source {}
  let places := if h.kind = 0 then
      (({ die := 0, rgn := 65, col := src, bram := 0, vacate := false } : Place), h) ::
        dies.map (fun f => (({ die := f, rgn := 64, col := 0, bram := 0, vacate := false } : Place), h))
    else [(d.cfg.place, h)]
  let x := d.txn t
  let d := (d.setTxn t { x with staged := x.staged.over img, places := x.places ++ places }).setTState t x.from_
  let d := d.st F.HRT_TXN_STAT_streams (Ix.at t) (d.rd F.HRT_TXN_STAT_streams (Ix.at t) + 1)
  let bases := touchedBases img
  let d := d.st F.HRT_TXN_STAT_base_mask (Ix.at t) (d.rd F.HRT_TXN_STAT_base_mask (Ix.at t) ||| bases)
  (d.streamReply t 0 0 0).freeController

/-- The lanes that the image enables start their bring-up, step 8; the others stay off (R66, R98). -/
def Dev.bringUpLanes (d : Dev) : Dev :=
  let on := fun (f : Fld) (k i : Nat) => bits (d.rd f (Ix.at k)) i 1 = 1
  let d := (List.range 4).foldl (fun (d : Dev) (b : Nat) => (List.range 32).foldl (fun (d : Dev) (l : Nat) =>
    let n := 24 * b + l
    let en := if l < 24 then on F.CFG_LANE_EN_en (n / 64) (n % 64) else on F.CFG_OPT_EN_en 0 (8 * b + (l - 24))
    if en then d.laneSet b l else d.setLn b l 0) d) d
  d.st F.HRT_BOOT_step {} 7

/-- What a stack that has failed training means for the image (R69): DEGRADE where every frame store on it is mirrored; else DEVICE, and SAFE. -/
def Dev.trainVerdict (d : Dev) (k : Nat) : Dev :=
  let rec_ := fun (d : Dev) (sev : Nat) => d.occur { die := k / 2, block := 3, inst := k % 2 * 52, cls := 13, sev := sev, action := 11, detail := k }
  if d.allMirrored k then rec_ (d.unmirror k) sevDegrade else (rec_ (d.unmirror k) sevDevice).safeTrigger 7 false

/-- The verdict on every stack that has failed. -/
def Dev.trainVerdicts (d : Dev) : Dev :=
  (List.range 8).foldl (fun (d : Dev) (k : Nat) => d.on (decide (d.rd F.HBM_STATUS_state (ctlIx k) = 4)) (fun d => d.trainVerdict k)) d

/-- Step 7 (R66, R69, R111): the whole image commits under global set-reset, without region reset; CHAIN_DONE_N is released. -/
def Dev.imageCommit (d : Dev) : Dev :=
  let h := d.cfg.hdr
  let src := d.rd F.HRT_CFG_STAT_source {}
  let d := d.commit none d.cfg.img [({ die := 0, rgn := 65, col := src, bram := 0, vacate := false }, h)]
  let d := ((d.st F.HRT_CFG_CHAIN_released {} 1).emit (.pin "CHAIN_DONE_N" true)).bringUpLanes
  let d := { d with cfg := { d.cfg with path := .none, icp := none, req := none } }
  d.trainVerdicts

/-- A stream has passed every check (R78, R86). At start-up and in a host full load it commits; the rest of a chain stream is forwarded (R108, R110). -/
def Dev.accept (d : Dev) : Dev :=
  let d := (d.st F.HRT_CFG_STAT_state {} 6).st F.HRT_CFG_STAT_busy {} 0
  match d.cfg.path with
  | .none => d
  | .txn t => d.acceptTxn t
  | _ =>
    let more := decide (d.cfg.hdr.chainRemaining ≠ 0)
    let d := d.imageCommit
    if !more then d
    else if d.fuse.chainOutOff then
      (d.st F.HRT_CFG_CHAIN_link_error {} 1).occur { die := d.hearthDie, block := 15, inst := 0, cls := 1, sev := sevDegrade, detail := 0x1A }
    else (d.st F.HRT_CFG_STAT_state {} 5).st F.HRT_CFG_STAT_busy {} 1

/-- STREAM_TAG (R85, R112, R113): the tag of the body is checked; `extra` bytes follow the stream; `digest` is the SHA-384 of the stream as it arrived. -/
def execStreamTag (ok : Bool) (extra : Nat) (digest : BitVec 384) (s : State) : Result := s.act fun d =>
  if !d.streaming || d.rd F.HRT_CFG_STAT_state {} ≠ 3 then d
  else if d.unreadable (if d.cfg.hdr.signed then 112 else 16) then d.stopStream eSTORE_ECC d.cfg.pos 0 0
  else
    let h := d.cfg.hdr
    let d := ({ d with cfg := { d.cfg with hdr := { h with digest := digest.toNat } } }).st F.HRT_CFG_STAT_bytes_in {} h.total
    let chain := decide (h.chainRemaining ≠ 0) && d.streamTxn.isNone
    let d := d.on (decide (extra ≠ 0) && !chain) (fun d =>
      (d.st F.HRT_CFG_STAT_extra_bytes {} (min 65535 extra)).occur { die := d.hearthDie, block := 15, inst := 0, cls := 1, sev := sevNote, detail := extra })
    if !ok then d.stopStream 0x16 d.bodyEnd 0 0
    else match d.cfg.err with
      | some e => d.failBody e
      | none => if h.signed then d.st F.HRT_CFG_STAT_state {} 4 else d.accept

/-- SIGNATURE_CHECK_DONE (R102). -/
def execSignatureCheckDone (ok : Bool) (s : State) : Result := s.act fun d =>
  if !d.streaming || d.rd F.HRT_CFG_STAT_state {} ≠ 4 then d
  else if ok then d.accept else d.stopStream 0x17 (d.bodyEnd + 16) 0 0

/-! ### A stream that ends early (R109, R112, R113) -/

/-- Whether bytes of the stream are still to come. -/
def Dev.receiving (d : Dev) : Bool :=
  d.streaming && decide (1 ≤ d.rd F.HRT_CFG_STAT_state {}) && decide (d.rd F.HRT_CFG_STAT_state {} ≤ 3)

/-- STREAM_STALL_TIMEOUT: a host, internal-port or chain source stalls once started. -/
def execStreamStallTimeout (s : State) : Result := s.act fun d =>
  let src := d.rd F.HRT_CFG_STAT_source {}
  if !d.receiving || decide (src < 2) || src = 6 || (src = 4 && d.rd F.HRT_CFG_STAT_bytes_in {} = 0) then d
  else d.stopStream eEARLY_END d.cfg.pos 0 0

/-- SOURCE_END_OF_DATA: a host or internal-port source signals the end of data before the length that the header gives. -/
def execSourceEndOfData (s : State) : Result := s.act fun d =>
  let src := d.rd F.HRT_CFG_STAT_source {}
  if !d.receiving || !(src = 2 || src = 3 || src = 5) then d else d.stopStream eEARLY_END d.cfg.pos 0 0

/-- CHAIN_TIMEOUT: no billet of the stream within 500 ms (R109). -/
def execChainTimeout (s : State) : Result := s.act fun d =>
  if !d.receiving || d.rd F.HRT_CFG_STAT_source {} ≠ 4 || d.rd F.HRT_CFG_STAT_bytes_in {} ≠ 0 then d else d.stopStream 0x19 0 0 0

/-- CHAIN_FORWARD_DONE (R108, R110): forwarding has ended, or its link has failed. -/
def execChainForwardDone (ok : Bool) (bytes : Nat) (s : State) : Result := s.act fun d =>
  if d.rd F.HRT_CFG_STAT_state {} ≠ 5 then d else
  let d := (d.st F.HRT_CFG_STAT_state {} 6).st F.HRT_CFG_STAT_busy {} 0
  let d := (d.st F.HRT_CFG_CHAIN_bytes_out {} (bytes % 2 ^ 40)).emit (.chainOut bytes)
  if ok then d.st F.HRT_CFG_CHAIN_forwarded {} 1
  else (d.st F.HRT_CFG_CHAIN_link_error {} 1).occur { die := d.hearthDie, block := 15, inst := 0, cls := 1, sev := sevDegrade, detail := 0x1A }

end Sys2Proof.Machine
end

