-- ==== Sys2Proof/Machine/Txn.lean ====
section
/-! DEFINITION. Transactions as the host drives them, the internal configuration port, and scrub (R123 to R132, R142 to R147, R577 to R580). Log entries: DEDUCED 34, 35, 38, 39; DESIGN CHOICE 13. -/

namespace Sys2Proof.Machine

/-! ### The shape of a TXN command (R127, R578) -/

/-- Whether a function may name transaction t: its own; for the commands that act on any default transaction, a physical function those of
owners 253 and 254 too (R125). -/
def Dev.mayName (d : Dev) (fn t : Nat) (code : Nat) : Bool :=
  decide (d.tOwner t = fn) ||
  (decide (5 ≤ code) && decide (d.rd F.HRT_FN_STAT_type (Ix.at fn) = 1) && (decide (d.tOwner t = 253) || decide (d.tOwner t = 254)))

/-- `HRT_TXN_STAT` and `HRT_TXN_AT` of a transaction. -/
def Dev.txnWords (d : Dev) (t : Nat) : List Nat := [d.regRead .HRT_TXN_STAT (Ix.at t), d.regRead .HRT_TXN_AT (Ix.at t)]

/-- A TXN command on a numbered transaction: number, owner, a status that an earlier event owes it, state; then its own effect. Its status is the
transaction's last status. -/
def Dev.onTxn (d : Dev) (c : HostCmd) (code t : Nat) (allowed : Nat → Bool) (f : Dev → Dev × Option Reply) : Dev :=
  d.command c grpTXN code fun d =>
    if 16 ≤ t then refuse d 0x12
    else if !d.mayName c.fn t code then refuse d 1
    else match (d.txn t).next with
      | some e =>
        (d.setTxn t { d.txn t with next := none }, some { status := e, result := if code = 9 then d.txnWords t else [] })
      | none =>
        if d.tState t = tIDLE then refuse d 1
        else if !allowed (d.tState t) then refuse d 3
        else match f d with
          | (d, some r) => (if code = 9 then d else d.st F.HRT_TXN_STAT_status (Ix.at t) r.status, some r)
          | (d, none) => (d, none)

/-- OPEN or READY. -/
def openOrReady (s : Nat) : Bool := s = tOPEN || s = tREADY

/-- TXN_BEGIN (R123, R126): `timeout` in ms; 0 is the default of 10 s. -/
def execTxnBegin (c : HostCmd) (timeout : BitVec 64) (s : State) : Result := s.act fun d =>
  d.command c grpTXN 1 fun d =>
    let ms := if timeout = 0 then 10000 else timeout.toNat
    if 600000 < ms then refuse d 0x12
    else match d.openTxn c.fn false ms with
      | some (t, d) => done d [t]
      | none => refuse d 2

/-! ### Staging (R577, R129, R453) -/

/-- Stage one register write in transaction t for function `fn`, or refuse it with a status. -/
def Dev.txnStage (d : Dev) (t fn : Nat) (x : Option (Reg × Ix)) (v : Nat) : Except Nat Dev :=
  match x with
  | none => .error 0x0F
  | some (r, a) =>
    let l := d.linked r a v (d.txn t).staged
    let sideEffects := r.info.fields.any (fun f => (f.acc = .w1c || f.acc = .w1s || f.acc = .rc) && decide (bits v f.lo f.w ≠ 0))
    if 65536 ≤ d.rd F.HRT_TXN_STAT_writes (Ix.at t) then .error 0x0C
    else if !r.hasWritable then .error 0x0F
    else if d.isVf fn && !d.vfOwns fn r a then .error 0x10
    else if !checkR9 r a v || refusedNow r a v d || sideEffects || (!(d.quiesceChanges r a v).isEmpty && !blockIdle r a v d) then .error 0x0F
    else if l.any (fun x => d.stagedBy r x (some t)) then .error 4
    else .ok (l.foldl (fun (d : Dev) x => d.stageReg t r x v (fun f => f.writable)) d)

/-- TXN_WRITE. -/
def execTxnWrite (c : HostCmd) (t : BitVec 8) (fabric : Bool) (die : BitVec 8) (off : BitVec 32) (value : Word64) (s : State) : Result := s.act fun d =>
  d.onTxn c 2 t.toNat openOrReady fun d =>
    if (if fabric then 12 else 4) ≤ die.toNat then refuse d 0x12
    else
      let x := if off.toNat % 8 ≠ 0 then none else findIn (if fabric then .fabric else .base) die.toNat off.toNat allRegs
      match d.txnStage t.toNat c.fn x value.toNat with
      | .ok d => done d
      | .error e => refuse d e (if e = 0x0F then off.toNat else 0)

/-- Stage a list, whole or not at all: the index of the first entry that fails, with its status. -/
def Dev.txnStageList (t fn : Nat) : Nat → List (Word64 × Word64) → Dev → Except (Nat × Nat) Dev
  | _, [], d => .ok d
  | k, (addr, v) :: rest, d =>
    match d.txnStage t fn ((findReg addr.toNat).map (fun x => (x.reg, x.ix))) v.toNat with
    | .ok d => txnStageList t fn (k + 1) rest d
    | .error e => .error (k, e)

/-- TXN_WRITE_LIST: `entries` is what host memory holds; none where its read failed. -/
def execTxnWriteList (c : HostCmd) (t : BitVec 8) (addr : Word64) (count : BitVec 32) (entries : Option (List (Word64 × Word64))) (s : State) : Result :=
  s.act fun d =>
  d.onTxn c 3 t.toNat openOrReady fun d =>
    if count = 0 || decide (65536 < count.toNat) then refuse d 0x12
    else match entries with
      | none => refuse d 0x82 addr.toNat
      | some l => match Dev.txnStageList t.toNat c.fn 0 l d with
        | .ok d => done d
        | .error (k, e) => refuse d e k

/-! ### Streams (R126, R86, R139) -/

/-- Bytes of the region-image area (R104). -/
def areaSize : Nat := 0x0FC00000

/-- Whether any base die is in reset, so that no slot can be read (R74). -/
def Dev.slotsShut (d : Dev) : Bool := (List.range 4).any (fun b => d.clk.inReset.contains b || d.clk.failed.contains b)

/-- A transaction goes LOADING on a stream of a source. -/
def Dev.loadTxn (d : Dev) (t src : Nat) (cmd : Option HostCmd) (fn : Nat) (icp : Option Nat) (req : Option PlaceReq) : Dev :=
  let from_ := d.tState t
  let d := (d.setTxn t { d.txn t with from_ := from_ }).setTState t tLOADING
  let d := d.beginStream (.txn t) src cmd fn
  { d with cfg := { d.cfg with icp := icp, req := req } }

/-- TXN_STREAM. The stream's own commands follow; it answers when they have ended. -/
def execTxnStream (c : HostCmd) (t : BitVec 8) (src : StreamSrc) (place : Option PlaceReq) (s : State) : Result := s.act fun d =>
  d.onTxn c 4 t.toNat openOrReady fun d =>
    let range := match src with
      | .slot n => decide (1 < n.val)
      | .area off => decide (areaSize ≤ off.toNat)
      | .host _ => false
    let placeBad := match place with | some p => decide (11 < p.die.toNat) || decide (63 < p.rgn.toNat) | none => false
    let shut := match src with | .slot n => d.slotsShut || !d.slotDir.valid n.val | _ => false
    let code := match src with | .host _ => (if c.fn.val = 63 then 3 else 2) | .slot n => n.val | .area _ => 6
    if d.isVf c.fn then refuse d 0x10
    else if range || placeBad then refuse d 0x12
    else if 16 ≤ d.rd F.HRT_TXN_STAT_streams (Ix.at t.toNat) then refuse d 0x0C
    else if shut then refuse d 3
    else if d.flag F.HRT_CFG_STAT_busy {} then refuse d 0x11 (d.rd F.HRT_CFG_STAT_source {})
    else (d.loadTxn t.toNat code (some c) c.fn none place, none)

/-! ### Reading, arming, ending -/

/-- A register as transaction t has staged it (R147). -/
def Dev.shadowWord (d : Dev) (t : Nat) (r : Reg) (a : Ix) : Nat :=
  let v := d.regRead r a
  let s := (d.txn t).staged
  r.info.fields.foldl (fun (w : Nat) f =>
    match s.vals.find? (fun x => x.1 == (r.info.fld f).key a) with
    | some (_, x) => w - bits w f.lo f.w * 2 ^ f.lo + x * 2 ^ f.lo
    | none => w) v

/-- TXN_READ. An address of `HRT_CFG_RD` names the `CFG_` register that it shows. -/
def execTxnRead (c : HostCmd) (t : BitVec 8) (addr : Word64) (s : State) : Result := s.act fun d =>
  d.onTxn c 5 t.toNat (fun s => decide (1 ≤ s) && decide (s ≤ tLAUNCHED)) fun d =>
    match findReg addr.toNat with
    | none => refuse d 0x12
    | some x =>
      if d.vfBarred (.fn c.fn) x.reg x.ix then refuse d 0x10
      else if x.reg = .HRT_CFG_RD then done d [d.shadowWord t.toNat (cfgReg x.ix.i) (cfgIx x.ix.i)]
      else done d [d.shadowWord t.toNat x.reg x.ix]

/-- TXN_COMMIT (R128): the result is the trigger's house time. -/
def execTxnCommit (c : HostCmd) (t : BitVec 8) (trig : Trigger) (s : State) : Result := s.act fun d =>
  d.onTxn c 6 t.toNat openOrReady fun d =>
    let (e, detail, d) := d.arm t.toNat trig
    if e = 0 then done d [timeWord (d.trigTime t.toNat)] else refuse d e detail

/-- TXN_CANCEL. -/
def execTxnCancel (c : HostCmd) (t : BitVec 8) (s : State) : Result := s.act fun d =>
  d.onTxn c 7 t.toNat (fun s => s = tARMED) fun d =>
    done (((d.unreserve t.toNat).setTxn t.toNat { d.txn t.toNat with trig := none }).setTState t.toNat tREADY)

/-- TXN_ROLLBACK. -/
def execTxnRollback (c : HostCmd) (t : BitVec 8) (s : State) : Result := s.act fun d =>
  d.onTxn c 8 t.toNat (fun s => decide (1 ≤ s) && decide (s ≤ tARMED)) fun d => done (d.rollTxn t.toNat 0)

/-- TXN_STATUS. -/
def execTxnStatus (c : HostCmd) (t : BitVec 8) (s : State) : Result := s.act fun d =>
  d.onTxn c 9 t.toNat (fun s => s ≠ tIDLE) fun d => done d (d.txnWords t.toNat)

/-- DEFAULT_TXN_AUTO_ARM (R125): the device arms a default transaction for the first instant at least 20 µs away. -/
def execDefaultTxnAutoArm (t : Fin 16) (s : State) : Result := s.act fun d =>
  let n := t.val
  if !(d.txn n).dflt || !openOrReady (d.tState n) || d.mode == .ember || d.mode == .cold || d.mode == .load then d else
  let ns := (d.ht + leadTime + (nsUnits - 1)) / nsUnits
  let (e, _, d) := d.arm n (.instant (ns / 10 ^ 9) (ns % 10 ^ 9))
  d.st F.HRT_TXN_STAT_status (Ix.at n) e

/-- TXN_TIMEOUT (R131): `txn_timeout` expires in OPEN or READY. -/
def execTxnTimeout (t : Fin 16) (s : State) : Result := s.act fun d =>
  let n := t.val
  if !openOrReady (d.tState n) || (d.txn n).dflt || (d.txn n).timeout = 0 then d else
  let d := d.rollTxn n 0x0E
  d.setTxn n { d.txn n with next := some 0x0E }

/-! ### The internal configuration port (R142, R143, R148) -/

/-- Whether the port of fabric die f works. -/
def Dev.icpOn (d : Dev) (f : Nat) : Bool :=
  d.flag F.FAB_ICP_CTL_enable (Ix.onDie f) && d.fab.step9 && d.mode != .cold && d.mode != .load && d.mode != .ember &&
  !d.clk.inReset.contains (4 + f) && !d.clk.failed.contains (4 + f)

/-- A command of the port completes with a status. -/
def Dev.icpEnd (d : Dev) (f status : Nat) : Dev :=
  let d := (d.st F.FAB_ICP_STAT_state (Ix.onDie f) (if status = 0 then 5 else 6)).st F.FAB_ICP_STAT_busy_other (Ix.onDie f) 0
  d.emit (.icpDone f status (d.rd F.FAB_ICP_STAT_err (Ix.onDie f)))

/-- The port's open transaction; its first command opens one with owner 255. -/
def Dev.icpTxn (d : Dev) (f : Nat) : Option (Nat × Dev) :=
  let fresh := (d.openTxn 255 false 0).map (fun x => (x.1, { x.2 with pl := { x.2.pl with icpTxn := x.2.pl.icpTxn.set none f (some x.1) } }))
  match Tbl.get none d.pl.icpTxn f with
  | some t => if d.tLive t then some (t, d) else fresh
  | none => fresh

/-- A command of the port on its transaction, in the states that allow it. -/
def Dev.onIcp (d : Dev) (f : Nat) (allowed : Nat → Bool) (g : Dev → Nat → Dev) : Dev :=
  if !d.icpOn f then d else
  match d.icpTxn f with
  | none => d.icpEnd f 2
  | some (t, d) => if allowed (d.tState t) then g d t else d.icpEnd f 3

/-- A stream of the port starts, or waits for the controller. -/
def Dev.icpStart (d : Dev) (f t src state : Nat) : Dev :=
  if 16 ≤ d.rd F.HRT_TXN_STAT_streams (Ix.at t) then d.icpEnd f 0x0C
  else if d.flag F.HRT_CFG_STAT_busy {} then d.st F.FAB_ICP_STAT_busy_other (Ix.onDie f) 1
  else ((d.st F.FAB_ICP_STAT_state (Ix.onDie f) state).st F.FAB_ICP_STAT_busy_other (Ix.onDie f) 0).loadTxn t src none 255 (some f) none

/-- ICP_STREAM_BYTES: command 0. -/
def execIcpStreamBytes (f : Fin 12) (s : State) : Result := s.act fun d =>
  d.onIcp f openOrReady fun d t => d.icpStart f t 5 1

/-- ICP_PEAT_LOAD: command 1, with the offset and length in the region-image area. -/
def execIcpPeatLoad (f : Fin 12) (param : Word64) (s : State) : Result := s.act fun d =>
  d.onIcp f openOrReady fun d t =>
    let off := param.toNat % 2 ^ 32
    let len := param.toNat / 2 ^ 32
    if !d.flag F.FAB_ICP_CTL_peat_ok (Ix.onDie f) then d.icpEnd f 3
    else if areaSize < off + len || len = 0 then d.icpEnd f 0x12
    else d.icpStart f t 6 3

/-- The words of a frame as readback gives them: what an unconfigured frame reads as is open. -/
def Dev.readFrame (d : Dev) (a : Nat) : List Nat × Dev :=
  match frameAt d.pl.active a with
  | [] => (List.range 32).foldl (fun (x : List Nat × Dev) _ => let (v, d) := x.2.draw 64; (x.1 ++ [v], d)) ([], d)
  | l => (l, d)

/-- Send the words of a run of frames. -/
def Dev.readFrames (f : Nat) : List (Nat × Nat × Nat) → Dev → Dev
  | [], d => d
  | (row, col, minor) :: rest, d =>
    let (l, d) := d.readFrame (frameAddr f row col minor)
    readFrames f rest (d.emit (.icpData f l))

/-- ICP_READBACK: command 2, frames of the active plane of the port's own die. -/
def execIcpReadback (f : Fin 12) (param : Word64) (s : State) : Result := s.act fun d =>
  if !d.icpOn f then d else
  let a := param.toNat % 2 ^ 24
  let n := param.toNat / 2 ^ 24 % 2 ^ 24
  let run := frameRun n (bits a 16 4) (bits a 6 10) (bits a 0 6)
  if !d.flag F.FAB_ICP_CTL_readback_ok (Ix.onDie f) then d.icpEnd f 3
  else if n = 0 || bits a 20 4 ≠ f || !frameExists a || run.any (fun x => decide (11 < x.1)) then d.icpEnd f 0x12
  else (Dev.readFrames f run (d.st F.FAB_ICP_STAT_state (Ix.onDie f) 2)).icpEnd f 0

/-- ICP_COMMIT: command 3, at a cadence event. -/
def execIcpCommit (f : Fin 12) (param : Word64) (s : State) : Result := s.act fun d =>
  d.onIcp f openOrReady fun d t =>
    let p := param.toNat
    let (e, _, d) := d.arm t (.cadence (p % 4) (p / 4 % 64) (bits p 8 3))
    let d := d.st F.HRT_TXN_STAT_status (Ix.at t) e
    if e = 0 then (d.icpEnd f 0).st F.FAB_ICP_STAT_state (Ix.onDie f) 4 else d.icpEnd f e

/-- ICP_ROLLBACK: command 4. -/
def execIcpRollback (f : Fin 12) (s : State) : Result := s.act fun d =>
  d.onIcp f (fun s => decide (1 ≤ s) && decide (s ≤ tARMED)) fun d t => (d.rollTxn t 0).icpEnd f 0

/-- ICP_ABORT: `icp_abort` ends the port's current stream. -/
def execIcpAbort (f : Fin 12) (s : State) : Result := s.act fun d =>
  if d.streaming && d.cfg.icp = some f.val then d.abortStream else d

/-- ICP_BUSY_TIMEOUT: 1 ms with another source holding the controller. -/
def execIcpBusyTimeout (f : Fin 12) (s : State) : Result := s.act fun d =>
  if d.flag F.FAB_ICP_STAT_busy_other (Ix.onDie f) then d.icpEnd f 4 else d

/-! ### Scrub (R144 to R146) -/

/-- A frame of a plane as `PlaneSt.rebuild` numbers it. -/
def planeKey (shadow : Bool) (a : Nat) : Nat := 2 * a + shadow.toNat

/-- Content of a frame in a plane, written. -/
def Dev.setFrame (d : Dev) (shadow : Bool) (a : Nat) (l : List Nat) : Dev :=
  if shadow then { d with pl := { d.pl with shadow := d.pl.shadow.set [] a l } } else { d with pl := { d.pl with active := d.pl.active.set [] a l } }

/-- The transaction that holds a frame. -/
def Dev.frameTxn (d : Dev) (a : Nat) : Option Nat :=
  (List.range 16).find? (fun t => d.tLive t && ((d.txn t).staged.frames.contains a || (d.cfg.path = .txn t && d.cfg.img.frames.contains a)))

/-- Whether scrub reads a frame now (R146, R148). -/
def Dev.scrubs (d : Dev) (a : Nat) : Bool :=
  frameExists a && d.mode != .cold && d.mode != .ember && (d.mode != .load || decide (7 ≤ d.rd F.HRT_BOOT_step {})) &&
  (List.range 16).all (fun t => decide (d.tState t ≠ tLAUNCHED) || !(d.txn t).staged.frames.contains a)

/-- A record of a frame. -/
def Dev.frameRecord (d : Dev) (a sev : Nat) : Dev :=
  d.occur { die := 4 + bits a 20 4, block := 0, inst := (d.frameRegion a).getD 0, cls := 1, sev := sev, action := if sev = 0 then 1 else 0, detail := a }

/-- Show how many frames await rebuild. -/
def Dev.rebuildShow (d : Dev) : Dev := d.st F.HRT_SCRUB_STAT_rebuild_pending {} (min 255 d.pl.rebuild.length)

/-- SCRUB_FRAME_READ. A frame corrected twice within 1 s is logged; an uncorrectable one awaits its rebuild, and holds unknown bits until then. -/
def execScrubFrameRead (shadow : Bool) (addr : BitVec 24) (found : ScrubFound) (s : State) : Result := s.act fun d =>
  let a := addr.toNat
  if !d.scrubs a then d else
  match found with
  | .clean => d
  | .corrected =>
    let last := Tbl.get 0 d.pl.corrected a
    let twice := decide (0 < last) && decide (d.root + 1 ≤ last + 1000 * msCycles)
    let d := (d.bump F.HRT_SCRUB_STAT_corrected {}).on twice (fun d => d.frameRecord a sevNote)
    { d with pl := { d.pl with corrected := d.pl.corrected.set 0 a (d.root + 1) } }
  | .bad =>
    if d.pl.rebuild.contains (planeKey shadow a) then d else
    let (l, d) := (List.range 32).foldl (fun (x : List Nat × Dev) _ => let (v, d) := x.2.draw 64; (x.1 ++ [v], d)) (([] : List Nat), d)
    let d := (d.setFrame shadow a l).bump F.HRT_SCRUB_STAT_uncorrectable {}
    let d := (d.st F.HRT_SCRUB_ERR_frame_addr {} a).stB F.HRT_SCRUB_ERR_plane {} shadow
    ({ d with pl := { d.pl with rebuild := d.pl.rebuild ++ [planeKey shadow a] } }).rebuildShow

/-- A frame's rebuild has ended from source `action`. -/
def Dev.rebuilt (d : Dev) (shadow : Bool) (a action : Nat) : Dev :=
  let d := (({ d with pl := { d.pl with rebuild := remove d.pl.rebuild (planeKey shadow a) } }).rebuildShow).st F.HRT_SCRUB_ERR_frame_addr {} a
  (d.stB F.HRT_SCRUB_ERR_plane {} shadow).st F.HRT_SCRUB_ERR_action {} action

/-- A frame of the shadow plane without a source fails the transaction that holds it. -/
def Dev.shadowLost (d : Dev) (a : Nat) : Dev :=
  match d.frameTxn a with
  | none => d
  | some t =>
    if d.cfg.path = .txn t then d.stopStream eSTORE_ECC d.cfg.pos a 0
    else (d.st F.HRT_TXN_STAT_stream_err (Ix.at t) eSTORE_ECC).dropTxn t tFAILED 6

/-- SCRUB_REBUILD_COMPLETE: the first source of R145 that holds the frame's content is the command's; one that R145 does not allow now changes
nothing. -/
def execScrubRebuildComplete (shadow : Bool) (addr : BitVec 24) (src : RebuildSrc) (s : State) : Result := s.act fun d =>
  let a := addr.toNat
  let other := (d.frameTxn a).isNone && !d.pl.stale.contains a && !d.pl.resync.contains a && !d.pl.rebuild.contains (planeKey (!shadow) a)
  if !d.pl.rebuild.contains (planeKey shadow a) || !d.scrubs a then d else
  match src with
  | .otherPlane => if other then (d.setFrame shadow a (frameAt (if shadow then d.pl.active else d.pl.shadow) a)).rebuilt shadow a 0 else d
  | .regionImage words => if other || words.length ≠ 32 then d else (d.setFrame shadow a (words.map (·.toNat))).rebuilt shadow a 1
  | .imageSlot words => if other || words.length ≠ 32 || d.slotsShut then d else (d.setFrame shadow a (words.map (·.toNat))).rebuilt shadow a 2
  | .none =>
    if other then d
    else if shadow then (d.rebuilt shadow a 3).shadowLost a
    else (d.rebuilt shadow a 3).frameRecord a (d.frameSev a)

end Sys2Proof.Machine
end

