-- ==== Sys2Proof/Machine/Startup.lean ====
section
/-! DEFINITION. Start-up, pins, triggers of SAFE, resets of dies and their return (R61 to R82, R100, R111, R511). Log entries: DEDUCED 20, 27, 28, 31, 33, 93; DESIGN CHOICE 11, 12. -/

namespace Sys2Proof.Machine

/-! ### From COLD to the start mode -/

/-- A level that FENCE_N has held low since before LOAD moves the device to SAFE at once (R82). -/
def Dev.fenceLevel (d : Dev) : Dev := if d.flag F.HRT_MODE_fence_pin {} && d.mode == .load then d.safeTrigger 2 false else d

/-- Kindling runs, once every rail is valid; a rail outside its window stops it at step 1 (R511). -/
def Dev.powerOn (d : Dev) (railsOk selfCheckOk : Bool) (kept : List (Fin 8)) : Dev :=
  if railsOk then (d.startup selfCheckOk kept).fenceLevel
  else { d with clk := { d.clk with held := false, stopped := true }, root := 0 }

/-- POR_N_RELEASE (R61, R66): start-up steps 1 to 4, and LOAD or SAFE; `kept` are the stacks whose VCC_HBM stayed valid and whose marker reads back (R443). After a thermal trip the device stays in reset while a sensor reads 95 °C or
more (R568). -/
def execPorNRelease (railsOk selfCheckOk : Bool) (kept : List (Fin 8)) (s : State) : Result := s.act fun d =>
  if !d.clk.held || (d.pwr.trip && !d.pwr.warm.isEmpty) then d
  else
    let d := d.on d.pwr.trip (fun d => d.emit (.pin "THERMTRIP_N" true))
    ({ d with pwr := { d.pwr with trip := false } }).powerOn railsOk selfCheckOk kept

/-- RAILS_VALID_AGAIN (R511): start-up repeats from step 1. -/
def execRailsValidAgain (selfCheckOk : Bool) (kept : List (Fin 8)) (s : State) : Result := s.act fun d =>
  if d.clk.stopped then (d.startup selfCheckOk kept).fenceLevel else d

/-- POR_N_ASSERT (R82): the device is held in device reset. -/
def execPorNAssert (s : State) : Result := s.act fun d =>
  d.deviceReset (some F.HRT_RST_CAUSE_por)

/-- HBM_TRAINING_COMPLETE (R66, R69, R420): stacks in training become ACTIVE, or failed with their ports closed. The verdict on the image follows
once it has committed. -/
def execHbmTrainingComplete (failed : List (Fin 8)) (s : State) : Result := s.act fun d =>
  ((List.range 8).filter (fun k => decide (d.rd F.HBM_STATUS_state (ctlIx k) = 1))).foldl (fun (d : Dev) (k : Nat) =>
    if failed.any (fun x => decide (x.val = k)) then
      let d := (d.st F.HBM_STATUS_state (ctlIx k) 4).closeDom (.stack (Fin.ofNat 8 k))
      let d := (List.range 64).foldl (fun (d : Dev) (n : Nat) => if d.rd F.CRY_RGN_state (rgnIx k n) ≠ 0 then d.destroyRegion k n else d) d
      d.on (decide (7 ≤ d.rd F.HRT_BOOT_step {})) (fun d => d.trainVerdict k)
    else d.st F.HBM_STATUS_state (ctlIx k) 2) d

/-- LANE_BRINGUP_COMPLETE (R66, R67): step 8 ends; lanes that are late come up on their own, each with a record. -/
def execLaneBringupComplete (late : List (Fin 4 × Fin 32)) (s : State) : Result := s.act fun d =>
  if d.mode == .cold || d.mode == .ember || d.rd F.HRT_BOOT_step {} ≠ 7 then d else
  let late := late.filter (fun e => decide (d.rd F.LN_STAT_state (Ix.on e.1 e.2) ≠ 0))
  late.foldl (fun (d : Dev) (e : Fin 4 × Fin 32) => d.occur (laneOcc e.1 e.2 sevDegrade)) (d.st F.HRT_BOOT_step {} 8)

/-- Whether the device takes part in a chain (R111). -/
def Dev.inChain (d : Dev) : Bool := d.fuse.chainIn || decide (d.rd F.HRT_CFG_CHAIN_remaining {} ≠ 0)

/-- Whether step 9 can be performed: step 8 and the training of every stack are complete, and a chain waits for its members. A device that a SAFE
trigger has taken out of LOAD after step 7 still performs it, behind the fence. -/
def Dev.step9Ready (d : Dev) : Bool :=
  d.mode != .cold && d.mode != .ember && d.rd F.HRT_BOOT_step {} = 8 && (List.range 8).all (fun k => decide (d.rd F.HBM_STATUS_state (ctlIx k) ≠ 1)) &&
  (!d.inChain || d.flag F.HRT_CFG_CHAIN_done_pin {} || d.flag F.HRT_CFG_CHAIN_wait_expired {})

/-- PLLs that the image enables and that have not locked, each with a record (R162). -/
def Dev.unlockedPlls (d : Dev) : Dev :=
  (List.range 72).foldl (fun (d : Dev) (k : Nat) =>
    d.on (d.pllOn (k / 6) (k % 6) && !d.flag F.FAB_PLL_STAT_locked (Ix.on (k / 6) (k % 6))) (fun d => d.pllRecord (k / 6) (k % 6) sevDegrade)) d

/-- Step 9 (R66, R161, R518): global set-reset is released, admission starts, the start mode is entered, the outputs show the design;
an IMAGE_LOAD is answered. -/
def Dev.step9 (d : Dev) : Dev :=
  let d := { d with fab := { d.fab with step9 := true } }
  let d := (List.range 384).foldl (fun (d : Dev) (k : Nat) => d.ungateNet (k / 32) (k % 32)) d
  let d := (List.range 12).foldl (fun (d : Dev) (f : Nat) => d.gsrStatus f) d
  let m := Mode.ofCode d.cfg.runStart
  let us := if d.rd F.HRT_BOOT_start_us {} = 0 then d.root / 3200 else d.rd F.HRT_BOOT_start_us {}
  let d := (d.st F.HRT_BOOT_step {} 9).st F.HRT_BOOT_start_us {} us
  let d := { d with pwr := { d.pwr with record := d.pwr.record.map (fun (r : EmberRec) => { r with consumed := true }), newer := false } }
  let d := d.unlockedPlls
  if d.mode == .load then
    let d := (d.setMode m m).unfence
    match d.cfg.cmd with
    | some c => { (d.respond c grpIMAGE 2 { status := 0 }) with cfg := { d.cfg with cmd := none } }
    | none => d
  else d

/-- STARTUP_STEP_9. -/
def execStartupStep9 (s : State) : Result := s.act fun d =>
  if d.step9Ready then d.step9 else d

/-- CHAIN_DONE_N_HIGH (R111): the last member of the chain has committed. The line stays low while this device pulls it. -/
def execChainDoneNHigh (s : State) : Result := s.act fun d =>
  if !d.flag F.HRT_CFG_CHAIN_released {} then d else
  let d := d.st F.HRT_CFG_CHAIN_done_pin {} 1
  if d.step9Ready then d.step9 else d

/-- CHAIN_WAIT_EXPIRED (R111): the line is still low 2 s after the device's own commit. -/
def execChainWaitExpired (s : State) : Result := s.act fun d =>
  if !d.inChain || d.mode == .cold || d.mode == .ember || d.fab.step9 || !d.flag F.HRT_CFG_CHAIN_released {} || d.flag F.HRT_CFG_CHAIN_done_pin {} || d.flag F.HRT_CFG_CHAIN_wait_expired {} then d
  else
    let d := (d.st F.HRT_CFG_CHAIN_wait_expired {} 1).occur { die := d.hearthDie, block := 15, inst := 0, cls := 1, sev := sevDegrade }
    if d.step9Ready then d.step9 else d

/-! ### Pins and triggers -/

/-- FENCE_N_ASSERT (R61, R82). -/
def execFenceNAssert (s : State) : Result := s.act fun d =>
  if d.flag F.HRT_MODE_fence_pin {} then d else (d.st F.HRT_MODE_fence_pin {} 1).safeTrigger 2 false

/-- FENCE_N_DEASSERT (R81, R82). -/
def execFenceNDeassert (s : State) : Result := s.act fun d => d.st F.HRT_MODE_fence_pin {} 0

/-- HEARTBEAT_LOSS_SAFE (R63). -/
def execHeartbeatLossSafe (s : State) : Result := s.act fun d => d.safeTrigger 4 false

/-- TAMPER_N_LOW (R100): the battery-backed key is zeroised, whether or not the device has power. -/
def execTamperNLow (s : State) : Result := s.act fun d =>
  ({ d with bbk := { key := none, tamperLow := true } } : Dev).st F.HRT_CFG_SEC_bbk_valid {} 0 |>.st F.HRT_CFG_SEC_tamper_seen {} 1

/-- VBATT_LOSS (R100). -/
def execVbattLoss (s : State) : Result := s.act fun d =>
  ({ d with bbk := { d.bbk with key := none } } : Dev).st F.HRT_CFG_SEC_bbk_valid {} 0

/-- MODE_TRIGGER (R61, R81, R579): the instant or event of an accepted MODE_SET arrives. A change that the mode no longer allows, or a condition of
R81 that now fails, refuses it; one that falls in EMBER is late. -/
def execModeTrigger (s : State) : Result := s.act fun d =>
  match d.pl.modeWait with
  | none => d
  | some w =>
    let old := d.mode
    let d := { d with pl := { d.pl with modeWait := none } }
    if old == .ember then d.answerMode w { status := 4 }
    else if !modeAllowed old w.mode then d.answerMode w { status := 1, detail := old.code }
    else if old == .safe && decide (d.safeBars ≠ 0) then d.answerMode w { status := 5, detail := d.safeBars }
    else (d.hostMode w.mode).answerMode w { status := 0, result := [timeWord w.time] }

/-! ### Dies (R41, R72 to R75) -/

/-- Whether every enabled slot that has its source, its sink or a hop on base die b is protected. -/
def Dev.dieProtected (d : Dev) (b : Nat) : Bool :=
  d.slotsOn.all (fun g =>
    let a := slotIx g
    let uses := decide (a.die = b) || decide (d.rd F.SSW_SLOT_CFG_sink_die a = b) ||
      (match d.slotRoute g with | some l => l.any (fun h => decide (h.router / 32 = b)) | none => false)
    !uses || d.rd F.SSW_SLOT_STAT_prot a = 1)

/-- BASE_DIE_CLOCK_LOST (R41, R73). -/
def execBaseDieClockLost (b : Fin 4) (s : State) : Result := s.act fun d =>
  if d.clk.held || d.clk.clockLost.contains b.val || d.clk.failed.contains b.val then d else
  let sev := if d.dieProtected b then sevDegrade else sevStream
  let d := { d with clk := { d.clk with clockLost := d.clk.clockLost ++ [b.val] } }
  ((d.st F.HT_ALIGN_invalid (Ix.onDie b) 1).baseReset b true).occur { die := b, block := 9, inst := 0, cls := 2, sev := sev, action := 8, detail := b }

/-- BASE_DIE_CLOCK_GOOD (R73): the monitor has seen a good clock for 1 ms. -/
def execBaseDieClockGood (b : Fin 4) (s : State) : Result := s.act fun d =>
  if d.clk.clockLost.contains b.val && !d.clk.failed.contains b.val then d.baseReturn b else d

/-- BASE_DIE_RESET_RELEASE (R72). -/
def execBaseDieResetRelease (b : Fin 4) (s : State) : Result := s.act fun d =>
  if d.clk.inReset.contains b.val && !d.clk.clockLost.contains b.val && !d.clk.failed.contains b.val then d.baseReturn b else d

/-- FABRIC_DIE_RESET_RELEASE (R71, R75). -/
def execFabricDieResetRelease (f : Fin 12) (s : State) : Result := s.act fun d =>
  if d.clk.inReset.contains (4 + f.val) && !d.clk.inReset.contains (f.val / 3) && !d.clk.failed.contains (4 + f.val) then d.fabricReturn f else d

end Sys2Proof.Machine
end

