-- ==== Sys2Proof/Machine/RegAccess.lean ====
section
/-! DEFINITION. Direct register accesses (R5 to R12, R124, R456, R576): DIRECT_REGISTER_WRITE and RC_FIELD_READ, and the accesses by address that
other families share with them. Log entries: DEDUCED 16, 17. -/

namespace Sys2Proof.Machine

/-! ### Where an access starts and where it is turned away -/

/-- The router at which a writer's packets enter the network: HOSTA at B0.RT19, HOSTB at B2.RT19, the Leash at B0.RT17 (R206, R450, R539); any other
initiator's write is taken as it reaches its target. -/
def writerRouter : Writer → Option (Nat × Nat)
  | .fn n => some (if n.val = 63 then 2 else 0, 19)
  | .leash => some (0, 17)
  | .other => none

/-- A posted register write to base die b as a packet, for its route. -/
def Dev.accessPkt (d : Dev) (b : Nat) : NocPkt :=
  { id := 0, op := 2, vc := 0, len := 1, rdLen := 0, tag := 0, code := 0, full := true, addr := 0, be := 0,
    dst := BitVec.ofNat 12 (endpoint b 17 4), src := 0, epoch := d.flag F.NOC_STATUS_epoch (Ix.onDie b), birth := 0, poison := false,
    resv := false, data := [] }

/-- The router whose edge port turns a packet away: the one at which its route ends with DOMOFF (R224). -/
def Dev.edgeOf (d : Dev) (p : NocPkt) : Nat → Nat → Nat → Option (Nat × Nat)
  | 0, _, _ => none
  | n + 1, b, r => match d.route b r p with
    | .domoff => some (b, r)
    | .forward q => match neighbour b r q with
      | some x => d.edgeOf p n x.1 x.2
      | none => none
    | _ => none

/-- A posted access to a base die that is closed: discarded, and counted at the edge router (R224, R576). -/
def Dev.discardAccess (d : Dev) (w : Writer) (b : Nat) : Dev :=
  match writerRouter w with
  | some (b0, r0) => match d.edgeOf (d.accessPkt b) 32 b0 r0 with
    | some (x, r) => d.dropAt x r
    | none => d
  | none => d

/-- Whether a writer can reach registers: host functions that are present, from start-up step 2; nobody in EMBER (R70, R77). -/
def Dev.reaches (d : Dev) (w : Writer) : Bool :=
  !d.clk.held && d.mode != .ember &&
  (match w with
   | .fn n => decide (2 ≤ d.rd F.HRT_BOOT_step {}) && decide (d.rd F.HRT_FN_STAT_type (Ix.at n) ≠ 0)
   | _ => true)

/-- The base die that answers for a control-space address. -/
def baseOfAddr (addr : Nat) : Nat := baseOf (dieOfAddr addr)

/-- The instance number of R476 of a register instance. -/
def instAt (blk : Nat) (a : Ix) : Nat := if blk = 6 then a.u * 32 + a.i else if blk = 3 then a.u * 52 + a.i else if blk = 5 then a.u else a.i

/-! ### Writes and reads by address -/

/-- A write that reached its satellite: applied, or rejected with its record (R12); a rejected ring tail counts at its function (R461). An offset that
names no register is all reserved bits: it takes 0. -/
def Dev.writeAt (d : Dev) (w : Writer) (addr v : Nat) (full : Bool) : Resp × Dev :=
  match findReg addr with
  | none => if full && v = 0 then (.done, d) else (.reject, d.rejectWrite addr 0)
  | some t =>
    let bad := d.rejectWrite addr (instAt (blockOfAddr addr) t.ix)
    if !full then (.reject, bad)
    else match d.writeReg w t.reg t.ix v (dieOfAddr addr) with
      | some d => (.done, d)
      | none => (.reject, bad.on (decide (t.reg = .HRT_CQ_TAIL) && refusedNow t.reg t.ix v d) (fun d => d.bump F.HRT_FN_STAT_ring_err t.ix))

/-- The value of a register by address, and whether it holds an RC field; an offset that names no register reads 0. -/
def Dev.peekAt (d : Dev) (addr : Nat) : Nat × Bool :=
  match findReg addr with
  | none => (0, false)
  | some t => (d.regRead t.reg t.ix, t.reg.hasRC)

/-- Read with the side effect: RC fields clear (R6). -/
def Dev.readAt (d : Dev) (addr : Nat) : Nat × Dev :=
  match findReg addr with
  | none => (0, d)
  | some t => (d.regRead t.reg t.ix, d.clearRC t.reg t.ix)

/-! ### The commands -/

/-- Whether the host reaches an address by BAR0 (R456): base-die control space alone. -/
def barReach (w : Writer) (addr : Nat) : Bool :=
  match w with
  | .fn _ => decide (addr < 0xF040000000)
  | _ => true

/-- Whether a virtual function's write goes beyond the LIVE fields of what it may reach (R456). -/
def Dev.vfWriteBarred (d : Dev) (w : Writer) (addr v : Nat) : Bool :=
  match w with
  | .fn n => d.isVf n && (match findReg addr with
      | none => true
      | some t => d.vfBarred w t.reg t.ix || !(d.stagedChanges t.reg t.ix v Staged.empty).isEmpty || !(d.quiesceChanges t.reg t.ix v).isEmpty)
  | _ => false

/-- Answer a non-posted access. -/
def Dev.answerAccess (d : Dev) (posted : Bool) (code : Resp) : Dev := d.on (!posted) (fun d => d.emit (.reply code))

/-- A register write, from its initiator to its effect (R5, R9, R10, R12, R124, R456, R576). -/
def Dev.registerWrite (d : Dev) (w : Writer) (a : Nat) (full : Bool) (value : Word64) (posted : Bool) : Dev :=
  if !d.reaches w || !isControl a || !barReach w a then d
  else if d.dieOff (baseOfAddr a) then (if posted then d.discardAccess w (baseOfAddr a) else d.answerAccess posted .domoff)
  else if d.vfWriteBarred w a value.toNat then d.countDenied w
  else
    let (code, d) := d.writeAt w a value.toNat full
    d.answerAccess posted code

/-- DIRECT_REGISTER_WRITE. -/
def execDirectRegisterWrite (w : Writer) (addr : BitVec 48) (full : Bool) (value : Word64) (posted : Bool) (s : State) : Result := s.act fun d =>
  d.registerWrite w addr.toNat full value posted

/-! ### Rows that are writes of one register -/

/-- A posted 64-bit write of the register that holds a field. -/
def Dev.postedWrite (d : Dev) (w : Writer) (f : Fld) (a : Ix) (v : Word64) : Dev := d.registerWrite w (f.addr a) true v true

/-- HT_HOST_ADJ_WRITE (R49, R576): a write that passes R9 hands the servo its offsets. -/
def execHtHostAdjWrite (w : Writer) (die : Fin 4) (value : Word64) (s : State) : Result := s.act fun d =>
  d.registerWrite w (F.HT_HOST_ADJ_phase.addr {} + 0x10000000 * die) true value true

/-- ERROR_INJECT_GO (R290): a write of `LN_ERRINJ`. -/
def execErrorInjectGo (w : Writer) (b : Fin 4) (l : Fin 32) (value : Word64) (s : State) : Result := s.act fun d =>
  d.postedWrite w F.LN_ERRINJ_go (Ix.on b l) value

/-- LINK_KEY_SWITCH (R447): a write of `CRY_LINK`(g) with `switch` set. -/
def execLinkKeySwitch (w : Writer) (b : Fin 4) (g : Fin 2) (value : Word64) (s : State) : Result := s.act fun d =>
  d.postedWrite w F.CRY_LINK_switch (Ix.on b g) value

/-- KEN_CR_CONS_WRITE (R405). -/
def execKenCrConsWrite (w : Writer) (b : Fin 4) (r : Fin 256) (value : Word64) (s : State) : Result := s.act fun d =>
  d.postedWrite w F.KEN_CR_CONS_cons (Ix.on b r) value

/-- KEN_DOORBELL (R385, R458): a write of `KEN_QDB`, by BAR4 for a host function; a doorbell of a virtual function outside its partition is dropped
and counted. -/
def execKenDoorbell (w : Writer) (q : Fin 8192) (value : Word64) (s : State) : Result := s.act fun d =>
  let a := qIx q.val
  let inPart := match w with | .fn n => d.queueInPart n a.die a.i | _ => true
  if !d.reaches w then d
  else if d.dieOff a.die then d.discardAccess w a.die
  else if !inPart then d.countDenied w
  else (d.writeAt w (F.KEN_QDB_total.addr a) value.toNat true).2

/-- HRT_CQ_TAIL_WRITE (R461, R576): the number of commands written, at base die b's address of function fn's register. -/
def execHrtCqTailWrite (w : Writer) (b : Fin 4) (fn : Fin 64) (full : Bool) (value : Word64) (posted : Bool) (s : State) : Result := s.act fun d =>
  d.registerWrite w (F.HRT_CQ_TAIL_tail.addr (Ix.at fn) + 0x10000000 * b) full value posted

/-- RC_FIELD_READ (R5 to R7, R456): the value returned, and every RC field of the register cleared. Commands follow one another, so an event that would
land on the cycle of the read stands after it, and is kept. -/
def execRcFieldRead (w : Writer) (addr : BitVec 48) (full : Bool) (s : State) : Result := s.act fun d =>
  let a := addr.toNat
  if !d.reaches w || !isControl a || !barReach w a then d
  else if d.dieOff (baseOfAddr a) then d.emit (.reply .domoff)
  else if !full then (match w with
    | .fn n => d.emit (.pcie n 1 false [])
    | _ => d.emit .readNone)
  else match findReg a with
    | some t =>
      if d.vfBarred w t.reg t.ix then (d.countDenied w).emit (.readData 0 false)
      else
        let (v, d) := d.readAt a
        d.emit (.readData v false)
    | none => (d.on (match w with | .fn n => d.isVf n | _ => false) (fun d => d.countDenied w)).emit (.readData 0 false)

end Sys2Proof.Machine
end

