-- ==== Sys2Proof/Machine/Target.lean ====
section
/-! DEFINITION. What a target answers to a request that reaches it by address (R104, R208, R211, R321), and the requests themselves: RD, WR, WRP and MSG
packets, transfers of engines, and accesses through BAR2. Log entries: DEDUCED 32, 52, 53. -/

namespace Sys2Proof.Machine

/-- The response of a code of R14. -/
def Resp.ofCode : Nat → Resp
  | 0 => .done | 1 => .fault | 2 => .noroute | 3 => .timeout | 4 => .poison | 5 => .keyoff | 6 => .domoff | _ => .reject

/-! ### The peat store (R104) -/

/-- The first device address of the read window, and its readable bytes. -/
def peatBase : Nat := 0xC000000000
/-- Bytes of the window that can be read. -/
def peatBytes : Nat := 0x79100000

/-- One byte of the peat store's logical space. -/
def Dev.peatByte (d : Dev) (o : Nat) : Byte := BitVec.ofNat 8 (bits (Tbl.get 0 d.peat.words (o / 8)) (8 * (o % 8)) 8)

/-- Write one byte. -/
def PeatSt.put (p : PeatSt) (o : Nat) (v : Byte) : PeatSt :=
  let w := Tbl.get 0 p.words (o / 8)
  let s := 8 * (o % 8)
  { p with words := p.words.set 0 (o / 8) (w - bits w s 8 * 2 ^ s + v.toNat * 2 ^ s) }

/-- Write consecutive bytes. -/
def Dev.peatPut (d : Dev) (o : Nat) (l : List Byte) : Dev :=
  { d with peat := (placeBytes o l).foldl (fun (p : PeatSt) (e : Nat × Byte) => p.put e.1 e.2) d.peat }

/-- Read n bytes at a logical address. The directory, the Ember records, the fault log and the journal have no layout in the spec: their bytes are free
values. A slot that no die can complete, or a unit that its ECC cannot correct, answers FAULT. -/
def Dev.peatRead (d : Dev) (o n : Nat) : Resp × List Byte × Dev :=
  if peatBytes < o + n then (.fault, [], d)
  else if o < 0x64400000 && (d.slotsShut || d.slotBad 0 o n) then (.fault, [], d)
  else if 0x64400000 ≤ o && decide (o < 0x69500000) then
    let (v, d) := d.draw (8 * n)
    (.done, numBytes v n, d)
  else (.done, (List.range n).map (fun i => d.peatByte (o + i)), d)

/-! ### A request at its target -/

/-- What the outside says of a request: an answer of user logic or of another device, or a code other than DONE that the network gave it. -/
def netCode (answer : Option ApAnswer) : Option Resp :=
  match answer with
  | some a => if a.code.val = 0 then none else some (Resp.ofCode a.code)
  | none => none

/-- The bytes that an answer of the outside carries. -/
def outside (n : Nat) (answer : Option ApAnswer) : Option (Resp × List Byte) :=
  answer.map (fun a => (Resp.ofCode a.code, ((wordBytes 0 a.data).map (·.2)).take n))

/-- Read n bytes at a device address: none while the target has not completed. A control register is read by 8 bytes, or as the one word of a flit of
128 bytes that its address names; any other width is rejected (R5). -/
def Dev.serveRead (d : Dev) (key addr n : Nat) (answer : Option ApAnswer) : Option (Resp × List Byte × Dev) :=
  let x := addr % 2 ^ 46
  let away := (outside n answer).map (fun e => (e.1, e.2, d))
  if addr / 2 ^ 46 % 4 ≠ 0 then away
  else match d.decodeAddr x, netCode answer with
    | none, _ => some (.noroute, [], d)
    | _, some r => some (r, (outside n answer).elim [] (·.2), d)
    | some _, none =>
      if peatBase ≤ x && decide (x < peatBase + 0x80000000) then some (d.peatRead (x - peatBase) n)
      else if isControl x then
        if d.dieOff (baseOfAddr x) then some (.domoff, [], d)
        else if x % 8 ≠ 0 || (n ≠ 8 && n ≠ 128) then some (.reject, [], d)
        else
          let (v, d) := d.readAt x
          some (.done, if n = 8 then numBytes v 8 else List.replicate (x % 128) 0#8 ++ numBytes v 8 ++ List.replicate (120 - x % 128) 0#8, d)
      else match d.devRead key x n with
        | some r => some r
        | none => away

/-- Write bytes, each with its device address, for an access of n bytes at addr: none while the target has not completed. `w` writes registers, `by_` is the
engine that writes, if one does. The peat store's window is for reads alone. -/
def Dev.serveWrite (d : Dev) (w : Writer) (by_ : Option Nat) (key addr n : Nat) (bytes : List (Nat × Byte)) (poison : Bool) (answer : Option ApAnswer) :
    Option (Resp × Dev) :=
  let x := addr % 2 ^ 46
  let away := (outside 0 answer).map (fun e => (e.1, d))
  if addr / 2 ^ 46 % 4 ≠ 0 then away
  else match d.decodeAddr x, netCode answer with
    | none, _ => some (.noroute, d)
    | _, some r => some (r, d)
    | some _, none =>
      if peatBase ≤ x && decide (x < peatBase + 0x80000000) then some (.fault, d)
      else if isControl x then
        let r := ((bytes.map (·.1)).headD addr) % 2 ^ 46
        if d.dieOff (baseOfAddr x) then some (.domoff, d)
        else some (d.writeAt w (r / 8 * 8) (leNat (bytes.map (·.2))) (bytes.length = 8 && r % 8 = 0))
      else match d.devWrite by_ key x n (bytes.map (fun e => (e.1 % 2 ^ 46, e.2))) poison with
        | some r => some r
        | none => away

/-! ### Packets (R211) -/

/-- The key ID of a packet's address. -/
def pktKey (p : NocPkt) : Nat := bits p.addr.toNat 56 7

/-- The device address of a packet: a partner numbers this device itself, so the package bits are dropped (R208). -/
def pktAddr (p : NocPkt) : Nat := p.addr.toNat % 2 ^ 46

/-- The bytes that a write carries: all of its payload, or those of one flit that `be` enables. -/
def pktBytes (p : NocPkt) : List (Nat × Byte) :=
  let l := wordBytes (pktAddr p) p.data
  if p.full then l else l.filter (fun e => bits p.be.toNat (e.1 - (pktAddr p)) 1 = 1)

/-- A packet that has reached the local port of its destination leaves the network; a closed domain answers DOMOFF there. One for another package
leaves by its far-mode group. -/
def Dev.landed (d : Dev) (p : NocPkt) (f : Dev → Dev) : Dev :=
  if d.mode == .ember then d else
  let d := d.unbuffer p.id
  let b := p.dst.toNat / 256
  let r := p.dst.toNat / 8 % 32
  if p.pkg ≠ 0 then d
  else if d.localShut b r (p.dst.toNat % 8) then d.synth b r p .domoff
  else f d

/-- A target takes a request: it answers, or holds it until it has completed (R223). An address that is not the target's own answers FAULT. -/
def Dev.serve (d : Dev) (p : NocPkt) (f : Dev → Option (Resp × List Byte × Dev)) : Dev :=
  let d := { d with noc := { d.noc with taken := d.noc.taken.filter (fun q => decide (q ≠ p)) } }
  if d.decodeAddr (pktAddr p) ≠ some p.dst.toNat then d.answer p .fault []
  else match f d with
    | some (r, l, d) => d.answer p r (bytesWords l)
    | none => { d with noc := { d.noc with taken := d.noc.taken ++ [p] } }

/-- RD (R210, R211). -/
def execRd (p : NocPkt) (answer : Option ApAnswer) (s : State) : Result := s.act fun d =>
  d.landed p fun d => d.serve p fun d => d.serveRead (pktKey p) (pktAddr p) (128 * p.rdLen) answer

/-- What a write packet does at its target. -/
def Dev.pktWrite (d : Dev) (p : NocPkt) (answer : Option ApAnswer) : Option (Resp × List Byte × Dev) :=
  (d.serveWrite .other none (pktKey p) (pktAddr p) (128 * p.len) (pktBytes p) p.poison answer).map (fun e => (e.1, [], e.2))

/-- WR. -/
def execWr (p : NocPkt) (answer : Option ApAnswer) (s : State) : Result := s.act fun d =>
  d.landed p fun d => d.serve p fun d => d.pktWrite p answer

/-- WRP: user logic takes a posted write and answers nothing. -/
def execWrp (p : NocPkt) (s : State) : Result := s.act fun d =>
  d.landed p fun d => d.serve p fun d => d.pktWrite p (some { code := 0, data := [] })

/-- MSG: a posted message leaves the network at its target. -/
def execMsg (p : NocPkt) (s : State) : Result := s.act fun d => d.landed p fun d => d

/-! ### Transfers of engines (R338, R379) -/

/-- Bytes of an engine's local memory. -/
def EngSt.localBytes (x : EngSt) (la n : Nat) : List Byte := (List.range n).map (fun i => Tbl.get 0#8 x.mem (la + i))

/-- The move of a transfer: its code, and the device after it. None while a target has not completed. -/
def Dev.move (d : Dev) (e : Nat) (t : Xfer) (answer : Option ApAnswer) : Option (Resp × Dev) :=
  let key := bits t.addr 56 7
  let addr := t.addr % 2 ^ 48
  if bits t.addr 48 8 ≠ 0 then some (.reject, d)
  else if t.out then
    d.serveWrite .other (some e) key addr t.bytes (placeBytes addr ((d.eng e).localBytes t.la t.bytes)) false answer
  else match d.serveRead key addr t.bytes answer with
    | none => none
    | some (r, l, d) =>
      let x := d.eng e
      some (r, if r = .done || r = .poison then
          d.setEng e { x with mem := (placeBytes t.la l).foldl (fun (m : Tbl Byte) (b : Nat × Byte) => m.set 0#8 b.1 b.2) x.mem } else d)

/-- TRANSFER_COMPLETE: the oldest transfer of engine e completes (R338: in issue order), and its tag is done with its code. A failed engine takes
nothing into its memory (R346). -/
def execTransferComplete (e : Fin 1024) (answer : Option ApAnswer) (s : State) : Result := s.act fun d =>
  let e := e.val
  if d.mode == .ember || !d.packUp (e / 32) then d else
  match (d.eng e).xfers with
  | [] => d
  | t :: rest =>
    match (if d.engState e = 4 && !t.out then some (Resp.done, d) else d.move e t answer) with
    | none => d
    | some (r, d) =>
      let x := d.eng e
      d.setEng e { x.setTag t.tag (tagDone r.code) with xfers := rest }

/-! ### BAR2 (R457) -/

/-- Count a BAR2 access that did not end in DONE. -/
def Dev.barErr (d : Dev) (fn : Nat) : Dev := d.bump F.HRT_FN_STAT_bar_err (Ix.at fn)

/-- BAR2_ACCESS: a posted write of the given bytes, or a read of as many bytes. A target that has not completed by the initiator's timeout counts as
TIMEOUT (R222). In EMBER a read completes with Completer Abort and a write is dropped (R77). -/
def execBar2Access (fn : Fin 64) (off : BitVec 36) (write : Bool) (bytes : List Byte) (answer : Option ApAnswer) (s : State) : Result := s.act fun d =>
  let a := Ix.at fn
  let addr := d.rd F.HRT_BAR2_win a * 2 ^ 36 + off.toNat
  let key := d.rd F.HRT_BAR2_key_id a
  if d.clk.held || d.rd F.HRT_FN_STAT_type a = 0 || decide (d.rd F.HRT_BOOT_step {} < 2) then d
  else if d.mode == .ember then (if write then d else d.emit (.pcie fn 4 false []))
  else if write then
    match d.serveWrite (.fn fn) none key addr bytes.length (placeBytes addr bytes) false answer with
    | some (.done, d) => d
    | some (_, d) => d.barErr fn
    | none => d.barErr fn
  else match d.serveRead key addr bytes.length answer with
    | some (.done, l, d) => d.emit (.pcie fn 0 false ((bytesWords l).map (·.toNat)))
    | some (.poison, l, d) => d.emit (.pcie fn 0 true ((bytesWords l).map (·.toNat)))
    | some (_, _, d) => (d.barErr fn).emit (.pcie fn 4 false [])
    | none => (d.barErr fn).emit (.pcie fn 4 false [])

end Sys2Proof.Machine
end

