-- ==== Sys2Proof/Machine/Hearth.lean ====
section
/-! DEFINITION. Hearth's controllers and the IMAGE and MODE commands (chapter Hearth and the Host Interface, R105, R463 to R472). Log entries: DEDUCED 26, 32, 34, 41, 76. -/

namespace Sys2Proof.Machine

/-! ### Failover (R74, R469 to R471) -/

/-- A stream in progress starts again from its first byte, once what it wrote is restored (R470). -/
def Dev.restartStream (d : Dev) : Dev :=
  let x := d.cfg
  let again := fun (d : Dev) =>
    let d := d.beginStream x.path (d.rd F.HRT_CFG_STAT_source {}) x.cmd x.fn
    { d with cfg := { d.cfg with icp := x.icp, req := x.req } }
  match x.path with
  | .none => d
  | .startup => again { d with pl := { d.pl with shadow := [] } }
  | _ => again ((d.markStale x.img.frames).copyBack x.img.frames)

/-- The standby takes over: the armed commits whose launch fell between failure and fence are cancelled with LATE; where the old controller failed, a
record of severity DEGRADE names it. -/
def Dev.takeover (d : Dev) (missed : List (Fin 16)) (failed : Bool) : Dev :=
  let old := d.hearthDie
  let d := missed.foldl (fun (d : Dev) (t : Fin 16) => if d.tState t = tARMED then d.cancelLaunch t 7 else d) d
  let d := (d.st F.HRT_HEARTH_active {} (1 - d.rd F.HRT_HEARTH_active {})).st F.HRT_HEARTH_standby_ready {} 0
  let d := (d.st F.HRT_HEARTH_fw_active {} (d.rd F.HRT_HEARTH_fw_standby {})).st F.HRT_HEARTH_fw_standby {} 0
  let d := ({ d with hst := { d.hst with runBank := d.hst.standbyBank } }).bump F.HRT_HEARTH_takeovers {}
  d.restartStream.on failed (fun d => d.occur { die := old, block := 15, inst := 0, cls := 16, sev := sevDegrade, action := 10 })

/-- HEARTH_TAKEOVER (R63, R469): a lockstep mismatch, or 100 µs without a heartbeat. Without a ready standby no takeover happens. -/
def execHearthTakeover (missed : List (Fin 16)) (s : State) : Result := s.act fun d =>
  if d.clk.held || d.mode == .ember || !d.flag F.HRT_HEARTH_standby_ready {} then d else d.takeover missed true

/-! ### Image slots (R105, R107) -/

/-- Bytes of a slot. -/
def slotBytes : Nat := 840957952

/-- Whether a slot is being read at start-up, or holds the running image. -/
def Dev.slotInUse (d : Dev) (n : Nat) : Bool :=
  decide (d.cfg.runSlot = some n) || (decide (d.cfg.path = .startup) && decide (d.rd F.HRT_CFG_STAT_source {} = n))

/-- Set a slot's entry in a directory copy. -/
def SlotDir.setSlot (x : SlotDir) (n : Nat) (valid : Bool) (svn len : Nat) : SlotDir :=
  if n = 0 then { x with valid0 := valid, svn0 := svn, len0 := len } else { x with valid1 := valid, svn1 := svn, len1 := len }

/-- Change both directory copies. -/
def Dev.bothDirs (d : Dev) (f : SlotDir → SlotDir) : Dev :=
  ({ d with peat := { d.peat with dirA := f d.peat.dirA, dirB := f d.peat.dirB } }).dirRegs

/-- Change the copy that counts: the good one with the higher sequence number. -/
def Dev.newerDir (d : Dev) (f : SlotDir → SlotDir) : Dev :=
  (if d.slotDir = d.peat.dirA then { d with peat := { d.peat with dirA := f d.peat.dirA } }
   else { d with peat := { d.peat with dirB := f d.peat.dirB } }).dirRegs

/-- The checks of R88 and the tag check over stored bytes: `unread` says which byte ranges cannot be read. The error and its offset. -/
def Dev.storedError (d : Dev) (bytes : List Byte) (kindOk : Nat → Bool) (tagOk : Bool) (unread : Nat → Nat → Bool) : Option (Nat × Nat) :=
  let h := Hdr.parse bytes
  if unread 0 256 then some (eSTORE_ECC, 0)
  else if bytes.length < 256 then some (eEARLY_END, bytes.length)
  else match d.headerError (bytes.take 256) kindOk with
    | some e => some e
    | none =>
      if unread 256 (min bytes.length h.total - 256) then some (eSTORE_ECC, 256)
      else if bytes.length < h.total then some (eEARLY_END, bytes.length)
      else if !tagOk then some (0x16, 256 + h.bodyLen)
      else none

/-- IMAGE_SLOT_WRITE (R74, R105, R464): the slot's `valid` is cleared, what the host delivers is written, with fresh ECC in every unit but those whose
cells are bad, and checked; then `valid` is set in the copy that counts. -/
def execImageSlotWrite (c : HostCmd) (slot : BitVec 8) (addr : Word64) (len : BitVec 32) (bytes : List Byte) (tagOk : Bool) (bad : List Nat) (s : State) : Result :=
  s.act fun d => d.command c grpIMAGE 1 fun d =>
    let n := slot.toNat
    let base := n * slotBytes
    if 1 < n || len.toNat = 0 || decide (slotBytes < len.toNat) then refuse d 7
    else if d.slotsShut || d.slotInUse n then refuse d 1 d.mode.code
    else if d.flag F.HRT_CFG_STAT_busy {} then refuse d 3 (d.rd F.HRT_CFG_STAT_source {})
    else
      let data := bytes.take len.toNat
      let units := slotBytes / 4096
      let d := d.bothDirs (fun x => x.setSlot n false 0 0)
      let d := d.peatPut base data
      let left := d.peat.badUnits.filter (fun u => decide (u / units ≠ n))
      let new := (bad.filter (fun u => decide (u < units))).map (fun u => n * units + u)
      let d := { d with peat := { d.peat with badUnits := left ++ new } }
      if data.length < len.toNat then refuse d 0x82 addr.toNat
      else match d.storedError data (fun k => k = 0) tagOk (fun o m => d.slotBad n o m) with
        | some (code, o) => refuse (d.streamErr code 0 o 0 0) 2 code
        | none =>
          let h := Hdr.parse data
          done (d.newerDir (fun x => x.setSlot n true h.svn h.total)) [h.svn]

/-- IMAGE_BOOT_PREF. -/
def execImageBootPref (c : HostCmd) (slot : BitVec 8) (s : State) : Result := s.act fun d =>
  d.command c grpIMAGE 4 fun d =>
    if 1 < slot.toNat then refuse d 7 else done (d.bothDirs (fun x => { x with bootPref := slot.toNat }))

/-- IMAGE_SVN_COMMIT (R101). -/
def execImageSvnCommit (c : HostCmd) (s : State) : Result := s.act fun d =>
  d.command c grpIMAGE 5 fun d =>
    if !d.pl.image || !d.cfg.reached || decide (d.cfg.runSvn ≤ d.fuse.svnFuse) then refuse d 8
    else done (({ d with fuse := { d.fuse with svnFuse := d.cfg.runSvn } }).fuseRegs)

/-- IMAGE_REGION_PUT (R104): a stream of any kind that passes the checks of R88 and its tag is stored in the region-image area. -/
def execImageRegionPut (c : HostCmd) (off : BitVec 32) (addr : Word64) (len : BitVec 32) (bytes : List Byte) (tagOk : Bool) (s : State) : Result :=
  s.act fun d => d.command c grpIMAGE 6 fun d =>
    let data := bytes.take len.toNat
    if len.toNat = 0 || decide (areaSize < off.toNat + len.toNat) then refuse d 7
    else if d.flag F.HRT_CFG_STAT_busy {} then refuse d 3 (d.rd F.HRT_CFG_STAT_source {})
    else if data.length < len.toNat then refuse d 0x82 addr.toNat
    else match d.storedError data (fun _ => true) tagOk (fun _ _ => false) with
      | some (code, o) => refuse (d.streamErr code 0 o 0 0) 2 code
      | none => done (d.peatPut (0x69500000 + off.toNat) data)

/-! ### Full load (R61, R86, R112) -/

/-- LOAD is entered for a full load: open transactions are rolled back, the outputs fenced, user logic held by global set-reset until step 9. -/
def Dev.enterLoad (d : Dev) : Dev :=
  let d := (d.rollAll 0xB).fence
  let d := ((d.setMode .load .load).st F.HRT_MODE_safe_cause {} 0).st F.HRT_BOOT_step {} 4
  let d := { d with fab := { d.fab with step9 := false, released := [] } }
  let d := (List.range 384).foldl (fun (d : Dev) (k : Nat) => d.gateNet (k / 32) (k % 32)) d
  (List.range 12).foldl (fun (d : Dev) (f : Nat) => d.gsrStatus f) d

/-- IMAGE_LOAD: a full load that is not hitless; the stream's own commands follow, and it answers when step 9 is done or the load has failed. SAFE is
not left while FENCE_N is low (R82). -/
def execImageLoad (c : HostCmd) (src : BitVec 8) (addr : Word64) (len : BitVec 32) (s : State) : Result := s.act fun d =>
  d.command c grpIMAGE 2 fun d =>
    let n := src.toNat
    if 2 < n || (n = 2 && (len.toNat = 0 || decide (2 ^ 64 ≤ addr.toNat + len.toNat))) then refuse d 7
    else if (d.mode != .rehearse && d.mode != .safe) || d.flag F.HRT_MODE_fence_pin {} then refuse d 1 d.mode.code
    else if d.flag F.HRT_CFG_STAT_busy {} then refuse d 3 (d.rd F.HRT_CFG_STAT_source {})
    else if n < 2 && (d.slotsShut || !d.slotDir.valid n) then refuse d 1 d.mode.code
    else (d.enterLoad.beginStream .hostLoad (if n < 2 then n else if c.fn.val = 63 then 3 else 2) (some c) c.fn, none)

/-- IMAGE_ABORT (R61, R64, R112, R473): the stream in progress ends with ABORTED; a load ends in SAFE. -/
def execImageAbort (c : HostCmd) (s : State) : Result := s.act fun d =>
  d.command c grpIMAGE 3 fun d =>
    match d.cfg.path with
    | .startup =>
      let sec := match d.cfg.err with | some e => e.code | none => 0
      let d := d.streamErr eABORTED sec d.cfg.pos 0 0
      done (({ d with pl := { d.pl with shadow := [] } }).freeController.safeTrigger 1 true)
    | .none =>
      if d.mode == .load then done (d.safeTrigger (if d.cfg.cmd.isSome then 10 else 1) true) else refuse d 1 d.mode.code
    | _ => done d.abortStream

/-! ### Firmware (R472) -/

/-- Bytes of a firmware bank. -/
def bankBytes : Nat := 0x3780000

/-- Fill a bank. -/
def Dev.setBank (d : Dev) (n : Nat) (x : FwBank) : Dev :=
  { d with hst := if n = 0 then { d.hst with bank0 := x } else { d.hst with bank1 := x } }

/-- IMAGE_FW_STAGE: the bank that the active controller does not run is written and checked. -/
def execImageFwStage (c : HostCmd) (addr : Word64) (len : BitVec 32) (image : Option FwImage) (s : State) : Result := s.act fun d =>
  d.command c grpIMAGE 7 fun d =>
    if len.toNat = 0 || decide (bankBytes < len.toNat) then refuse d 7
    else
      let d := d.st F.HRT_HEARTH_fw_staged {} 0
      match image with
      | none => refuse d 0x82 addr.toNat
      | some x =>
        let d := d.setBank (1 - d.hst.runBank) { version := x.version, svn := x.svn, content := x.content }
        if !x.sigOk then refuse d 9 1
        else if x.svn.val < d.fuse.fwSvn then refuse d 9 2
        else if !x.journalOk then refuse d 9 3
        else done (d.st F.HRT_HEARTH_fw_staged {} 1)

/-- IMAGE_FW_ACTIVATE: `standbyUp` says that the standby came up on the staged bank, `oldUp` that the old active controller did so after the handover. -/
def execImageFwActivate (c : HostCmd) (commitSvn standbyUp oldUp : Bool) (s : State) : Result := s.act fun d =>
  d.command c grpIMAGE 8 fun d =>
    if !d.flag F.HRT_HEARTH_fw_staged {} then refuse d 1 d.mode.code
    else if !d.flag F.HRT_HEARTH_standby_ready {} || !standbyUp then refuse d 9 4
    else
      let n := 1 - d.hst.runBank
      let v := (d.bank n).version
      let d := (d.st F.HRT_HEARTH_active {} (1 - d.rd F.HRT_HEARTH_active {})).st F.HRT_HEARTH_fw_active {} v
      let d := ({ d with hst := { d.hst with runBank := n, standbyBank := n } }).st F.HRT_HEARTH_fw_staged {} 0
      if oldUp then
        let d := { d with hst := { d.hst with bootBank := n },
                          fuse := { d.fuse with fwSvn := if commitSvn then max d.fuse.fwSvn (d.bank n).svn else d.fuse.fwSvn } }
        done ((d.st F.HRT_HEARTH_fw_standby {} v).st F.HRT_HEARTH_fw_svn {} d.fuse.fwSvn)
      else refuse ((d.st F.HRT_HEARTH_standby_ready {} 0).st F.HRT_HEARTH_fw_standby {} 0) 9 4

/-! ### MODE (R61, R62, R77, R81, R463) -/

/-- MODE_SET: SAFE is entered, and BENCH left, at once; any other change waits for its trigger. -/
def execModeSet (c : HostCmd) (mode : BitVec 8) (trig : Trigger) (s : State) : Result := s.act fun d =>
  d.command c grpMODE 1 fun d =>
    let m := Mode.ofCode mode.toNat
    if 7 < mode.toNat then refuse d 7
    else if !modeAllowed d.mode m || (m != .safe && d.pl.modeWait.isSome) then refuse d 1 d.mode.code
    else if d.mode == .safe && decide (d.safeBars ≠ 0) then refuse d 5 d.safeBars
    else if m == .safe || d.mode == .bench then done (d.hostMode m) [timeWord d.ht]
    else match d.trigger trig with
      | .error e => refuse d (if e = 7 then 4 else 7)
      | .ok t => ({ d with pl := { d.pl with modeWait := some { mode := m, time := t, trig := trig, cmd := some c } } }, none)

/-- MODE_RESET: a host device reset; start-up follows by itself, and no response is written. -/
def execModeReset (c : HostCmd) (railsOk selfCheckOk : Bool) (kept : List (Fin 8)) (s : State) : Result := s.act fun d =>
  d.command c grpMODE 2 fun d => ((d.deviceReset (some F.HRT_RST_CAUSE_host_reset)).powerOn railsOk selfCheckOk kept, none)

/-- MODE_LEASH: CONTROL in SAFE is allowed, or withdrawn. -/
def execModeLeash (c : HostCmd) (allow : Bool) (s : State) : Result := s.act fun d =>
  d.command c grpMODE 3 fun d =>
    done { d with lsh := { d.lsh with allow := allow } }

end Sys2Proof.Machine
end

