-- ==== Sys2Proof/Machine/Repair.lean ====
section
/-! DEFINITION. The REPAIR commands (R71 to R76, R187, R418, R463). Log entries: DEDUCED 47, 76; DESIGN CHOICE 29. -/

namespace Sys2Proof.Machine

/-- Whether a die is in reset or has failed. -/
def Dev.dieGone (d : Dev) (n : Nat) : Bool := d.clk.inReset.contains n || d.clk.failed.contains n

/-- REPAIR_BASE_RESET (R72, R74): the die of the active Hearth controller goes into reset once the standby has taken over. -/
def execRepairBaseReset (c : HostCmd) (die : BitVec 8) (s : State) : Result := s.act fun d =>
  d.command c grpREPAIR 1 fun d =>
    let b := die.toNat
    if 3 < b then refuse d 7
    else if d.dieGone b then refuse d 1 d.mode.code
    else if b = d.hearthDie then
      if d.flag F.HRT_HEARTH_standby_ready {} then done ((d.takeover [] false).baseReset b false) else refuse d 6
    else done (d.baseReset b false)

/-- REPAIR_FABRIC_RESET (R71, R75). -/
def execRepairFabricReset (c : HostCmd) (die : BitVec 8) (s : State) : Result := s.act fun d =>
  d.command c grpREPAIR 2 fun d =>
    let f := die.toNat
    if 11 < f then refuse d 7
    else if d.dieGone (4 + f) || d.dieGone (f / 3) then refuse d 1 d.mode.code
    else done (d.fabricReset f)

/-! ### Block reset (R71, R76) -/

/-- Instances of a block on a base die, as R476 numbers them. -/
def blockInsts (blk : Nat) : Nat :=
  match blk with
  | 0 => 2048 | 1 => 1024 | 2 => 32 | 3 => 104 | 4 => 32 | 5 => 6 | 6 => 256 | 10 => 224 | _ => 1

/-- Count back every outstanding credit of the instances of a pool kind that `p` picks. -/
def Dev.creditsBack (d : Dev) (b k : Nat) (p : Nat → Bool) : Dev :=
  (d.led.out.filter (fun e => decide (e.1 / 4096 = b * 8 + k) && p (e.1 % 4096))).foldl (fun (d : Dev) (e : Nat × Nat) => d.giveBack b k (e.1 % 4096) e.2) d

/-- The cord with register index n on base die b (R204). -/
def cordAt (b n : Nat) : Option CordId :=
  (List.range 640).map (fun k => CordId.cord (Fin.ofNat 640 k)) |>.find? (fun c => (cordEnds c).1 = some (Ix.on b n) || (cordEnds c).2 = some (Ix.on b n))

/-- Both ends of a cord let go of what they hold and train again (R187, R197): the receiver's buffer has been delivered, and the outstanding credits are
counted back. -/
def Dev.retrain (d : Dev) (c : CordId) (retest : Bool) : Dev :=
  (d.setCord c { CordSt.fresh with bad := (d.cord c).bad, retest := retest }).setCordState c 1

/-- A slot's state machine and buffers start afresh. -/
def Dev.slotFresh (d : Dev) (g : Nat) : Dev :=
  let x := d.slot g
  let d := (d.giveBack (d.rd F.SSW_SLOT_CFG_sink_die (slotIx g)) 2 0 x.extra).setSlot g SlotSt.fresh
  { d with ssw := { d.ssw with merges := d.ssw.merges.set MergeSt.start g MergeSt.start } }

/-- An engine's state machines and registers start afresh; its task is lost, or runs again from its start (R406). -/
def Dev.engineFresh (d : Dev) (e : Nat) : Dev :=
  let d := (d.engineTaskLost e 1).2
  let d := d.setEng e { EngSt.fresh with mem := (d.eng e).mem }
  if d.engState e = 4 || d.engState e = 6 then d else d.setEngState e 0

/-- The media state machines of a port group start afresh. -/
def Dev.groupFresh (d : Dev) (p : Nat) : Dev :=
  { d with mp := { d.mp with sdi := d.mp.sdi.filter (fun e => decide (e.1 / 8 ≠ p)), rx := d.mp.rx.filter (fun e => decide (e.1 / 64 ≠ p)),
                             tx := d.mp.tx.filter (fun e => decide (e.1 / 64 ≠ p)), hostRx := d.mp.hostRx.filter (fun e => decide (e.1 ≠ p)) } }

/-- Packets in a router's buffers are discarded, their credits counted back. -/
def Dev.routerFresh (d : Dev) (b r : Nat) : Dev :=
  (d.noc.bufs.filter (fun x => decide (x.router = b * 32 + r))).foldl (fun (d : Dev) (x : NocBuf) => d.unbuffer x.pkt.id) d

/-- The waiting tasks of a queue end as lost; its tokens return with their records. -/
def Dev.queueFresh (d : Dev) (q : Nat) : Dev :=
  (d.queue q).foldl (fun (d : Dev) (t : Task) => d.complete t stLOST 1 0 none) (d.setQueue q [])

/-- Block reset: state machines and buffers of one instance; configuration registers stay, and the ledger counts the instance's credits back. The
ledger's storage and the fault log survive every reset. -/
def Dev.blockReset (d : Dev) (b blk i : Nat) : Dev :=
  match blk with
  | 0 => d.queueFresh (b * 2048 + i)
  | 1 => d.slotFresh (b * 1024 + i)
  | 2 => (d.routerFresh b i).creditsBack b 0 (fun n => n / 64 = i)
  | 3 => d.creditsBack b 4 (fun n => n / 128 = i / 52)
  | 4 => d.laneSet b i
  | 5 => d.groupFresh (6 * b + i)
  | 6 => d.engineFresh (b * 256 + i)
  | 7 => d.sliceCut b false
  | 8 => ({ d with obs := { d.obs with fifo := d.obs.fifo.set [] b [] } }).st F.EVT_TR_STAT_fifo_level (Ix.onDie b) 0
  | 9 => { d with htx := { d.htx with dev := d.htx.dev.set 0 b 0 } }
  | 10 => match cordAt b i with
    | some c => if d.cordState c = 5 then d else d.retrain c false
    | none => d
  | 14 => if b = 0 then d.closeSession else d
  | _ => d

/-- REPAIR_BLOCK_RESET. -/
def execRepairBlockReset (c : HostCmd) (die block : BitVec 8) (inst : BitVec 32) (s : State) : Result := s.act fun d =>
  d.command c grpREPAIR 3 fun d =>
    if 3 < die.toNat || 15 < block.toNat || decide (blockInsts block.toNat ≤ inst.toNat) then refuse d 7
    else if d.dieGone die.toNat then refuse d 1 d.mode.code
    else done (d.blockReset die.toNat block.toNat inst.toNat)

/-! ### Cords, rows, controllers -/

/-- REPAIR_CORD (R187, R192, R197): a narrowed cord is first taken out of service; once its credits have been recovered it trains. -/
def execRepairCord (c : HostCmd) (die : BitVec 8) (n : BitVec 32) (retest : Bool) (s : State) : Result := s.act fun d =>
  d.command c grpREPAIR 4 fun d =>
    if 3 < die.toNat || 223 < n.toNat then refuse d 7
    else match cordAt die.toNat n.toNat with
      | none => refuse d 7
      | some k =>
        if d.cordEndReset k then refuse d 1 d.mode.code
        else if d.cordState k = 3 then done ((d.cordOut k).retrain k retest)
        else if d.cordState k = 5 then done (d.retrain k retest)
        else refuse d 1 d.mode.code

/-- REPAIR_PPR (R418). -/
def execRepairPpr (c : HostCmd) (die ctl : BitVec 8) (s : State) : Result := s.act fun d =>
  d.command c grpREPAIR 5 fun d =>
    if 3 < die.toNat || 1 < ctl.toNat then refuse d 7
    else if d.dieGone die.toNat then refuse d 1 d.mode.code
    else done (d.hardRepair (2 * die.toNat + ctl.toNat))

/-- REPAIR_HEARTH: `up` says that the failed controller came up; it runs the boot bank. -/
def execRepairHearth (c : HostCmd) (up : Bool) (s : State) : Result := s.act fun d =>
  d.command c grpREPAIR 6 fun d =>
    if d.flag F.HRT_HEARTH_standby_ready {} || d.dieGone (2 - d.hearthDie) then refuse d 1 d.mode.code
    else if !up then refuse d 6
    else
      let d := { d with hst := { d.hst with standbyBank := d.hst.bootBank } }
      done ((d.st F.HRT_HEARTH_standby_ready {} 1).st F.HRT_HEARTH_fw_standby {} (d.bank d.hst.bootBank).version)

end Sys2Proof.Machine
end

