-- ==== Sys2Proof/Machine/Faults.lean ====
section
/-! DEFINITION. Fault records and their handling (R475 to R490): occurrences, completed actions, overflow of the ring, failed dies. Log entries: DEDUCED 25, 46, 47, 78, 79. -/

namespace Sys2Proof.Machine

/-- FAULT_OCCURRENCE (R475 to R484): a fault that no other command names. A record of class LEDGER tells of a count lost from all three copies (R501). -/
def execFaultOccurrence (o : FaultIn) (s : State) : Result := s.act fun d =>
  if d.clk.held then d else
  let d := d.on (decide (o.cls.val = 19) && decide (o.die.val < 4)) (fun d => d.st F.LDG_STATUS_tmr_uncorr (Ix.onDie o.die) 1)
  d.occur { die := o.die, block := o.block, inst := o.inst, cls := o.cls, sev := o.sev, action := o.action, sub := o.sub, fn := o.fn,
            detail := o.detail.toNat, needs := o.needs, repair := o.repair, res := o.res }

/-! ### Handlings (R482, R484, R488) -/

/-- The oldest open handling whose record found no entry (R484). -/
def Dev.unstored (d : Dev) : Option (Nat × FltRec) :=
  d.flt.recs.foldl (fun best e =>
    if e.1 < 256 then best else
    match best with
    | none => some e
    | some b => if e.2.seq < b.2.seq then some e else best) none

/-- An entry of the ring has closed (R484): `overflow` clears, and the record of an unstored handling takes the entry. -/
def Dev.entryFreed (d : Dev) : Dev :=
  let d := d.st F.FLT_STATUS_overflow {} 0
  match d.unstored, d.freeEntry with
  | some (k, r), some n => (d.putRec k none).storeRec n r
  | _, _ => d

/-- A record leaves handling: it is closed, and a record without an entry is forgotten. -/
def Dev.closeRec (d : Dev) (k : Nat) (r : FltRec) : Dev :=
  let d := if k < 256 then (d.putRec k (some { r with openR := false, stage := 0, res := [] })).entryFreed else d.putRec k none
  d.resched

/-- HANDLING_ACTION_DONE (R482, R488): the action under way of a record under handling, or of one that was suspended meanwhile, has completed. -/
def execHandlingActionDone (entry : Nat) (next : HandlingNext) (s : State) : Result := s.act fun d =>
  match Tbl.get none d.flt.ring entry with
  | none => d
  | some r =>
    if r.stage ≠ 1 && r.stage ≠ 2 then d else
    match next with
    | .proceeds a res => ((d.putRec entry (some { r with action := a, res := res })).resched).repairMode
    | .closes a => if r.stage = 1 then (d.closeRec entry { r with action := a }).repairMode else d
    | .unresolved =>
      if r.stage = 1 then
        let d := (d.closeRec entry { r with unresolved := true }).repairMode
        if r.sev = sevDevice then d.safeTrigger 5 false else d
      else d

/-! ### Overflow of the ring (R484) -/

/-- The oldest open record of the lowest severity in the ring. -/
def Dev.lowestOpen (d : Dev) : Option (Nat × FltRec) :=
  d.flt.recs.foldl (fun best e =>
    if !e.2.openR || decide (256 ≤ e.1) then best else
    match best with
    | none => some e
    | some b => if e.2.sev < b.2.sev || (e.2.sev = b.2.sev && decide (e.2.ord < b.2.ord)) then some e else best) none

/-- RING_OVERFLOW_ESCALATION (R484): `overflow` has stayed set for 1 ms. The OVERFLOW record is the record of the entry into SAFE (R64); the handling of the
record it overwrites goes on. -/
def execRingOverflowEscalation (s : State) : Result := s.act fun d =>
  if !d.flag F.FLT_STATUS_overflow {} then d else
  match d.lowestOpen with
  | none => d
  | some (k, old) =>
    let seq := d.rd F.FLT_STATUS_seq_next {}
    let r : FltRec :=
      { sec := d.sec % 2 ^ 32, ns := d.ns, seq := seq, era := d.flt.era, die := d.hearthDie, block := 12, inst := 0, sub := 0, cls := 22, sev := sevDevice,
        action := 15, openR := false, merged := false, preempted := false, unresolved := false, count := 1, fn := 255, detail := 5, repair := false, stage := 0, res := [] }
    let d := d.addWrap F.FLT_STATUS_seq_next {}
    let d := d.bump (sevFld F.FLT_OVF_note F.FLT_OVF_degrade F.FLT_OVF_stream F.FLT_OVF_device old.sev) {}
    let d := (d.putRec (256 + old.seq) (some old)).storeRec k r
    let d := (d.st F.FLT_STATUS_escalated {} 1).st F.FLT_STATUS_overflow {} 0
    d.resched.safeTrigger 5 true

/-- FLT_INJECT (R502): a write of the register at base die b's address. -/
def execFltInject (w : Writer) (b : Fin 4) (value : Word64) (posted : Bool) (s : State) : Result := s.act fun d =>
  d.registerWrite w (F.FLT_INJECT_go.addr {} + 0x10000000 * b) true value posted

/-! ### Failed dies (R489, R490) -/

/-- Whether every region of fabric die f has a twin on another base die. -/
def Dev.allTwinned (d : Dev) (f : Nat) : Bool :=
  (List.range 64).all (fun n => !d.flag F.FAB_RGN_DEF_defined (Ix.on f n) ||
    (d.hasTwin f n && decide (d.rd F.FAB_RGN_CTL_twin_die (Ix.on f n) / 3 ≠ f / 3)))

/-- The resource number of a die in the handling order. -/
def resDie (n : Nat) : Nat := 2 ^ 42 + n

/-- Fabric die f has failed (R489): it is held in fabric-die reset until the next device start. -/
def Dev.fabricDieFailed (d : Dev) (f : Nat) : Dev :=
  if d.clk.failed.contains (4 + f) then d else
  let sev := if d.allTwinned f then sevDegrade else sevStream
  let d := d.on (!d.clk.inReset.contains (4 + f)) (fun d => d.fabricReset f)
  let d := { d with clk := { d.clk with failed := addNew d.clk.failed (4 + f) } }
  d.occur { die := 4 + f, block := 0, inst := 0, cls := 1, sev := sev, action := 11, detail := f, needs := true, repair := true, res := [resDie (4 + f)] }

/-- FABRIC_DIE_FAILED. -/
def execFabricDieFailed (f : Fin 12) (s : State) : Result := s.act fun d => if d.clk.held then d else d.fabricDieFailed f

/-- BASE_DIE_FAILED (R490): Hearth fails over first where the die holds the active controller; the die stays in base-die reset, with its fabric dies and its
stacks failed; credits that it holds stay outstanding at its neighbours. -/
def execBaseDieFailed (b : Fin 4) (s : State) : Result := s.act fun d =>
  if d.clk.held || d.clk.failed.contains b.val then d else
  let sev := if d.dieProtected b then sevDegrade else sevStream
  let d := d.on (decide (b.val = d.hearthDie) && d.flag F.HRT_HEARTH_standby_ready {}) (fun d => d.takeover [] true)
  let d := d.on (!d.clk.inReset.contains b.val) (fun d => d.baseReset b true)
  let d := { d with clk := { d.clk with failed := addNew d.clk.failed b.val } }
  let d := (List.range 3).foldl (fun (d : Dev) (i : Nat) => d.fabricDieFailed (3 * b + i)) d
  let d := (d.failStack (2 * b)).failStack (2 * b + 1)
  let d := (cordsOf b).foldl (fun (d : Dev) (c : CordId) =>
    match cordEnds c with
    | (some x, some y) => if x.die = b && y.die ≠ b then d.heldCredits y.die 1 (d.cord c).outst.sum else d
    | _ => d) d
  d.occur { die := b, block := 15, inst := 0, cls := 16, sev := sev, action := 11, detail := b, needs := true, repair := true, res := [resDie b] }

end Sys2Proof.Machine
end

