-- ==== Sys2Proof/Machine/HostFn.lean ====
section
/-! DEFINITION. QUERY and LOG commands, unknown entries, and resets of functions and host ports (R70, R455, R462 to R464). Log entries: DEDUCED 77, 92. -/

namespace Sys2Proof.Machine

/-! ### QUERY -/

/-- QUERY_ID. -/
def execQueryId (c : HostCmd) (s : State) : Result := s.act fun d =>
  d.command c grpQUERY 1 fun d => done d [d.regRead .HRT_ID {}, d.regRead .HRT_SN {}]

/-- Words written to host memory, or HOST_DMA with the address. -/
def Dev.toMemory (d : Dev) (fn addr : Nat) (ok : Bool) (words result : List Nat) : Dev × Option Reply :=
  if ok then done (d.emit (.hostWrite fn addr words)) result else refuse d 0x82 addr

/-- QUERY_PART: `HRT_PART_KEY`, then `HRT_PART_Q` and `HRT_PART_SLOT` of base dies 0 to 3. -/
def execQueryPart (c : HostCmd) (addr : Word64) (dmaOk : Bool) (s : State) : Result := s.act fun d =>
  d.command c grpQUERY 2 fun d =>
    let on := fun (r : Reg) => (List.range 4).map (fun b => d.regRead r { i := c.fn, j := b })
    d.toMemory c.fn addr.toNat dmaOk ([d.regRead .HRT_PART_KEY (Ix.at c.fn)] ++ on .HRT_PART_Q ++ on .HRT_PART_SLOT) []

/-- QUERY_TIME: `HT_NOW_LO` and `HT_NOW_HI` of the active controller's base die. -/
def execQueryTime (c : HostCmd) (s : State) : Result := s.act fun d =>
  d.command c grpQUERY 3 fun d => done d [d.regRead .HT_NOW_LO (Ix.onDie d.hearthDie), d.regRead .HT_NOW_HI (Ix.onDie d.hearthDie)]

/-- QUERY_HEALTH: mode, controllers, start-up, and the records in the ring at each severity. -/
def execQueryHealth (c : HostCmd) (addr : Word64) (dmaOk : Bool) (s : State) : Result := s.act fun d =>
  d.command c grpQUERY 4 fun d =>
    let at_ := fun (sev : Nat) => (d.flt.recs.filter (fun e => decide (e.1 < 256) && decide (e.2.sev = sev))).length
    d.toMemory c.fn addr.toNat dmaOk ([d.regRead .HRT_MODE {}, d.regRead .HRT_HEARTH {}, d.regRead .HRT_BOOT {}] ++ (List.range 4).map at_) []

/-! ### LOG -/

/-- Insert a record by its place in time. -/
def insertRec (r : FltRec) : List FltRec → List FltRec
  | [] => [r]
  | x :: l => if r.ord < x.ord then r :: x :: l else x :: insertRec r l

/-- The records that a function has not read and may see, oldest first. -/
def Dev.unread (d : Dev) (fn : Nat) : List FltRec :=
  ((d.flt.recs.filter (fun e => decide (e.1 < 256) && decide (Tbl.get 0 d.flt.readPos fn ≤ e.2.ord) && d.sees fn e.2)).map (·.2)).foldl
    (fun l r => insertRec r l) []

/-- LOG_READ (R463). -/
def execLogRead (c : HostCmd) (addr : Word64) (max : BitVec 32) (dmaOk : Bool) (s : State) : Result := s.act fun d =>
  d.command c grpLOG 1 fun d =>
    let l := (d.unread c.fn).take max.toNat
    if max.toNat = 0 || 256 < max.toNat then refuse d 7
    else match l.getLast? with
      | none => refuse d 0x0A
      | some r =>
        if !dmaOk then refuse d 0x82 addr.toNat
        else
          let d := { d with flt := { d.flt with readPos := d.flt.readPos.set 0 c.fn (r.ord + 1) } }
          d.toMemory c.fn addr.toNat true (l.flatMap (·.words)) [l.length]

/-- LOG_NOTIFY: a virtual function has 32 vectors, a physical one 2,048 (R454, R458). -/
def execLogNotify (c : HostCmd) (vec : BitVec 32) (sev : BitVec 8) (enable : Bool) (s : State) : Result := s.act fun d =>
  d.command c grpLOG 2 fun d =>
    if (if d.isVf c.fn then 32 else 2048) ≤ vec.toNat || 3 < sev.toNat then refuse d 7
    else
      let n := if enable then some { vec := vec.toNat, sev := sev.toNat } else none
      done { d with flt := { d.flt with notify := d.flt.notify.set none c.fn n } }

/-- UNKNOWN_COMMAND_ENTRY (R462): an unknown group or command, or a non-zero reserved or unused byte. -/
def execUnknownCommandEntry (c : HostCmd) (group cmd : BitVec 8) (s : State) : Result := s.act fun d =>
  if !d.ringOpen c.fn then d
  else (d.addWrap F.HRT_CQ_HEAD_taken (Ix.at c.fn)).respond c group.toNat cmd.toNat { status := 0x80 }

/-! ### Function reset (R70, R455) -/

/-- The actions of a Function Level Reset: rings disabled, responses of its commands discarded, open transactions rolled back, the BAR2 window cleared. -/
def Dev.flr (d : Dev) (fn : Nat) : Dev :=
  let a := Ix.at fn
  let own := fun (c : Option HostCmd) => c.filter (fun c => decide (c.fn.val ≠ fn))
  let d := d.st F.HRT_CQ_CFG_enable a 0
  let d := { d with cfg := { d.cfg with cmd := own d.cfg.cmd },
                    pl := { d.pl with modeWait := d.pl.modeWait.map (fun (w : ModeWait) => { w with cmd := own w.cmd }) },
                    kln := { d.kln with slice := d.kln.slice.map (fun (e : Nat × Option KilnSlice) => (e.1, e.2.map (fun (x : KilnSlice) => { x with cmd := own x.cmd })))
                                        wait := d.kln.wait.filter (fun w => decide (w.cmd.fn.val ≠ fn)) } }
  ((d.rollOwner fn).st F.HRT_BAR2_win a 0).st F.HRT_BAR2_key_id a 0

/-- FUNCTION_LEVEL_RESET: in EMBER the request completes with Completer Abort (R77). -/
def execFunctionLevelReset (fn : Fin 64) (s : State) : Result := s.act fun d =>
  if d.clk.held || d.rd F.HRT_FN_STAT_type (Ix.at fn) = 0 then d
  else if d.mode == .ember then d.emit (.pcie fn 4 false [])
  else d.flr fn

/-- HOST_PERST (R70, R455): every function of the port; on HOSTA, function 0, its virtual functions, and function 62. -/
def execHostPerst (hostb : Bool) (s : State) : Result := s.act fun d =>
  if d.clk.held then d else
  ((List.range 64).filter (fun fn => decide (d.rd F.HRT_FN_STAT_type (Ix.at fn) ≠ 0) &&
      ((fn = 63 && d.rd F.HRT_FN_STAT_type (Ix.at fn) = 1 && d.fuse.hostbEn) == hostb))).foldl (fun (d : Dev) (fn : Nat) => d.flr fn) d

end Sys2Proof.Machine
end

