-- ==== Sys2Proof/Machine/Kiln.lean ====
section
/-! DEFINITION. Kiln (R463, R491 to R498): the commands that start, end, recall and report its slices. Log entries: DEDUCED 80; DESIGN CHOICE 13. -/

namespace Sys2Proof.Machine

/-- Whether a repair under way names the unit, which Kiln then does not take (R498). -/
def Dev.repairNames (d : Dev) (b u : Nat) : Bool :=
  d.mode == .repair && d.flt.recs.any (fun e => e.2.repair && (e.2.stage == 1 || e.2.stage == 2) &&
    decide (e.2.die = b) && decide (e.2.block = klnBlock u) && decide (e.2.inst = klnInst u))

/-- Whether the slice window lets a slice of this unit start now (R495). -/
def Dev.windowOpen (d : Dev) (b u : Nat) : Bool :=
  let a := Ix.onDie b
  let cg := d.rd F.KLN_WIN_win_cg a
  let line := d.rd F.HT_CG_STAT_line (Ix.on (cg / 64) (cg % 64))
  !d.flag F.KLN_WIN_win_en a || decide (bits (d.rd F.KLN_WIN_win_types a) (klnKind u) 1 = 0) ||
  (decide (d.rd F.KLN_WIN_line_first a ≤ line) && decide (line ≤ d.rd F.KLN_WIN_line_last a))

/-- Whether the schedule takes the unit: slices are enabled, the window is open, the unit is no halted engine, and a failed unit is an engine or a router
that has not failed again. -/
def Dev.scheduled (d : Dev) (b u : Nat) : Bool :=
  d.flag F.KLN_CFG_enable (Ix.onDie b) && d.windowOpen b u && !(klnKind u = 0 && decide (d.engState (b * 256 + u) = 3)) &&
  (!d.unitFailed b u || (decide (klnKind u < 2) && !d.kln.failedTwice.contains (klnKey b u)))

/-- KILN_SLICE_START (R491 to R495, R497): Kiln's turn comes to a unit, by its schedule or for a KILN_RUN that waits; `handed` says that the block was able to
hand it over: an engine idle within 1 ms, a router drained behind a table set without it. A unit that its block declines gets the verdict REFUSED. -/
def execKilnSliceStart (b : Fin 4) (unit : Fin 410) (handed : Bool) (s : State) : Result := s.act fun d =>
  let u := unit.val
  if !d.mode.kiln || d.dieOff b || (d.slice b).isSome || d.repairNames b u then d else
  let want := d.kln.wait.find? (fun w => decide (w.die = b.val) && decide (w.unit = u))
  if want.isNone && !d.scheduled b u then d else
  let d := match want with
    | some w => { d with kln := { d.kln with wait := d.kln.wait.erase w } }
    | none => d
  let cmd := want.map (·.cmd)
  if d.unitFailed b u then d.sliceBegin b u cmd
  else if !handed || d.spareTaken b u || !d.unitReady b u then d.sliceRefused b u cmd
  else d.sliceBegin b u cmd

/-- KILN_SLICE_END (R492, R493, R496, R497). -/
def execKilnSliceEnd (b : Fin 4) (patterns : Fin 129) (sigOk : Bool) (sig : Word64) (restoreErr : Bool) (s : State) : Result := s.act fun d =>
  match d.slice b with
  | none => d
  | some x => d.sliceDone b x patterns sigOk sig.toNat restoreErr

/-- KILN_RECALL (R494): the block asks for the unit back; a full test knows no recall. -/
def execKilnRecall (b : Fin 4) (patterns : Fin 128) (sig : Word64) (restoreErr : Bool) (s : State) : Result := s.act fun d =>
  match d.slice b with
  | none => d
  | some x => if x.full then d else d.sliceDone b x patterns true sig.toNat restoreErr

/-- KILN_OVERDUE (R495): the unit's last full pass is more than 60 minutes old. -/
def execKilnOverdue (b : Fin 4) (unit : Fin 410) (s : State) : Result := s.act fun d =>
  let a := Ix.on b unit
  if d.flag F.KLN_RES_overdue a || d.clk.held then d else
  let d := (d.st F.KLN_RES_overdue a 1).st F.KLN_STATUS_overdue (Ix.onDie b) (min 65535 (d.rd F.KLN_STATUS_overdue (Ix.onDie b) + 1))
  d.occur { die := b, block := klnBlock unit, inst := klnInst unit, cls := 17, sev := sevNote }

/-- KILN_RUN (R463, R464, R497): answered with the verdict when the slice or the full test ends. -/
def execKilnRun (c : HostCmd) (die block : BitVec 8) (inst : BitVec 32) (s : State) : Result := s.act fun d =>
  d.command c grpKILN 1 fun d =>
    let b := die.toNat
    match klnUnit block.toNat inst.toNat with
    | none => refuse d 7
    | some u =>
      if 3 < b then refuse d 7
      else if d.dieGone b || d.repairNames b u then refuse d 1 d.mode.code
      else if !d.unitFailed b u && d.spareTaken b u then refuse d 3
      else (Dev.kilnNext { d with kln := { d.kln with wait := d.kln.wait ++ [{ die := b, unit := u, cmd := c }] } } b, none)

/-- KILN_RESULT. -/
def execKilnResult (c : HostCmd) (die block : BitVec 8) (inst : BitVec 32) (s : State) : Result := s.act fun d =>
  d.command c grpKILN 2 fun d =>
    match klnUnit block.toNat inst.toNat with
    | none => refuse d 7
    | some u => if 3 < die.toNat then refuse d 7 else done d [d.regRead .KLN_RES (Ix.on die.toNat u), d.regRead .KLN_SIG (Ix.on die.toNat u)]

end Sys2Proof.Machine
end

