-- ==== Sys2Proof/Machine/Leash.lean ====
section
/-! DEFINITION. The Leash port (R534 to R549): frames, unlock and rights, accesses, run control of engines. Log entries: DEDUCED 89, 90. -/

namespace Sys2Proof.Machine

/-! ### Frames and acknowledges (R536 to R538) -/

/-- Whether the port answers: B0 runs, `port_en` is set, the device is not in EMBER, and no command of the port is still under way (R538, R544). -/
def Dev.lshOpen (d : Dev) : Bool :=
  !d.clk.held && d.mode != .ember && !d.dieOff 0 && d.flag F.LSH_CFG_port_en {} && d.lsh.wait.isNone

/-- A response: OK 1, PARITY 2, DENIED 3, LOCKED 4, BAD 5, FAULT 6, STATE 7 (R537). -/
def Dev.ack (d : Dev) (a : Nat) (bytes : List Byte := []) : Dev := d.emit (.leash a bytes)

/-- BAD, counted. -/
def Dev.ackBad (d : Dev) : Dev := (d.bump F.LSH_STAT_bad_pkts {}).ack 5

/-- STATE with the current mode. -/
def Dev.ackMode (d : Dev) : Dev := d.ack 7 (numBytes d.mode.code 1)

/-- FAULT with a response code. -/
def Dev.ackFault (d : Dev) (c : Resp) : Dev := d.ack 6 (numBytes c.code 1)

/-- A request with its frame checks; what it does once it is well formed is `f`. -/
def Dev.request (d : Dev) (fr : LeashFrame) (f : Dev → Dev) : Dev :=
  if !d.lshOpen then d
  else if !fr.parityOk then (d.bump F.LSH_STAT_parity_err {}).ack 2
  else if !fr.lenOk then d.ackBad
  else f d

/-- A request that needs an unlocked session, and rights in effect. -/
def Dev.withRights (d : Dev) (ok : Bool) (f : Dev → Dev) : Dev :=
  if d.rd F.LSH_STAT_rights {} = 0 then d.ack 4 else if !ok then d.ack 3 else f d

/-! ### Rights (R544, R545) -/

/-- The mode whose row of R544 applies. -/
def Dev.lshMode (d : Dev) : Mode := if d.mode == .repair then d.returnMode else d.mode

/-- Whether the session holds CONTROL. -/
def Dev.lshControl (d : Dev) : Bool := decide (d.rd F.LSH_STAT_rights {} = 2)

/-- Reads. -/
def Dev.lshReads (d : Dev) : Bool := d.lshMode != .cold

/-- Engine commands. -/
def Dev.lshEngines (d : Dev) : Bool := d.lshControl && (d.lshMode == .bench || (d.lshMode == .safe && d.lsh.allow))

/-- Writes. -/
def Dev.lshWrites (d : Dev) : Bool := d.lshEngines || (d.lshControl && d.lshMode == .rehearse)

/-- BENCH_ENTER and BENCH_LEAVE. -/
def Dev.lshBench (d : Dev) : Bool := d.lshControl && (d.lshMode == .rehearse || d.lshMode == .bench)

/-! ### Identity and unlock (R539 to R543) -/

/-- IDENT. -/
def execIdent (fr : LeashFrame) (s : State) : Result := s.act fun d =>
  d.request fr fun d => d.ack 1 (numBytes (d.regRead .HRT_ID {}) 8 ++ numBytes d.fuse.deviceSn 8)

/-- CHALLENGE (R540): a fresh nonce of 48 bytes. -/
def execLeashChallenge (fr : LeashFrame) (s : State) : Result := s.act fun d =>
  d.request fr fun d =>
    let (v, d) := d.draw 384
    { d with lsh := { d.lsh with nonce := some v } }.ack 1 (numBytes v 48)

/-- Whether CONTROL is refused without an attempt (R543). -/
def Dev.controlBarred (d : Dev) : Bool := d.fuse.leashCtlOff || d.mode == .load || d.onAirLike

/-- A failed unlock (R543): counted, recorded, and no unlock is accepted for 2^(k − 1) s, up to 64 s. It leaves no session unlocked that was not. -/
def Dev.unlockFailed (d : Dev) : Dev :=
  let k := d.lsh.fails + 1
  let d := { d with lsh := { d.lsh with fails := k, nonce := none, lockUntil := d.root + 2 ^ min (k - 1) 6 * 1000 * msCycles } }
  ((d.bump F.LSH_STAT_unlock_fail {}).occur { die := 0, block := 14, inst := 0, cls := 16, sev := sevNote }).ack 4

/-- An unlock attempt (R540 to R543): `ok` is its proof. -/
def Dev.unlock (d : Dev) (rights method slot : Nat) (ok : Bool) : Dev :=
  if rights ≠ 1 && rights ≠ 2 then d.ackBad
  else if rights = 2 && d.controlBarred then d.ack 3
  else if !ok || d.lsh.nonce.isNone || decide (d.root < d.lsh.lockUntil) then d.unlockFailed
  else
    let d := { d with lsh := { d.lsh with nonce := none, fails := 0, lockUntil := 0 } }
    let d := ((d.st F.LSH_STAT_rights {} rights).st F.LSH_STAT_method {} method).st F.LSH_STAT_owner_slot {} slot
    (d.on (rights = 2) (fun d => d.st F.LSH_STAT_ctl_held {} 1)).ack 1

/-- UNLOCK_SIG (R541): `verifyOk` says that the ECDSA signature over nonce, serial number and rights verifies under the key. -/
def execUnlockSig (fr : LeashFrame) (rights slot : Byte) (pub : Nat) (verifyOk : Bool) (s : State) : Result := s.act fun d =>
  d.request fr fun d =>
    let k := slot.toNat
    if 3 < k then d.ackBad
    else d.unlock rights.toNat 0 k (verifyOk && decide (d.fuse.ownerHash.getD k 0 = Config.sha384 [pub]) && decide (bits d.fuse.ownerRevoke k 1 = 0))

/-- UNLOCK_PASS (R542): `responseOk` says that the response equals the HMAC under the fused hash. -/
def execUnlockPass (fr : LeashFrame) (rights : Byte) (responseOk : Bool) (s : State) : Result := s.act fun d =>
  d.request fr fun d => d.unlock rights.toNat 1 0 (responseOk && !d.fuse.leashPassOff && decide (d.fuse.leashPassHash ≠ 0))

/-- CLOSE (R538). -/
def execClose (fr : LeashFrame) (s : State) : Result := s.act fun d =>
  d.request fr fun d => d.withRights true fun d => d.closeSession.ack 1

/-! ### Accesses (R539, R545, R546) -/

/-- Whether an address lies in a die's trace buffer. -/
def Dev.inTraceBuf (d : Dev) (a n : Nat) : Bool :=
  (List.range 4).any (fun b =>
    let lo := (2 * b + d.rd F.EVT_TR_BUF_stack (Ix.onDie b)) * stackBytes + d.rd F.EVT_TR_BUF_base (Ix.onDie b) * unitBytes
    decide (lo ≤ a) && decide (a + n ≤ lo + d.rd F.EVT_TR_BUF_size (Ix.onDie b) * unitBytes))

/-- Whether the session may read memory there: the trace buffer under key ID 126; with CONTROL, memory under key ID 0. -/
def Dev.lshMemory (d : Dev) (key a n : Nat) : Bool := (key = 126 && d.inTraceBuf a n) || (key = 0 && d.lshControl)

/-- A well-formed address of 8 bytes: its key ID and its device address. -/
def lshAddr (v : Word64) : Option (Nat × Nat) :=
  if bits v.toNat 63 1 = 1 || v.toNat % 8 ≠ 0 then none else some (bits v.toNat 56 7, v.toNat % 2 ^ 56)

/-- Read 8 bytes: control space by the peek path, or with the side effect; memory as a request of initiator 140. -/
def Dev.lshRead (d : Dev) (take : Bool) (addr : Word64) (answer : Option ApAnswer) : Dev :=
  match lshAddr addr with
  | none => d.ackBad
  | some (key, a) =>
    if key ≠ 0 && key ≠ 126 then d.ack 3
    else if isControl a then
      if d.dieOff (baseOfAddr a) then d.ackFault .domoff
      else if take then (let (v, d) := d.readAt a; d.ack 1 (numBytes v 8 ++ [0#8]))
      else d.ack 1 (numBytes (d.peekAt a).1 8 ++ numBytes (d.peekAt a).2.toNat 1)
    else if !d.lshMemory key a 8 then d.ack 3
    else match d.serveRead key a 8 answer with
      | some (.done, l, d) => d.ack 1 (l ++ [0#8])
      | some (c, _, d) => d.ackFault c
      | none => d.ackFault .timeout

/-- READ: `answer` is that of a target outside the model, none where it does not answer in time. -/
def execLeashRead (fr : LeashFrame) (addr : Word64) (answer : Option ApAnswer) (s : State) : Result := s.act fun d =>
  d.request fr fun d => d.withRights d.lshReads fun d => d.lshRead false addr answer

/-- CONSUME (R546): with CONTROL. -/
def execConsume (fr : LeashFrame) (addr : Word64) (answer : Option ApAnswer) (s : State) : Result := s.act fun d =>
  d.request fr fun d => d.withRights (d.lshReads && d.lshControl) fun d => d.lshRead true addr answer

/-- Whether a session never writes there: an `LSH_` register or `EVT_TR_CFG`. -/
def lshNever (a : Nat) : Bool :=
  decide (a < 0xF040000000) && decide (0xF000000000 ≤ a) &&
  (decide ((a - 0xF000000000) % 0x10000000 / 0x1000000 = 14) || decide ((a - 0xF000000000) % 0x10000000 = 0x8000000))

/-- WRITE: a register as a host writes it, or 8 bytes of memory under key ID 0. -/
def execLeashWrite (fr : LeashFrame) (addr value : Word64) (answer : Option ApAnswer) (s : State) : Result := s.act fun d =>
  d.request fr fun d => d.withRights d.lshWrites fun d =>
    match lshAddr addr with
    | none => d.ackBad
    | some (key, a) =>
      if key ≠ 0 then d.ack 3
      else if isControl a then
        if lshNever a then d.ack 3
        else if d.dieOff (baseOfAddr a) then d.ackFault .domoff
        else match d.writeAt .leash a value.toNat true with
          | (.done, d) => d.ack 1
          | (c, d) => d.ackFault c
      else match d.serveWrite .leash none key a 8 (wordBytes a [value]) false answer with
        | some (.done, d) => d.ack 1
        | some (c, d) => d.ackFault c
        | none => d.ackFault .timeout

/-- The words of a block of memory, until one of them fails. -/
def Dev.lshBlock (key : Nat) (answers : List ApAnswer) : Nat → Nat → Nat → Dev → Except Resp (List Byte) × Dev
  | 0, _, _, d => (.ok [], d)
  | n + 1, a, k, d =>
    match d.serveRead key a 8 answers[k]? with
    | some (.done, l, d) =>
      (match Dev.lshBlock key answers n (a + 8) (k + 1) d with
       | (.ok r, d) => (.ok (l ++ r), d)
       | (.error c, d) => (.error c, d))
    | some (c, _, d) => (.error c, d)
    | none => (.error .timeout, d)

/-- READ_BLK: 1 to 28 words of memory. -/
def execReadBlk (fr : LeashFrame) (addr : Word64) (count : Byte) (answers : List ApAnswer) (s : State) : Result := s.act fun d =>
  d.request fr fun d => d.withRights d.lshReads fun d =>
    let n := count.toNat
    match lshAddr addr with
    | none => d.ackBad
    | some (key, a) =>
      if n = 0 || 28 < n then d.ackBad
      else if isControl a || !d.lshMemory key a (8 * n) then d.ack 3
      else match Dev.lshBlock key answers n a 0 d with
        | (.ok l, d) => d.ack 1 l
        | (.error c, d) => d.ackFault c

/-! ### Run control (R547 to R549) -/

/-- BENCH_ENTER (R61). -/
def execBenchEnter (fr : LeashFrame) (s : State) : Result := s.act fun d =>
  d.request fr fun d => d.withRights d.lshBench fun d =>
    if d.mode == .rehearse then (d.setMode .bench .bench).ack 1 else d.ackMode

/-- BENCH_LEAVE (R61). -/
def execBenchLeave (fr : LeashFrame) (s : State) : Result := s.act fun d =>
  d.request fr fun d => d.withRights d.lshBench fun d =>
    if d.mode == .bench then d.leaveBench.ack 1 else d.ackMode

/-- STATE with the engine's state. -/
def Dev.ackEng (d : Dev) (e : Nat) : Dev := d.ack 7 (numBytes (d.engState e) 1)

/-- An engine command: rights, engine number, the engine's die. -/
def Dev.engCommand (d : Dev) (fr : LeashFrame) (eng : BitVec 16) (f : Dev → Nat → Dev) : Dev :=
  d.request fr fun d => d.withRights d.lshEngines fun d =>
    let e := eng.toNat
    if 1023 < e then d.ackBad else if d.dieOff (e / 256) then d.ackFault .domoff else f d e

/-- HALT (R547): answered once the engine is HALTED. -/
def execLeashHalt (fr : LeashFrame) (eng : BitVec 16) (s : State) : Result := s.act fun d =>
  d.engCommand fr eng fun d e =>
    match d.engState e with
    | 0 => let d := d.setEngState e 3; d.ack 1 (d.haltInfo e)
    | 3 => d.ack 1 (d.haltInfo e)
    | 1 | 2 => { d.setEng e { d.eng e with debug := true } with lsh := { d.lsh with wait := some (.halt e) } }
    | _ => d.ackEng e

/-- One step (R351): the instruction at pc, read from the pack's shared instruction memory, issues and drains; none where it stalls. An RPT issues with its
repeats. -/
def Dev.stepOnce (d : Dev) (e : Nat) : Option Dev :=
  let issue := fun (d : Dev) =>
    let x := d.eng e
    let p := d.packOf (e / 32)
    let w := (List.range 4).foldl (fun (v : Nat) (i : Nat) => v + (Tbl.get 0#8 p.imem (x.pc + i)).toNat * 2 ^ (8 * i)) 0
    let (rule, op) := (wordOp w).getD (.free, opIllegal)
    let d' := d.issueOp e rule op
    if (d'.eng e).n = x.n && d'.engState e = 3 && (d'.eng e).pc = x.pc && (d'.eng e).excHeld.isNone then none else some d'
  match issue d with
  | none => none
  | some d =>
    let again := if (d.eng e).rpt.isSome && d.engState e = 3 then issue d else some d
    again.map (fun d => d.setEng e (d.eng e).drain)

/-- The rest of a STEP: it is answered after its last instruction, or when the engine no longer runs the task; one that stalls waits. -/
def Dev.stepRun (e : Nat) : Nat → Dev → Dev
  | 0, d => { d with lsh := { d.lsh with wait := none } }.ack 1 (d.haltInfo e)
  | n + 1, d =>
    match d.stepOnce e with
    | none => { d with lsh := { d.lsh with wait := some (.step e (n + 1)) } }
    | some d =>
      if d.engState e ≠ 3 || (d.eng e).excHeld.isSome then { d with lsh := { d.lsh with wait := none } }.ack 1 (d.haltInfo e)
      else Dev.stepRun e n d

/-- STEP (R548). -/
def execStep (fr : LeashFrame) (eng : BitVec 16) (n : Byte) (s : State) : Result := s.act fun d =>
  d.engCommand fr eng fun d e =>
    if n.toNat = 0 then d.ackBad
    else if d.engState e ≠ 3 then d.ackEng e
    else Dev.stepRun e n.toNat (d.setEng e { d.eng e with excHeld := none })

/-- A STEP that waits goes on as time passes. -/
def Dev.stepWait (d : Dev) : Dev :=
  match d.lsh.wait with
  | some (.step e n) => if d.engState e = 3 && d.mode.engines then Dev.stepRun e n d else { d with lsh := { d.lsh with wait := none } }.ackEng e
  | _ => d

/-- RESUME (R548): the engine runs on, or its task ends with the exception it was held at, or with code 0. -/
def execLeashResume (fr : LeashFrame) (eng : BitVec 16) (how : Byte) (s : State) : Result := s.act fun d =>
  d.engCommand fr eng fun d e =>
    if 1 < how.toNat then d.ackBad
    else if d.engState e ≠ 3 then d.ackEng e
    else if how = 0#8 then (d.resumeEngine e).ack 1
    else
      let x := d.eng e
      ((d.taskEnd e stEXCEPTION (x.excHeld.getD 0) 0).engLeave e x).ack 1

/-- Whether a unit of the save area may be written, and with that value (R326, R359, R549). -/
def areaWritable (k v : Nat) : Bool :=
  if k = 0 || k = 107 || k = 108 || k = 109 then false
  else if k = 96 || k = 97 then decide (v ≤ 1024)
  else if 98 ≤ k && decide (k ≤ 101) || k = 104 || k = 105 then decide (v % 4 = 0) && decide (v < 2 ^ 18)
  else if k = 102 then decide (v ≤ 47)
  else if k = 103 || k = 106 then decide (v < 2 ^ 11) && decide (bits v 8 2 ≠ 3)
  else true

/-- ENG_READ (R549). -/
def execEngRead (fr : LeashFrame) (eng off : BitVec 16) (s : State) : Result := s.act fun d =>
  d.engCommand fr eng fun d e =>
    if off.toNat % 4 ≠ 0 || 0x1B4 < off.toNat then d.ackBad
    else if d.engState e ≠ 3 then d.ackEng e
    else d.ack 1 (numBytes ((d.eng e).areaWord (off.toNat / 4)) 4)

/-- ENG_WRITE (R549). -/
def execEngWrite (fr : LeashFrame) (eng off : BitVec 16) (value : BitVec 32) (s : State) : Result := s.act fun d =>
  d.engCommand fr eng fun d e =>
    if off.toNat % 4 ≠ 0 || 0x1B4 < off.toNat || !areaWritable (off.toNat / 4) value.toNat then d.ackBad
    else if d.engState e ≠ 3 then d.ackEng e
    else (d.setEng e ((d.eng e).putArea (off.toNat / 4) value.toNat)).ack 1

/-- EXC_HALT (R548). -/
def execExcHalt (fr : LeashFrame) (eng : BitVec 16) (on : Byte) (s : State) : Result := s.act fun d =>
  d.engCommand fr eng fun d e =>
    if 1 < on.toNat then d.ackBad
    else
      let a := Ix.at (e / 64)
      let v := d.rd F.LSH_EXC_exc a
      let d := d.st F.LSH_EXC_exc a (v - bits v (e % 64) 1 * 2 ^ (e % 64) + on.toNat * 2 ^ (e % 64))
      (d.setEng e { d.eng e with excHalt := decide (on.toNat = 1) }).ack 1

/-! ### Everything else on the port (R536 to R540) -/

/-- UNKNOWN_LEASH_COMMAND: a code that R539 does not list. -/
def execUnknownLeashCommand (fr : LeashFrame) (code : Byte) (s : State) : Result := s.act fun d =>
  if [0x00#8, 0x01#8, 0x02#8, 0x03#8, 0x04#8, 0x10#8, 0x11#8, 0x12#8, 0x13#8, 0x20#8, 0x21#8, 0x22#8, 0x23#8, 0x24#8, 0x25#8, 0x26#8, 0x27#8].contains code then d
  else d.request { fr with lenOk := true } fun d => d.ackBad

/-- LEASH_FRAME_RESET: the frame logic starts afresh, so that a command under way is no longer answered; the session is not affected. -/
def execLeashFrameReset (s : State) : Result := s.act fun d => { d with lsh := { d.lsh with wait := none } }

/-- LEASH_CK_STALL: the request is abandoned and counted. -/
def execLeashCkStall (s : State) : Result := s.act fun d => if d.lshOpen then d.bump F.LSH_STAT_bad_pkts {} else d

/-- LEASH_COMMAND_TIMEOUT (R537): a command not completed after 1 ms. -/
def execLeashCommandTimeout (s : State) : Result := s.act fun d =>
  if d.lsh.wait.isSome then { d with lsh := { d.lsh with wait := none } }.ackFault .timeout else d

/-- LEASH_IDLE_TIMEOUT (R538). -/
def execLeashIdleTimeout (s : State) : Result := s.act fun d =>
  if d.rd F.LSH_STAT_rights {} = 0 || d.mode == .ember then d else d.closeSession

/-- NONCE_EXPIRY (R540). -/
def execNonceExpiry (s : State) : Result := s.act fun d => { d with lsh := { d.lsh with nonce := none } }

end Sys2Proof.Machine
end

