-- ==== Sys2Proof/Machine/Ledger.lean ====
section
/-! DEFINITION. The credit ledger's checks (R31, R499, R500): audits, mismatches, drain and resync. Log entries: DEDUCED 81; DESIGN CHOICE 13. -/

namespace Sys2Proof.Machine

/-- LEDGER_AUDIT (R499): the snapshots of one house-time millisecond agree with the ledger's counts; a difference is LEDGER_MISMATCH. -/
def execLedgerAudit (b : Fin 4) (s : State) : Result := s.act fun d =>
  if d.clk.held || d.dieOff b then d else (d.st F.LDG_AUDIT_ns (Ix.onDie b) d.ns).st F.LDG_AUDIT_sec (Ix.onDie b) d.sec

/-- The record of a mismatch (R499, R500). -/
def Dev.ledgerRecord (d : Dev) (b kind inst diff sev : Nat) : Dev :=
  d.occur { die := b, block := 11, inst := inst, cls := 18, sev := sev, action := 12, sub := kind, detail := kind + inst * 2 ^ 3 + diff * 2 ^ 15 }

/-- LEDGER_MISMATCH (R499, R500): the instance drains, and the mismatch is kept and recorded; a second one on the instance within 1 s has severity DEGRADE. -/
def execLedgerMismatch (b : Fin 4) (kind : Fin 5) (inst : Fin 4096) (diff : BitVec 32) (s : State) : Result := s.act fun d =>
  let k := ledKey b kind inst
  let a := Ix.onDie b
  if d.clk.held || d.dieOff b || d.led.draining.contains k then d else
  let again := match Tbl.get none d.led.last k with
    | some t => decide (d.root - t < 1000 * msCycles)
    | none => false
  let d := { d with led := { d.led with draining := addNew d.led.draining k, last := d.led.last.set none k (some d.root) } }
  let d := ((d.st F.LDG_MISMATCH_kind a kind).st F.LDG_MISMATCH_instance a inst).st F.LDG_MISMATCH_diff a diff.toNat
  let d := (d.bump F.LDG_STATUS_mismatches a).st F.LDG_STATUS_resyncing a 1
  d.ledgerRecord b kind inst diff.toNat (if again then sevDegrade else sevNote)

/-- The cord whose credits a pool instance of kind 1 counts. -/
def ledgerCord (b inst : Nat) : Option CordId :=
  let n := inst / 4
  allCords.find? (fun c =>
    let a := cordHome c
    decide (a.die = b) && decide (a.i + (if c.isLight then 224 else 0) = n))

/-- The drained state of an instance (R500): a router input and a cord have nothing outstanding; for slice buffers, tokens and key references the recount of
what is held stands. -/
def Dev.resync (d : Dev) (b kind inst : Nat) : Dev :=
  match kind with
  | 0 => d.giveBack b 0 inst (d.ledOut b 0 inst)
  | 1 => match ledgerCord b inst with
    | some c =>
      let x := d.cord c
      let v := inst % 4
      d.setCord c { x with outst := x.outst.set v 0, buffer := x.buffer.set v 0, limit := x.limit.set v 16 }
    | none => d
  | _ => d

/-- The instance's drain is over, and issue resumes. -/
def Dev.drained (d : Dev) (b kind inst : Nat) : Dev :=
  let l := remove d.led.draining (ledKey b kind inst)
  ({ d with led := { d.led with draining := l } }).stB F.LDG_STATUS_resyncing (Ix.onDie b) (l.any (fun k => decide (k / 4096 / 8 = b)))

/-- Whether a router's input channel is empty. -/
def Dev.inputEmpty (d : Dev) (b inst : Nat) : Bool :=
  d.noc.bufs.all (fun x => decide (x.router ≠ b * 32 + inst / 64) || decide (x.inp ≠ inst / 4 % 16) || decide (x.pkt.vc.val ≠ inst % 4))

/-- LEDGER_DRAIN_COMPLETE (R500): the instance has drained within `drain_us`. -/
def execLedgerDrainComplete (b : Fin 4) (kind : Fin 5) (inst : Fin 4096) (s : State) : Result := s.act fun d =>
  if !d.led.draining.contains (ledKey b kind inst) || (kind.val = 0 && !d.inputEmpty b inst) then d
  else (d.resync b kind inst).drained b kind inst

/-- LEDGER_DRAIN_TIMEOUT (R500): the blocked unit gets a block reset, its credits are counted back, and the severity is STREAM; of the slice buffers, `slot` is
the slot whose units are blocked. -/
def execLedgerDrainTimeout (b : Fin 4) (kind : Fin 5) (inst : Fin 4096) (slot : Fin 1024) (s : State) : Result := s.act fun d =>
  if !d.led.draining.contains (ledKey b kind inst) then d else
  let d := match kind.val with
    | 0 => d.blockReset b 2 (inst / 64)
    | 1 => match ledgerCord b inst with
      | some c => if d.cordState c = 5 then d else d.retrain c false
      | none => d
    | 2 => d.blockReset b 1 slot
    | 3 => d.blockReset b 0 inst
    | _ => d.blockReset b 3 (inst / 128 * 52)
  (d.drained b kind inst).ledgerRecord b kind inst (d.rd F.LDG_MISMATCH_diff (Ix.onDie b)) sevStream

end Sys2Proof.Machine
end

