-- ==== Sys2Proof/Machine/Observe.lean ====
section
/-! DEFINITION. Event counters, snapshots, the trace unit and stimulus ports (R522 to R533, R550). Log entries: DEDUCED 86, 87, 88; DESIGN CHOICE 1. -/

namespace Sys2Proof.Machine

/-! ### Counters (R522, R526) -/

/-- EVT_CNT_WRITE (R522): a write sets the counter; the `same` increments of its cycle are added to the written value. -/
def execEvtCntWrite (w : Writer) (b : Fin 4) (n : Fin 256) (value : Word64) (same : Nat) (s : State) : Result := s.act fun d =>
  let a := Ix.on b n
  (d.postedWrite w F.EVT_CNT_count a value).on (d.obs.evtOn.contains (b * 256 + n)) (fun d => d.addCount a same)

/-- EVENT_SNAPSHOT (R526, R529): every counter with `snap` set on the base die and its three fabric dies becomes a packet of type 3, base die first. -/
def execEventSnapshot (b : Fin 4) (s : State) : Result := s.act fun d =>
  if d.clk.held || d.mode == .cold || d.dieOff b || d.rd F.EVT_SNAP_snap_mode (Ix.onDie b) = 0 || !d.flag F.EVT_TR_CFG_src_snap (Ix.onDie b) then d else
  let d := ((List.range 256).filter (fun n => d.flag F.EVT_SEL_snap (Ix.on b n))).foldl (fun (d : Dev) (n : Nat) =>
    let a := Ix.on b n
    d.trace b 4 3 b n [d.rd F.EVT_CNT_count a, d.rd F.EVT_SEL_ovf a]) d
  (List.range 3).foldl (fun (d : Dev) (k : Nat) =>
    let f := 3 * b.val + k
    ((List.range 32).filter (fun n => d.flag F.FAB_EVT_SEL_snap (Ix.on f n))).foldl (fun (d : Dev) (n : Nat) =>
      let a := Ix.on f n
      d.trace b 4 3 (4 + f) n [d.rd F.FAB_EVT_CNT_count a, d.rd F.FAB_EVT_SEL_ovf a]) d) d

/-! ### The trace unit (R527 to R531) -/

/-- TRACE_SYNC (R527, R529): while a sink is set, a sync packet with the device's serial number, the time in seconds and its own `tseq`. -/
def execTraceSync (b : Fin 4) (s : State) : Result := s.act fun d =>
  if d.clk.held || d.mode == .cold || d.dieOff b || d.rd F.EVT_TR_CFG_sink (Ix.onDie b) = 0 then d else
  let d := d.traceLoss b 6
  let t := d.rd F.EVT_TR_STAT_tseq (Ix.onDie b)
  d.trace b 6 6 b 0 [d.fuse.deviceSn, d.sec % 2 ^ 48 + t % 2 ^ 16 * 2 ^ 48, t / 2 ^ 16]

/-- The source order of a packet by its type (R527, R528). -/
def TracePkt.order (p : TracePkt) : Nat :=
  match p.ptype with
  | 4 => 1 | 5 => 2 | 1 => 3 | 3 => 4 | 2 => 5 | _ => 6

/-- The 64 bytes of a packet as 8-byte words. -/
def TracePkt.bytes (p : TracePkt) : List Byte := (List.range 8).flatMap (fun k => numBytes (p.words.getD k 0) 8)

/-- The head packet goes to the HBM buffer under key ID 126: it wraps, or stops when full and drops what comes. A stack that is not in service keeps the packet
waiting. -/
def Dev.traceHbm (d : Dev) (b : Nat) (p : TracePkt) : Dev :=
  let a := Ix.onDie b
  let size := d.rd F.EVT_TR_BUF_size a * unitBytes
  let at_ := d.rd F.EVT_TR_WPTR_wptr a
  if d.flag F.EVT_TR_STAT_buf_full a then (d.tracePop b).traceDrop b p.order
  else
    let addr := (2 * b + d.rd F.EVT_TR_BUF_stack a) * stackBytes + d.rd F.EVT_TR_BUF_base a * unitBytes + at_
    let (code, d') := d.memWrite 126 addr 64 ((List.range 64).map (fun i => (addr + i, p.bytes.getD i 0#8))) false
    if code ≠ .done then d else
    let d := (d'.tracePop b).emit (.traceOut b 1 p)
    if at_ + 64 < size then d.st F.EVT_TR_WPTR_wptr a (at_ + 64)
    else if d.flag F.EVT_TR_BUF_stop_full a then (d.st F.EVT_TR_WPTR_wptr a (at_ + 64)).st F.EVT_TR_STAT_buf_full a 1
    else (d.st F.EVT_TR_WPTR_wptr a 0).st F.EVT_TR_STAT_wrapped a 1

/-- The head packet enters the FIFO of die `to_` at order 5, with its `tseq` and `die`. -/
def Dev.traceForward (d : Dev) (b to_ : Nat) (p : TracePkt) : Dev :=
  let d := (d.tracePop b).emit (.traceOut b 4 p)
  if d.dieOff to_ then d
  else
    let d := d.traceLoss to_ 5
    if d.traceRoom to_ 5 then
      let q := Tbl.get [] d.obs.fifo to_ ++ [p]
      ({ d with obs := { d.obs with fifo := d.obs.fifo.set [] to_ q } }).st F.EVT_TR_STAT_fifo_level (Ix.onDie to_) q.length
    else d.traceDrop to_ 5

/-- TRACE_PACKET_OUT (R531, R550): the head packet goes to the sink; not in EMBER. A host reads the head of its FIFO in place. -/
def execTracePacketOut (b : Fin 4) (s : State) : Result := s.act fun d =>
  let a := Ix.onDie b
  if d.clk.held || d.mode == .cold || d.mode == .ember || d.dieOff b then d else
  match Tbl.get [] d.obs.fifo b with
  | [] => d
  | p :: _ =>
    match d.rd F.EVT_TR_CFG_sink a with
    | 1 => d.traceHbm b p
    | 2 =>
      let n := d.rd F.EVT_TR_CFG_link a
      if d.rd F.LN_NL_STAT_state (Ix.on b n) < 2 then d
      else ((d.tracePop b).emit (.traceOut b 2 p)).nlOffer b n (BitVec.ofNat 512 (leNat p.bytes))
    | 4 => d.traceForward b (d.rd F.EVT_TR_CFG_fwd_die a) p
    | _ => d

/-- EVT_TR_POP (R531): a write of the register. -/
def execEvtTrPop (w : Writer) (b : Fin 4) (value : Word64) (s : State) : Result := s.act fun d =>
  d.postedWrite w F.EVT_TR_POP_pop (Ix.onDie b) value

/-! ### Stimulus (R532, R533) -/

/-- FABRIC_STIMULUS_WRITE (R533): an enabled port's write enters its section's FIFO of 64, or is discarded and counted. -/
def execFabricStimulusWrite (f : Fin 12) (port : Fin 256) (data : Word64) (s : State) : Result := s.act fun d =>
  let sec := port.val / 32
  let a := Ix.on f sec
  let k := f.val * 8 + sec
  if !d.fab.step9 || d.mode == .ember || d.mode == .cold || d.clk.inReset.contains (4 + f.val) || !d.fab.ungated.contains (netKey f (d.rd F.FAB_STIM_st_clk a)) ||
     bits (d.rd F.FAB_STIM_en a) (port % 32) 1 = 0 then d
  else
    let q := Tbl.get [] d.obs.stim k
    if 64 ≤ q.length then d.bump F.FAB_STIM_stim_drop a
    else { d with obs := { d.obs with stim := d.obs.stim.set [] k (q ++ [(port.val, data.toNat, d.sec, d.ns)]) } }

/-- A stimulus packet, of the time of its write, is offered to the trace unit, if it takes stimulus. -/
def Dev.stimPacket (d : Dev) (b die src value eng sec ns : Nat) : Dev :=
  if !d.flag F.EVT_TR_CFG_src_stim (Ix.onDie b) then d else
  let d := d.traceLoss b 5
  if d.traceRoom b 5 then
    d.traceEnter b { ptype := 2, die := die, src := src, tseq := 0, sec := sec % 2 ^ 32, ns := ns, payload := [value, eng] }
  else d.traceDrop b 5

/-- In one MGT cycle base die b's trace unit takes one packet from the stimulus FIFOs: its packs in order, then the sections of its fabric dies (R527). -/
def Dev.stimDrain (d : Dev) (b : Nat) : Dev :=
  match (List.range 8).find? (fun q => !(d.packOf (8 * b + q)).stim.isEmpty) with
  | some q =>
    let p := d.packOf (8 * b + q)
    (match p.stim with
     | (k, e, v, sec, ns) :: r => (d.setPack (8 * b + q) { p with stim := r }).stimPacket b b (q * 32 + k) v e sec ns
     | [] => d)
  | none =>
    match (List.range 24).find? (fun i => !(Tbl.get [] d.obs.stim (24 * b + i)).isEmpty) with
    | some i =>
      (match Tbl.get [] d.obs.stim (24 * b + i) with
       | (port, v, sec, ns) :: r =>
         ({ d with obs := { d.obs with stim := d.obs.stim.set [] (24 * b + i) r } }).stimPacket b (4 + 3 * b + i / 8) port v 0xFFFF sec ns
       | [] => d)
    | none => d

/-! ### What the cycles count (R523, R550) -/

/-- ROOT cycles in a cycle of a block's clock domain (R36): packs, the network and encryption 2, the Kennel 4, cords 1, the others MGT, 8. -/
def blockDiv (blk : Nat) : Nat := match blk with | 0 => 4 | 1 => 2 | 2 => 2 | 3 => 2 | 6 => 2 | 9 => 1 | 10 => 1 | _ => 8

/-- One ROOT cycle at a counter: cycles of the selected block's domain, and occurrences that no other command shows, as free values: what a block's initiators
inject, receive and wait for, its VC3 flits, and instruction-buffer misses. -/
def Dev.cycleCount (d : Dev) (c : Nat) : Dev :=
  let a := Ix.on (c / 256) (c % 256)
  let src := d.rd F.EVT_SEL_source a
  let ev := src % 256
  if !d.gateOpen a then d
  else if ev = 192 then d.on (d.root % blockDiv (src / 256) = 0) (fun d => d.addCount a 1)
  else if (decide (193 ≤ ev) && decide (ev ≤ 196)) || ev = 210 then
    let (v, d) := d.draw 8
    d.addCount a v
  else d

/-- What one ROOT cycle does to observation: counters, and in an MGT cycle the stimulus FIFOs. -/
def Dev.observeCycle (d : Dev) : Dev :=
  if d.clk.held || d.mode == .cold then d else
  let d := d.obs.evtOn.foldl (fun (d : Dev) (c : Nat) => d.cycleCount c) d
  if d.root % 8 = 0 then (List.range 4).foldl (fun (d : Dev) (b : Nat) => if d.dieOff b then d else d.stimDrain b) d else d

end Sys2Proof.Machine
end

