-- ==== Sys2Proof/Machine/Power.lean ====
section
/-! DEFINITION. Power, Ember and temperature (R505 to R520, R568). Log entries: DEDUCED 25, 26, 56, 82, 83, 84, 85, 98. -/

namespace Sys2Proof.Machine

/-- A record of class POWER about base die b. -/
def Dev.powerRecord (d : Dev) (b inst sev : Nat) : Dev := d.occur { die := b, block := 13, inst := inst, cls := 20, sev := sev }

/-! ### Rails and domains (R507 to R511) -/

/-- RAIL_EXCURSION (R507, R511): base die b's monitor reads a rail at a value that has stood for 2 µs. Outside its window the excursion is counted, and the
first in 1 s recorded; one in COLD stops start-up. -/
def execRailExcursion (b : Fin 4) (r : Fin 8) (mv : Fin 2048) (s : State) : Result := s.act fun d =>
  if d.clk.held then d else
  let a := Ix.on b r
  let d := d.railRead b r mv
  if d.flag F.PWR_RAIL_valid a then d else
  let d := d.bump F.PWR_RAIL_excursions a
  let d := d.on (d.mode == .cold) (fun d => { d with clk := { d.clk with stopped := true } })
  let k := b.val * 8 + r.val
  let quiet := match Tbl.get none d.pwr.railAt k with
    | some t => decide (d.root < t + 1000 * msCycles)
    | none => false
  if quiet then d
  else ({ d with pwr := { d.pwr with railAt := d.pwr.railAt.set none k (some d.root) } }).powerRecord b r sevNote

/-- DOMAIN_WAKE (R509): the wake time of an ungated domain of base die b is over: its closing mark clears and it accepts packets. Bit n is that of
`PWR_GATE`; a pack's engines are idle, a lane group's lanes come up, a stack leaves self-refresh. -/
def execDomainWake (b : Fin 4) (n : Fin 54) (s : State) : Result := s.act fun d =>
  if bits (d.plainValue' .PWR_GATE (Ix.onDie b)) n 1 = 1 || d.dieOff b then d else
  match gateDom b n with
  | none => d
  | some x =>
    if !d.domShut x then d else
    let d := if n.val < 8 then
        (List.range 32).foldl (fun (d : Dev) (i : Nat) =>
          let e := (8 * b.val + n.val) * 32 + i
          if d.engState e = 6 then d.setEngState e 0 else d) d
      else if n.val < 16 then (List.range 4).foldl (fun (d : Dev) (i : Nat) => d.laneSet b (4 * (n - 8) + i)) d
      else
        let a := ctlIx (2 * b + (n - 52))
        d.on (decide (d.rd F.HBM_STATUS_state a = 3)) (fun d => d.st F.HBM_STATUS_state a 2)
    (d.openDom x).retryHeld

/-! ### Into EMBER (R511, R516) -/

/-- What stops at a sag: a stream ends with ABORTED, but for the start-up load, which starts again on resume (R65, R112); Kiln's slices are cut short (R494); a
controller whose VCC_HBM is valid puts its stack in self-refresh (R442); received media units in assembly are discarded. -/
def Dev.emberStop (d : Dev) : Dev :=
  let d := (List.range 4).foldl (fun (d : Dev) (b : Nat) => d.sliceCut b false) d
  let d := if d.cfg.path = .startup then d else d.abortStream
  let d := (List.range 8).foldl (fun (d : Dev) (k : Nat) =>
    d.on (decide (d.rd F.HBM_STATUS_state (ctlIx k) = 2) && d.flag F.PWR_RAIL_valid (Ix.on (k / 2) 4)) (fun d => d.st F.HBM_STATUS_state (ctlIx k) 3)) d
  { d with mp := { d.mp with rx := [] } }

/-- SAG_DETECTED (R511, R513, R516, R519): `pin` says that SAG_N has gone low, otherwise VCC_BASE has fallen below 0.855 V. In COLD start-up stops; in EMBER
the window goes on as it is. -/
def execSagDetected (pin : Bool) (s : State) : Result := s.act fun d =>
  if d.clk.held then d else
  let d := (List.range 4).foldl (fun (d : Dev) (b : Nat) => d.bump F.PWR_STATUS_sags (Ix.onDie b)) d
  let d := d.on pin (fun d => d.pwrAll F.PWR_STATUS_sag_pin 1)
  if d.mode == .cold then { d with clk := { d.clk with stopped := true } }
  else if d.mode == .ember then d
  else
    let m := d.mode
    let r := d.rd F.HRT_MODE_return_mode {}
    let d := { d with pwr := { d.pwr with seq := (d.pwr.seq + 1) % 2 ^ 32, cause := if pin then 2 else 1, sagAt := d.root, sagHt := d.ht, newer := true, repairReturn := r } }
    let d := ((d.setMode .ember m).emit (.pin "EMBER_N" false)).fence
    let d := (d.pwrAll F.PWR_STATUS_ember 1).pwrAll F.PWR_STATUS_retention_lost 0
    let d := ((d.pwrAll F.PWR_EMBER_seq d.pwr.seq).pwrAll F.PWR_EMBER_complete 0).pwrAll F.PWR_EMBER_resumed 0
    d.emberStop.charge

/-! ### The records (R517, R518) -/

/-- The newest record, from what stands when it is complete; EMBER has stopped everything it saves but house time, which it takes at detection. -/
def Dev.emberRecord (d : Dev) : EmberRec :=
  { seq := d.pwr.seq, consumed := false, ht := d.pwr.sagHt, regs := d.regs.filter (fun e => savedKey e.1), rgn := d.mem.rgn, page := d.mem.page, pn := d.mp.pn,
    txns := (List.range 16).filter (fun t => decide (d.tState t ≠ 0)),
    retained := (List.range 8).filter (fun k => decide (d.rd F.HBM_STATUS_state (ctlIx k) = 3) && d.flag F.PWR_RAIL_valid (Ix.on (k / 2) 4)) }

/-- EMBER_RECORD_COMPLETE. -/
def execEmberRecordComplete (s : State) : Result := s.act fun d =>
  if d.mode != .ember || d.flag F.PWR_EMBER_complete {} then d else
  let d := { d with pwr := { d.pwr with record := some d.emberRecord, newer := false } }
  ((d.pwrAll F.PWR_EMBER_complete 1).pwrAll F.PWR_EMBER_us ((d.root - d.pwr.sagAt) / 3200)).pwrAll F.PWR_STATUS_ember 2

/-! ### Out of EMBER (R519, R520) -/

/-- Blocks go on where they stopped: stacks leave self-refresh; packets in routers get a new `birth` (R226); units whose due cycle has passed are discarded
(R256); overdue delay-list entries release once, further releases of a periodic one counting as missed (R410). -/
def Dev.emberGoOn (d : Dev) : Dev :=
  let d := (List.range 8).foldl (fun (d : Dev) (k : Nat) =>
    d.on (decide (d.rd F.HBM_STATUS_state (ctlIx k) = 3) && decide (bits (d.rd F.PWR_GATE_hbm_sr (Ix.onDie (k / 2))) (k % 2) 1 = 0) && !d.dieOff (k / 2))
      (fun d => d.st F.HBM_STATUS_state (ctlIx k) 2)) d
  let d := { d with noc := { d.noc with bufs := d.noc.bufs.map (fun (x : NocBuf) => { x with pkt := { x.pkt with birth := d.birthNow } }) } }
  let late := d.ssw.slots.flatMap (fun e => (e.2.held.filter (fun y => y.first && decide (d.dueAt e.1 y < d.root))).map (fun y => (e.1, y.seq)))
  let d := late.foldl (fun (d : Dev) (x : Nat × BitVec 32) => d.dropUnit x.1 x.2 true) d
  (List.range 4).foldl (fun (d : Dev) (b : Nat) =>
    (Tbl.get [] d.ken.delay b).foldl (fun (d : Dev) (e : DelayEnt) =>
      let c := d.rd F.KEN_TICK_CNT_count (d.tickIx e.q)
      if decide (0 < e.age c) && decide (e.age c < 2 ^ 31) then
        let n := if e.periodic then (e.age c) / e.desc.period else 0
        let d := if e.tmpl then d else d.bump F.KEN_QCNT_missed (qIx e.q) n
        d.releaseEntry { e with next := e.next + n, due := (e.due + n * e.desc.period) % 2 ^ 32 }
      else d) d) d

/-- The mode after EMBER (R61, R65): SAFE where a trigger was held; REPAIR goes on; otherwise the mode left, or REPAIR where a fault recorded meanwhile needs it. -/
def Dev.emberMode (d : Dev) : Dev :=
  let m := d.returnMode
  if d.flag F.HRT_MODE_safe_pending {} then
    let cause := d.rd F.HRT_MODE_safe_cause {}
    ((d.setMode .safe .safe).st F.HRT_MODE_safe_pending {} 0).occur { die := d.hearthDie, block := 15, inst := 0, cls := 4, sev := sevDevice, action := 14, detail := cause }
  else
    let d := match m with
      | .load | .safe | .cold => d.setMode m m
      | .repair => (d.setMode .repair (Mode.ofCode d.pwr.repairReturn)).unfence
      | _ => (d.setMode m m).unfence
    (d.repairMode).on (d.cfg.path == .startup) (fun d => d.restartStream)

/-- EMBER_RESUME (R519): the records are complete, every rail is valid, SAG_N is high and no retention level was crossed. -/
def execEmberResume (s : State) : Result := s.act fun d =>
  if d.mode != .ember || !d.flag F.PWR_EMBER_complete {} || d.flag F.PWR_STATUS_retention_lost {} then d else
  let d := (d.railsValid.pwrAll F.PWR_STATUS_sag_pin 0).pwrAll F.PWR_STATUS_ember 0
  let d := { d with pwr := { d.pwr with record := d.pwr.record.map (fun (r : EmberRec) => { r with consumed := true }) } }
  ((d.pwrAll F.PWR_EMBER_resumed 1).emit (.pin "EMBER_N" true)).emberGoOn.emberMode.charge

/-- The save island is off (R520): device reset, until POR_N. EMBER_N is no longer driven. -/
def Dev.emberCold (d : Dev) : Dev := (d.deviceReset (some F.HRT_RST_CAUSE_ember_cold)).emit (.pin "EMBER_N" true)

/-- EMBER_WINDOW_END (R520). -/
def execEmberWindowEnd (s : State) : Result := s.act fun d => if d.mode == .ember then d.emberCold else d

/-- RETENTION_LEVEL_CROSSED (R512, R519): in EMBER, base die b's monitor sees a 0.90 V rail below 0.60 V, or VCC_HBM below 0.80 V, whose stacks are then not
retained. -/
def execRetentionLevelCrossed (b : Fin 4) (r : Fin 8) (s : State) : Result := s.act fun d =>
  if d.mode != .ember || r.val = 0 || decide (4 < r.val) then d else
  let d := (d.pwrAll F.PWR_STATUS_retention_lost 1).st F.PWR_RAIL_valid (Ix.on b r) 0
  d.on (decide (r.val = 4) && d.flag F.PWR_EMBER_complete {}) (fun d =>
    { d with pwr := { d.pwr with record := d.pwr.record.map (fun (x : EmberRec) => { x with retained := x.retained.filter (fun k => decide (k / 2 ≠ b.val)) }) } })

/-! ### The hold-up supply (R513, R515) -/

/-- VHOLD_THRESHOLD: VHOLD reads `mv`. -/
def execVholdThreshold (mv : Fin 16384) (s : State) : Result := s.act fun d =>
  if d.clk.held then d else (d.pwrAll F.PWR_STATUS_vhold_mv mv).charge

/-- VHOLD_DEPLETED: in EMBER VHOLD has fallen to 4.0 V, and the save island with everything it holds is lost. -/
def execVholdDepleted (s : State) : Result := s.act fun d => if d.mode == .ember then d.emberCold else d

/-- CAPACITANCE_MEASUREMENT: at start-up and every 24 hours with `cap_test` set, or on `test_go`. -/
def execCapacitanceMeasurement (uf : Fin 16384) (s : State) : Result := s.act fun d =>
  if d.clk.held || d.mode == .ember || !(d.flag F.PWR_HOLD_cap_test {} || d.pwr.capAsked) then d else
  let ok := decide (1720 ≤ uf.val)
  let d := ({ d with pwr := { d.pwr with capOk := ok, capAsked := false } }).st F.PWR_HOLD_cap_uf {} uf
  if ok then d else d.powerRecord 0 0 sevDegrade

/-! ### Temperature (R568, R571) -/

/-- A temperature in units of 0.125 °C. -/
def tempOf (v : Nat) : Int := signed 11 v

/-- Valid readings: base die × 6 + sensor, and temperature. -/
def Dev.temps (d : Dev) : List (Nat × Int) :=
  (List.range 24).filterMap (fun k =>
    let a := Ix.on (k / 6) (k % 6)
    if d.flag F.PWR_TEMP_valid a then some (k, tempOf (d.rd F.PWR_TEMP_temp a)) else none)

/-- The hottest valid reading. -/
def Dev.hottest (d : Dev) : Option (Nat × Int) :=
  d.temps.foldl (fun best e =>
    match best with
    | none => some e
    | some b => if b.2 < e.2 then some e else best) none

/-- A sensor's reading in `PWR_TEMP`; a sensor is warm while it reads 95 °C or more. -/
def Dev.tempRead (d : Dev) (b k : Nat) (valid : Bool) (v : BitVec 11) : Dev :=
  let a := Ix.on b k
  let i := b * 6 + k
  let t := tempOf v.toNat
  let d := { d with pwr := { d.pwr with warm := if valid && decide (760 ≤ t) then addNew d.pwr.warm i else remove d.pwr.warm i } }
  let d := d.stB F.PWR_TEMP_valid a valid
  if valid then
    (d.st F.PWR_TEMP_temp a v.toNat).on (decide (tempOf (d.rd F.PWR_TEMP_peak a) < t)) (fun d => d.st F.PWR_TEMP_peak a v.toNat)
  else d

/-- A record of class THERMAL about the sensor i (base die × 6 + sensor). -/
def Dev.thermalRecord (d : Dev) (i sev action : Nat) : Dev :=
  d.occur { die := i / 6, block := 13, inst := i % 6, cls := 21, sev := sev, action := action, detail := d.rd F.PWR_TEMP_temp (Ix.on (i / 6) (i % 6)) }

/-- The level of R568 that a temperature calls for: 3 above 105 °C for 1 ms, 2 above 100 °C, 1 at 95 °C or more, or below the grade's lower limit. -/
def Dev.thermalLevel (d : Dev) (t : Int) (long : Bool) : Nat :=
  if decide (840 < t) && long then 3
  else if 800 < t then 2
  else if decide (760 ≤ t) || decide (t < if d.fuse.temp = 1 then -320 else 0) then 1
  else 0

/-- THERMAL_READING (R568): a sensor reads a temperature; `long` says that the hottest reading has been above 105 °C for 1 ms. Each level is recorded once in an
excursion; the highest also moves the device to SAFE, and its record is the record of that entry. -/
def execThermalReading (b : Fin 4) (sensor : Fin 6) (valid : Bool) (temp : BitVec 11) (long : Bool) (s : State) : Result := s.act fun d =>
  let d := d.tempRead b sensor valid temp
  if d.clk.held then d else
  match d.hottest with
  | none => d
  | some (i, t) =>
    let l := d.thermalLevel t long
    let d' := { d with pwr := { d.pwr with level := if l = 0 then 0 else max l d.pwr.level } }
    let d' := ((List.range (min l 2)).filter (fun k => decide (d.pwr.level ≤ k))).foldl (fun (d : Dev) (k : Nat) => d.thermalRecord i k 0) d'
    if l = 3 && decide (d.pwr.level < 3) then (d'.thermalRecord i sevDevice 14).safeTrigger 5 true else d'

/-- Whether the cause is one of R568. -/
def tripOk : TripCause → Bool
  | .hot _ _ t => decide (920 < tempOf t.toNat)
  | .invalid _ => true

/-- THERMTRIP (R568): the trip is recorded, THERMTRIP_N goes low, and the device resets, held until POR_N is asserted and released with every reading below
95 °C. A sag being saved is lost. -/
def execThermtrip (cause : TripCause) (s : State) : Result := s.act fun d =>
  if !tripOk cause then d else
  let d := match cause with
    | .hot b k t => (d.tempRead b k true t).thermalRecord (b * 6 + k) sevDevice 8
    | .invalid b => d.thermalRecord (b * 6) sevDevice 8
  let d := (d.emit (.pin "THERMTRIP_N" false)).deviceReset none
  { d with pwr := { d.pwr with trip := true } }

end Sys2Proof.Machine
end

