-- ==== Sys2Proof/Machine/Spdm.lean ====
section
/-! DEFINITION. The SPDM responder, key delivery, measurements, and the board-management sideband (R465 to R468). Codes of messages, errors and
capability bits are those of DMTF DSP0274 (PRESUMED, log entry 40). Log entries: DEDUCED 41; PRESUMED 40. -/

namespace Sys2Proof.Machine

/-! ### Measurements (R467) -/

/-- Measurement `i`, 1 to 6. -/
def Dev.measurement (d : Dev) (i : Nat) : Nat :=
  let x := d.fuse
  match i with
  | 1 => Config.romDigest
  | 2 => Config.sha384 [(d.bank d.hst.runBank).content, d.rd F.HRT_HEARTH_fw_active {}, x.fwSvn]
  | 3 => d.pl.m3
  | 4 => Config.sha384 [x.svnFuse, x.sigRequired.toNat, x.bbkAllowed.toNat, x.aesRevoke, x.ownerRevoke]
  | 5 => d.pl.m5
  | _ => Config.sha384 [d.mode.code, d.rd F.LSH_STAT_ctl_held {}]

/-! ### Requests without a session -/

/-- Capability flags: CERT, CHAL, MEAS with signature, ENCRYPT, MAC, KEY_EX, HBEAT, KEY_UPD. -/
def spdmCaps : Nat := 2 + 4 + 0x10 + 0x40 + 0x80 + 0x200 + 0x2000 + 0x4000

/-- A signature under the device key: ECDSA draws a random number, so its value is open. -/
def Dev.signature (d : Dev) : Nat × Dev := d.draw 768

/-- An SPDM error of DSP0274. -/
def spdmError (e : Nat) : Nat × List Nat := (0x7F, [e])

/-- What the responder answers: response code and content. -/
def Dev.spdmAnswer (d : Dev) (r : SpdmReq) : (Nat × List Nat) × Dev :=
  let chain := Config.identityChain d.fuse.deviceSn
  let digest := Config.sha384 (chain.map (·.toNat))
  match r with
  | .getVersion => ((4, [0x12]), d)
  | .getCapabilities => ((0x61, [spdmCaps]), d)
  | .negotiateAlgorithms => ((0x63, [0x80, 2, 0x10, 2]), d)
  | .getDigests => ((1, [1, digest]), d)
  | .getCertificate slot off len =>
    if slot.val ≠ 0 then (spdmError 1, d)
    else
      let part := (chain.drop off).take len
      ((2, [part.length, chain.length - off - part.length] ++ part.map (·.toNat)), d)
  | .challenge slot nonce =>
    if slot.val ≠ 0 then (spdmError 1, d)
    else
      let (n, d) := d.draw 256
      let (g, d) := d.signature
      ((3, [digest, nonce.toNat, n, g]), d)
  | .getMeasurements index sign nonce =>
    let i := index.toNat
    let l := if i = 0 then [6] else if i = 255 then (List.range 6).map (fun k => d.measurement (k + 1)) else [d.measurement i]
    if 6 < i && i ≠ 255 then (spdmError 1, d)
    else if sign then
      let (n, d) := d.draw 256
      let (g, d) := d.signature
      ((0x60, l ++ [nonce.toNat, n, g]), d)
    else ((0x60, l), d)

/-! ### The mailbox of a physical function -/

/-- A request in a function's mailbox: physical functions have one, from start-up step 2; in EMBER it completes with Completer Abort (R77). A malformed
message gets InvalidRequest and counts in `ring_err`. -/
def Dev.mailbox (d : Dev) (fn : Nat) (wellFormed : Bool) (f : Dev → (Nat × List Nat) × Dev) : Dev :=
  if d.clk.held || decide (d.rd F.HRT_BOOT_step {} < 2) || d.rd F.HRT_FN_STAT_type (Ix.at fn) ≠ 1 then d
  else if d.mode == .ember then d.emit (.pcie fn 4 false [])
  else if !wellFormed then (d.bump F.HRT_FN_STAT_ring_err (Ix.at fn)).emit (.spdm fn 0x7F [1])
  else
    let (r, d) := f d
    d.emit (.spdm fn r.1 r.2)

/-- SPDM_GET_VERSION. -/
def execSpdmGetVersion (fn : Fin 64) (wellFormed : Bool) (s : State) : Result := s.act fun d =>
  d.mailbox fn wellFormed fun d => d.spdmAnswer .getVersion

/-- SPDM_GET_CAPABILITIES. -/
def execSpdmGetCapabilities (fn : Fin 64) (wellFormed : Bool) (s : State) : Result := s.act fun d =>
  d.mailbox fn wellFormed fun d => d.spdmAnswer .getCapabilities

/-- SPDM_NEGOTIATE_ALGORITHMS. -/
def execSpdmNegotiateAlgorithms (fn : Fin 64) (wellFormed : Bool) (s : State) : Result := s.act fun d =>
  d.mailbox fn wellFormed fun d => d.spdmAnswer .negotiateAlgorithms

/-- SPDM_GET_DIGESTS. -/
def execSpdmGetDigests (fn : Fin 64) (wellFormed : Bool) (s : State) : Result := s.act fun d =>
  d.mailbox fn wellFormed fun d => d.spdmAnswer .getDigests

/-- SPDM_GET_CERTIFICATE. -/
def execSpdmGetCertificate (fn : Fin 64) (wellFormed : Bool) (slot : Fin 16) (off len : Fin 65536) (s : State) : Result := s.act fun d =>
  d.mailbox fn wellFormed fun d => d.spdmAnswer (.getCertificate slot off len)

/-- SPDM_CHALLENGE. -/
def execSpdmChallenge (fn : Fin 64) (wellFormed : Bool) (slot : Fin 16) (nonce : BitVec 256) (s : State) : Result := s.act fun d =>
  d.mailbox fn wellFormed fun d => d.spdmAnswer (.challenge slot nonce)

/-- SPDM_GET_MEASUREMENTS. -/
def execSpdmGetMeasurements (fn : Fin 64) (wellFormed : Bool) (index : Byte) (sign : Bool) (nonce : BitVec 256) (s : State) : Result := s.act fun d =>
  d.mailbox fn wellFormed fun d => d.spdmAnswer (.getMeasurements index sign nonce)

/-! ### Sessions and key delivery (R466) -/

/-- Session n. -/
def Dev.session (d : Dev) (n : Nat) : Option SpdmSession := Tbl.get none d.hst.sessions n

/-- Set it. -/
def Dev.setSession (d : Dev) (n : Nat) (x : Option SpdmSession) : Dev := { d with hst := { d.hst with sessions := d.hst.sessions.set none n x } }

/-- A session ends: the key buffers that it filled are zeroised. -/
def Dev.endSession (d : Dev) (n : Nat) : Dev :=
  let kept := d.hst.keyBuf.filter (fun e => match e.2 with | some k => decide (k.session ≠ n) | none => false)
  ({ d with hst := { d.hst with keyBuf := kept } }).setSession n none

/-- A request inside a finished session of the function; InvalidSession for any other. -/
def Dev.inSession (d : Dev) (fn n : Nat) (f : Dev → (Nat × List Nat) × Dev) : (Nat × List Nat) × Dev :=
  match d.session n with
  | some x => if x.fn = fn && x.finished then f d else (spdmError 2, d)
  | none => (spdmError 2, d)

/-- SPDM_KEY_EXCHANGE: the lowest free session of 4; HeartbeatPeriod is 10 s. The responder's public value, its random and its signature are open. -/
def execSpdmKeyExchange (fn : Fin 64) (wellFormed : Bool) (nonce : BitVec 256) (s : State) : Result := s.act fun d =>
  d.mailbox fn wellFormed fun d =>
    match (List.range 4).find? (fun n => (d.session n).isNone) with
    | none => (spdmError 0x0A, d)
    | some n =>
      let d := d.setSession n (some { fn := fn, finished := false })
      let (x, d) := d.draw 768
      let (r, d) := d.draw 256
      let (g, d) := d.signature
      ((0x64, [n, 10, nonce.toNat, r, x, g]), d)

/-- SPDM_FINISH: `verifyOk` says whether the requester's verify data is right; if not, the session ends with DecryptError. -/
def execSpdmFinish (fn : Fin 64) (wellFormed : Bool) (session : Fin 4) (verifyOk : Bool) (s : State) : Result := s.act fun d =>
  d.mailbox fn wellFormed fun d =>
    match d.session session with
    | some x =>
      if x.fn ≠ fn.val || x.finished then (spdmError 2, d)
      else if verifyOk then ((0x65, [session]), d.setSession session (some { x with finished := true }))
      else (spdmError 6, d.endSession session)
    | none => (spdmError 2, d)

/-- SPDM_HEARTBEAT. -/
def execSpdmHeartbeat (fn : Fin 64) (wellFormed : Bool) (session : Fin 4) (s : State) : Result := s.act fun d =>
  d.mailbox fn wellFormed fun d => d.inSession fn session fun d => ((0x68, [session]), d)

/-- SPDM_KEY_UPDATE: the session's keys are no state that a command reads. -/
def execSpdmKeyUpdate (fn : Fin 64) (wellFormed : Bool) (session : Fin 4) (s : State) : Result := s.act fun d =>
  d.mailbox fn wellFormed fun d => d.inSession fn session fun d => ((0x69, [session]), d)

/-- SPDM_END_SESSION. -/
def execSpdmEndSession (fn : Fin 64) (wellFormed : Bool) (session : Fin 4) (s : State) : Result := s.act fun d =>
  d.mailbox fn wellFormed fun d => d.inSession fn session fun d => ((0x6C, [session]), d.endSession session)

/-- KEY_DELIVER: the target is the session's own function or one of its virtual functions, which are function 0's (R452). -/
def execKeyDeliver (fn : Fin 64) (wellFormed : Bool) (session : Fin 4) (target : BitVec 8) (buffer : BitVec 8) (key : BitVec 256) (s : State) : Result :=
  s.act fun d => d.mailbox fn wellFormed fun d => d.inSession fn session fun d =>
    let t := target.toNat
    if 7 < buffer.toNat || 63 < t || !(t = fn.val || (fn.val = 0 && d.isVf t)) then (spdmError 1, d)
    else
      let x : KeyBuf := { key := key.toNat, session := session }
      ((0x7E, []), { d with hst := { d.hst with keyBuf := d.hst.keyBuf.set none (t * 8 + buffer.toNat) (some x) } })

/-- KEY_BUFFER_EXPIRY: 10 s after it was filled. -/
def execKeyBufferExpiry (fn : Fin 64) (buffer : Fin 8) (s : State) : Result := s.act fun d =>
  { d with hst := { d.hst with keyBuf := d.hst.keyBuf.set none (fn.val * 8 + buffer.val) none } }

/-- SPDM_HEARTBEAT_TIMEOUT: no heartbeat within the period. -/
def execSpdmHeartbeatTimeout (session : Fin 4) (s : State) : Result := s.act fun d =>
  if (d.session session).isSome then d.endSession session else d

/-! ### Board-management sideband (R468) -/

/-- Whether the sideband is served: from start-up step 2, except in EMBER. -/
def Dev.bmcServed (d : Dev) : Bool := !d.clk.held && decide (2 ≤ d.rd F.HRT_BOOT_step {}) && d.mode != .ember

/-- What PLDM monitoring reports: the temperature of each sensor, the current of each rail, which no register holds, the mode, and the records at each
severity. -/
def Dev.pldm (d : Dev) : List Nat × Dev :=
  let temps := (List.range 24).map (fun k => d.rd F.PWR_TEMP_temp (Ix.on (k / 6) (k % 6)))
  let amps := (List.range 32).foldl (fun (x : List Nat × Dev) _ => let (v, d) := x.2.draw 32; (x.1 ++ [v], d)) ([], d)
  let counts := (List.range 4).map (fun sev => (d.flt.recs.filter (fun e => decide (e.1 < 256) && decide (e.2.sev = sev))).length)
  (temps ++ amps.1 ++ [d.mode.code] ++ counts, amps.2)

/-- BMC_MESSAGE: served, or dropped and counted. -/
def execBmcMessage (m : BmcMsg) (s : State) : Result := s.act fun d =>
  if !d.bmcServed then d else
  match m with
  | .malformed => { d with hst := { d.hst with bmcDropped := d.hst.bmcDropped + 1 } }
  | .pldm => let (l, d) := d.pldm; d.emit (.bmc l)
  | .spdm r => let (x, d) := d.spdmAnswer r; d.emit (.bmc (x.1 :: x.2))

/-- BMC_REQUEST_SAFE: honoured only with the `bmc_safe` fuse; then it acts as a host SAFE command. -/
def execBmcRequestSafe (s : State) : Result := s.act fun d =>
  if d.bmcServed && d.fuse.bmcSafe && modeAllowed d.mode .safe then d.safeTrigger 1 true else d

/-- BMC_CLOCK_HELD_TIMEOUT: the transaction is abandoned, and nothing of it has taken effect. -/
def execBmcClockHeldTimeout (s : State) : Result := s.act fun d => d

end Sys2Proof.Machine
end

