-- ==== Sys2Proof/Machine/Tap.lean ====
section
/-! DEFINITION. Boundary scan (R535, R566): the instructions of the TAP. Log entries: DEDUCED 91. -/

namespace Sys2Proof.Machine

/-- Whether an instruction that takes control of output pins acts: in COLD and SAFE. -/
def Dev.tapActs (d : Dev) : Bool := d.mode == .cold || d.mode == .safe

/-- An instruction is in the instruction register, and TDO shows the register it selects. -/
def Dev.tapShift (d : Dev) (code data : Nat) : Dev := { d with lsh := { d.lsh with tap := { d.lsh.tap with ir := code } } }.emit (.tdo code data)

/-- The bypass register is selected; it captures 0. -/
def Dev.tapBypass (d : Dev) (code : Nat) : Dev := d.tapShift code 0

/-- The boundary register captures the pins and takes new values. -/
def Dev.tapScan (d : Dev) (code pins load : Nat) : Dev := ({ d with lsh := { d.lsh with tap := { d.lsh.tap with preload := load } } }).tapShift code pins

/-- IDCODE. -/
def execIdcode (s : State) : Result := s.act fun d => d.tapShift 0x01 0x1129616F

/-- SAMPLE/PRELOAD: the pins are sampled, the values preloaded; the pins stay with the design. -/
def execSamplePreload (pins load : Nat) (s : State) : Result := s.act fun d => d.tapScan 0x02 pins load

/-- EXTEST: the boundary register drives the output pins. -/
def execExtest (pins load : Nat) (s : State) : Result := s.act fun d => if d.tapActs then d.tapScan 0x03 pins load else d.tapBypass 0x03

/-- EXTEST_PULSE (IEEE 1149.6). -/
def execExtestPulse (pins load : Nat) (s : State) : Result := s.act fun d => if d.tapActs then d.tapScan 0x04 pins load else d.tapBypass 0x04

/-- EXTEST_TRAIN (IEEE 1149.6). -/
def execExtestTrain (pins load : Nat) (s : State) : Result := s.act fun d => if d.tapActs then d.tapScan 0x05 pins load else d.tapBypass 0x05

/-- CLAMP: the output pins hold the preloaded values, and the bypass register is selected. -/
def execClamp (s : State) : Result := s.act fun d => d.tapBypass 0x06

/-- HIGHZ: the output pins float, and the bypass register is selected. -/
def execHighz (s : State) : Result := s.act fun d => d.tapBypass 0x07

/-- BYPASS. -/
def execBypass (s : State) : Result := s.act fun d => d.tapBypass 0xFF

end Sys2Proof.Machine
end

