-- ==== Sys2Proof/Machine/Dispatch.lean ====
section
/-! DEFINITION. The dispatch: one arm per command. -/

namespace Sys2Proof.Machine

/-- The effect of a command on everything but the queue. -/
def exec (i : Instr) (s : State) : Host.Outcome State Fault Refusal :=
  match i with
  | .directRegisterWrite w addr full value posted => Sys2Proof.Machine.execDirectRegisterWrite w addr full value posted s
  | .rcFieldRead w addr full => Sys2Proof.Machine.execRcFieldRead w addr full s
  | .porNRelease railsOk selfCheckOk kept => Sys2Proof.Machine.execPorNRelease railsOk selfCheckOk kept s
  | .porNAssert => Sys2Proof.Machine.execPorNAssert s
  | .hbmTrainingComplete failed => Sys2Proof.Machine.execHbmTrainingComplete failed s
  | .laneBringupComplete late => Sys2Proof.Machine.execLaneBringupComplete late s
  | .startupStep9 => Sys2Proof.Machine.execStartupStep9 s
  | .fenceNAssert => Sys2Proof.Machine.execFenceNAssert s
  | .fenceNDeassert => Sys2Proof.Machine.execFenceNDeassert s
  | .hostPerst hostb => Sys2Proof.Machine.execHostPerst hostb s
  | .heartbeatLossSafe => Sys2Proof.Machine.execHeartbeatLossSafe s
  | .modeTrigger => Sys2Proof.Machine.execModeTrigger s
  | .refclkRootLost => Sys2Proof.Machine.execRefclkRootLost s
  | .refclkRootReturn => Sys2Proof.Machine.execRefclkRootReturn s
  | .rootHoldoverTimeout => Sys2Proof.Machine.execRootHoldoverTimeout s
  | .baseDieClockLost b => Sys2Proof.Machine.execBaseDieClockLost b s
  | .baseDieClockGood b => Sys2Proof.Machine.execBaseDieClockGood b s
  | .baseDieResetRelease b => Sys2Proof.Machine.execBaseDieResetRelease b s
  | .fabricDieResetRelease f => Sys2Proof.Machine.execFabricDieResetRelease f s
  | .htCopyCompare measured => Sys2Proof.Machine.execHtCopyCompare measured s
  | .ptpMessage m => Sys2Proof.Machine.execPtpMessage m s
  | .ptpPartnerTimeout seqId => Sys2Proof.Machine.execPtpPartnerTimeout seqId s
  | .timePpsEdge => Sys2Proof.Machine.execTimePpsEdge s
  | .time10mReject => Sys2Proof.Machine.execTime10mReject s
  | .htHostAdjWrite w die value => Sys2Proof.Machine.execHtHostAdjWrite w die value s
  | .sourceLoss primary => Sys2Proof.Machine.execSourceLoss primary s
  | .cadenceEvent die gen ev => Sys2Proof.Machine.execCadenceEvent die gen ev s
  | .streamHeader bytes => Sys2Proof.Machine.execStreamHeader bytes s
  | .nop operand count => Sys2Proof.Machine.execNop operand count s
  | .wcfg operand payload => Sys2Proof.Machine.execWcfg operand payload s
  | .frame operand payload => Sys2Proof.Machine.execFrame operand payload s
  | .frameRpt operand payload => Sys2Proof.Machine.execFrameRpt operand payload s
  | .wblk operand payload => Sys2Proof.Machine.execWblk operand payload s
  | .wfab operand payload => Sys2Proof.Machine.execWfab operand payload s
  | .meminit operand payload => Sys2Proof.Machine.execMeminit operand payload s
  | .endPacket operand payload => Sys2Proof.Machine.execEndPacket operand payload s
  | .streamTag ok extra digest => Sys2Proof.Machine.execStreamTag ok extra digest s
  | .signatureCheckDone ok => Sys2Proof.Machine.execSignatureCheckDone ok s
  | .streamStallTimeout => Sys2Proof.Machine.execStreamStallTimeout s
  | .chainTimeout => Sys2Proof.Machine.execChainTimeout s
  | .chainForwardDone ok bytes => Sys2Proof.Machine.execChainForwardDone ok bytes s
  | .chainDoneNHigh => Sys2Proof.Machine.execChainDoneNHigh s
  | .chainWaitExpired => Sys2Proof.Machine.execChainWaitExpired s
  | .tamperNLow => Sys2Proof.Machine.execTamperNLow s
  | .vbattLoss => Sys2Proof.Machine.execVbattLoss s
  | .txnBegin c timeout => Sys2Proof.Machine.execTxnBegin c timeout s
  | .txnWrite c t fabric die off value => Sys2Proof.Machine.execTxnWrite c t fabric die off value s
  | .txnWriteList c t addr count entries => Sys2Proof.Machine.execTxnWriteList c t addr count entries s
  | .txnStream c t src place => Sys2Proof.Machine.execTxnStream c t src place s
  | .txnRead c t addr => Sys2Proof.Machine.execTxnRead c t addr s
  | .txnCommit c t trig => Sys2Proof.Machine.execTxnCommit c t trig s
  | .txnCancel c t => Sys2Proof.Machine.execTxnCancel c t s
  | .txnRollback c t => Sys2Proof.Machine.execTxnRollback c t s
  | .txnStatus c t => Sys2Proof.Machine.execTxnStatus c t s
  | .defaultTxnAutoArm t => Sys2Proof.Machine.execDefaultTxnAutoArm t s
  | .txnTimeout t => Sys2Proof.Machine.execTxnTimeout t s
  | .commitLaunch t => Sys2Proof.Machine.execCommitLaunch t s
  | .commitCycle t => Sys2Proof.Machine.execCommitCycle t s
  | .resyncComplete t => Sys2Proof.Machine.execResyncComplete t s
  | .regionResetRelease f n => Sys2Proof.Machine.execRegionResetRelease f n s
  | .regionClockStall f n => Sys2Proof.Machine.execRegionClockStall f n s
  | .icpStreamBytes f => Sys2Proof.Machine.execIcpStreamBytes f s
  | .icpPeatLoad f param => Sys2Proof.Machine.execIcpPeatLoad f param s
  | .icpReadback f param => Sys2Proof.Machine.execIcpReadback f param s
  | .icpCommit f param => Sys2Proof.Machine.execIcpCommit f param s
  | .icpRollback f => Sys2Proof.Machine.execIcpRollback f s
  | .icpAbort f => Sys2Proof.Machine.execIcpAbort f s
  | .icpBusyTimeout f => Sys2Proof.Machine.execIcpBusyTimeout f s
  | .scrubFrameRead shadow addr found => Sys2Proof.Machine.execScrubFrameRead shadow addr found s
  | .scrubRebuildComplete shadow addr src => Sys2Proof.Machine.execScrubRebuildComplete shadow addr src s
  | .tapClash line frame => Sys2Proof.Machine.execTapClash line frame s
  | .pllLock f p => Sys2Proof.Machine.execPllLock f p s
  | .pllLockLate f p => Sys2Proof.Machine.execPllLockLate f p s
  | .pllRefMeasured f p khz => Sys2Proof.Machine.execPllRefMeasured f p khz s
  | .pllLockLoss f p => Sys2Proof.Machine.execPllLockLoss f p s
  | .netStopped f n aps sps allTwinned => Sys2Proof.Machine.execNetStopped f n aps sps allTwinned s
  | .netResumed f n => Sys2Proof.Machine.execNetResumed f n s
  | .bundleRepair pair bundle upper err rgn => Sys2Proof.Machine.execBundleRepair pair bundle upper err rgn s
  | .apRequest f a addr write len tag full be data => Sys2Proof.Machine.execApRequest f a addr write len tag full be data s
  | .cordTraining c clk0 clk1 failed => Sys2Proof.Machine.execCordTraining c clk0 clk1 failed s
  | .cordTrainingTimeout c => Sys2Proof.Machine.execCordTrainingTimeout c s
  | .cordFlitSlot c flit checksOk => Sys2Proof.Machine.execCordFlitSlot c flit checksOk s
  | .cordCreditField c credit ack nak crcOk => Sys2Proof.Machine.execCordCreditField c credit ack nak crcOk s
  | .total c vc count crcOk => Sys2Proof.Machine.execTotal c vc count crcOk s
  | .replayTimeout c => Sys2Proof.Machine.execReplayTimeout c s
  | .wireFailed c wire => Sys2Proof.Machine.execWireFailed c wire s
  | .remap c wire => Sys2Proof.Machine.execRemap c wire s
  | .narrow c failed => Sys2Proof.Machine.execNarrow c failed s
  | .retest c failed => Sys2Proof.Machine.execRetest c failed s
  | .resume c => Sys2Proof.Machine.execResume c s
  | .spareTestDone c pass => Sys2Proof.Machine.execSpareTestDone c pass s
  | .cordOutOfService c => Sys2Proof.Machine.execCordOutOfService c s
  | .capabilityRecord l bytes => Sys2Proof.Machine.execCapabilityRecord l bytes s
  | .capTimeout l => Sys2Proof.Machine.execCapTimeout l s
  | .farFrame b g frame => Sys2Proof.Machine.execFarFrame b g frame s
  | .farLaneRestripe b g lane => Sys2Proof.Machine.execFarLaneRestripe b g lane s
  | .farPartnerSilent b g => Sys2Proof.Machine.execFarPartnerSilent b g s
  | .nocFlitCheck b r inp p corrected bad => Sys2Proof.Machine.execNocFlitCheck b r inp p corrected bad s
  | .rd p answer => Sys2Proof.Machine.execRd p answer s
  | .wr p answer => Sys2Proof.Machine.execWr p answer s
  | .wrp p => Sys2Proof.Machine.execWrp p s
  | .rsp p => Sys2Proof.Machine.execRsp p s
  | .msg p => Sys2Proof.Machine.execMsg p s
  | .strm g => Sys2Proof.Machine.execStrm g s
  | .routerFailed b r protectedOnly => Sys2Proof.Machine.execRouterFailed b r protectedOnly s
  | .routeHoldExpired id => Sys2Proof.Machine.execRouteHoldExpired id s
  | .initiatorTimeout src tag => Sys2Proof.Machine.execInitiatorTimeout src tag s
  | .packetAgeDiscard id => Sys2Proof.Machine.execPacketAgeDiscard id s
  | .targetLateFault src tag => Sys2Proof.Machine.execTargetLateFault src tag s
  | .tagQuarantineEnd src tag => Sys2Proof.Machine.execTagQuarantineEnd src tag s
  | .epochDrainSum => Sys2Proof.Machine.execEpochDrainSum s
  | .epochDrainTimeout => Sys2Proof.Machine.execEpochDrainTimeout s
  | .domainClose dom => Sys2Proof.Machine.execDomainClose dom s
  | .domainDrainEnd dom => Sys2Proof.Machine.execDomainDrainEnd dom s
  | .domainReopen dom => Sys2Proof.Machine.execDomainReopen dom s
  | .utilisationWindow b r util => Sys2Proof.Machine.execUtilisationWindow b r util s
  | .fragmentArrival b x fromOld => Sys2Proof.Machine.execFragmentArrival b x fromOld s
  | .fragmentRelease g => Sys2Proof.Machine.execFragmentRelease g s
  | .mergeSilence g => Sys2Proof.Machine.execMergeSilence g s
  | .swappingTimeout g => Sys2Proof.Machine.execSwappingTimeout g s
  | .fabricSourceUnit f p u spDrop => Sys2Proof.Machine.execFabricSourceUnit f p u spDrop s
  | .linkRecompute => Sys2Proof.Machine.execLinkRecompute s
  | .frameStoreDecision k => Sys2Proof.Machine.execFrameStoreDecision k s
  | .frameStoreLineRead g unit frame => Sys2Proof.Machine.execFrameStoreLineRead g unit frame s
  | .frameStoreReadReturn g fate => Sys2Proof.Machine.execFrameStoreReadReturn g fate s
  | .deTakeover b c => Sys2Proof.Machine.execDeTakeover b c s
  | .laneSignalDetect b l => Sys2Proof.Machine.execLaneSignalDetect b l s
  | .trainAAdapted b l => Sys2Proof.Machine.execTrainAAdapted b l s
  | .trainBMarkers b l => Sys2Proof.Machine.execTrainBMarkers b l s
  | .bitLockPass b l => Sys2Proof.Machine.execBitLockPass b l s
  | .billetLockFound b l => Sys2Proof.Machine.execBilletLockFound b l s
  | .laneStateTimeout b l => Sys2Proof.Machine.execLaneStateTimeout b l s
  | .refclkOffsetCheck b l ppb => Sys2Proof.Machine.execRefclkOffsetCheck b l ppb s
  | .laneRefLost b r => Sys2Proof.Machine.execLaneRefLost b r s
  | .laneRefGood b r => Sys2Proof.Machine.execLaneRefGood b r s
  | .idleBillet b l x => Sys2Proof.Machine.execIdleBillet b l x s
  | .data b l x w0 w1 => Sys2Proof.Machine.execData b l x w0 w1 s
  | .data1 b l x w => Sys2Proof.Machine.execData1 b l x w s
  | .data1WaitExpired b n => Sys2Proof.Machine.execData1WaitExpired b n s
  | .ack b l x lanes xoff => Sys2Proof.Machine.execAck b l x lanes xoff s
  | .cap b l x record => Sys2Proof.Machine.execCap b l x record s
  | .restripe b l x p => Sys2Proof.Machine.execRestripe b l x p s
  | .nativeLaneDown b l => Sys2Proof.Machine.execNativeLaneDown b l s
  | .nativeLinkDown b n => Sys2Proof.Machine.execNativeLinkDown b n s
  | .sdiRateUpdate b l => Sys2Proof.Machine.execSdiRateUpdate b l s
  | .errorInjectGo w b l value => Sys2Proof.Machine.execErrorInjectGo w b l value s
  | .sdiLineReceived b g c x => Sys2Proof.Machine.execSdiLineReceived b g c x s
  | .sdiUnlock b g c => Sys2Proof.Machine.execSdiUnlock b g c s
  | .sdiLineStart b g c line frame active room => Sys2Proof.Machine.execSdiLineStart b g c line frame active room s
  | .ethFrameReceived b g m x => Sys2Proof.Machine.execEthFrameReceived b g m x s
  | .assemblyTimeout b g idx seq => Sys2Proof.Machine.execAssemblyTimeout b g idx seq s
  | .legLost b g idx second => Sys2Proof.Machine.execLegLost b g idx second s
  | .txPacketDeparture b g idx seq k frameNo => Sys2Proof.Machine.execTxPacketDeparture b g idx seq k frameNo s
  | .add e d src t => Sys2Proof.Machine.execAdd e d src t s
  | .sub e d src t => Sys2Proof.Machine.execSub e d src t s
  | .and e d src t => Sys2Proof.Machine.execAnd e d src t s
  | .or e d src t => Sys2Proof.Machine.execOr e d src t s
  | .xor e d src t => Sys2Proof.Machine.execXor e d src t s
  | .sll e d src t => Sys2Proof.Machine.execSll e d src t s
  | .srl e d src t => Sys2Proof.Machine.execSrl e d src t s
  | .sra e d src t => Sys2Proof.Machine.execSra e d src t s
  | .slli e d src sh => Sys2Proof.Machine.execSlli e d src sh s
  | .srli e d src sh => Sys2Proof.Machine.execSrli e d src sh s
  | .srai e d src sh => Sys2Proof.Machine.execSrai e d src sh s
  | .mulh e d src t => Sys2Proof.Machine.execMulh e d src t s
  | .min e d src t => Sys2Proof.Machine.execMin e d src t s
  | .max e d src t => Sys2Proof.Machine.execMax e d src t s
  | .abs e d src => Sys2Proof.Machine.execAbs e d src s
  | .norm e d src => Sys2Proof.Machine.execNorm e d src s
  | .slt e d src t => Sys2Proof.Machine.execSlt e d src t s
  | .sltu e d src t => Sys2Proof.Machine.execSltu e d src t s
  | .sat16 e d src => Sys2Proof.Machine.execSat16 e d src s
  | .bswap e d src => Sys2Proof.Machine.execBswap e d src s
  | .vadd e d src t => Sys2Proof.Machine.execVadd e d src t s
  | .vsub e d src t => Sys2Proof.Machine.execVsub e d src t s
  | .vadds e d src t => Sys2Proof.Machine.execVadds e d src t s
  | .vsubs e d src t => Sys2Proof.Machine.execVsubs e d src t s
  | .vsll e d src sh => Sys2Proof.Machine.execVsll e d src sh s
  | .vsrl e d src sh => Sys2Proof.Machine.execVsrl e d src sh s
  | .vsra e d src sh => Sys2Proof.Machine.execVsra e d src sh s
  | .vmin e d src t => Sys2Proof.Machine.execVmin e d src t s
  | .vmax e d src t => Sys2Proof.Machine.execVmax e d src t s
  | .vabs e d src => Sys2Proof.Machine.execVabs e d src s
  | .bexpV e src => Sys2Proof.Machine.execBexpV e src s
  | .bexpM e m err => Sys2Proof.Machine.execBexpM e m err s
  | .bexpA e a => Sys2Proof.Machine.execBexpA e a s
  | .bxrst e => Sys2Proof.Machine.execBxrst e s
  | .scalebV e d src => Sys2Proof.Machine.execScalebV e d src s
  | .scalebVr e d src sh => Sys2Proof.Machine.execScalebVr e d src sh s
  | .scalebA e a => Sys2Proof.Machine.execScalebA e a s
  | .scalebAr e a sh => Sys2Proof.Machine.execScalebAr e a sh s
  | .addi e d src imm => Sys2Proof.Machine.execAddi e d src imm s
  | .andi e d src imm => Sys2Proof.Machine.execAndi e d src imm s
  | .ori e d src imm => Sys2Proof.Machine.execOri e d src imm s
  | .xori e d src imm => Sys2Proof.Machine.execXori e d src imm s
  | .lui e d src imm => Sys2Proof.Machine.execLui e d src imm s
  | .slti e d src imm => Sys2Proof.Machine.execSlti e d src imm s
  | .ld e g m sz sx err => Sys2Proof.Machine.execLd e g m sz sx err s
  | .st e g m sz => Sys2Proof.Machine.execSt e g m sz s
  | .lds e x m err => Sys2Proof.Machine.execLds e x m err s
  | .sts e x m => Sys2Proof.Machine.execSts e x m s
  | .movs e g x => Sys2Proof.Machine.execMovs e g x s
  | .movg e g x => Sys2Proof.Machine.execMovg e g x s
  | .b e cond off => Sys2Proof.Machine.execB e cond off s
  | .bz e src off => Sys2Proof.Machine.execBz e src off s
  | .bnz e src off => Sys2Proof.Machine.execBnz e src off s
  | .j e off => Sys2Proof.Machine.execJ e off s
  | .call e off => Sys2Proof.Machine.execCall e off s
  | .jr e src => Sys2Proof.Machine.execJr e src s
  | .callr e src => Sys2Proof.Machine.execCallr e src s
  | .reti e => Sys2Proof.Machine.execReti e s
  | .rpt e n => Sys2Proof.Machine.execRpt e n s
  | .rptr e src => Sys2Proof.Machine.execRptr e src s
  | .rptb e len count => Sys2Proof.Machine.execRptb e len count s
  | .rptbr e len src => Sys2Proof.Machine.execRptbr e len src s
  | .vmac e p err => Sys2Proof.Machine.execVmac e p err s
  | .tapm e p err => Sys2Proof.Machine.execTapm e p err s
  | .vmacr e q => Sys2Proof.Machine.execVmacr e q s
  | .sacc e a k am sh z => Sys2Proof.Machine.execSacc e a k am sh z s
  | .pack e g a sh z => Sys2Proof.Machine.execPack e g a sh z s
  | .clra e a => Sys2Proof.Machine.execClra e a s
  | .accr e g a lane => Sys2Proof.Machine.execAccr e g a lane s
  | .accrh e g a lane => Sys2Proof.Machine.execAccrh e g a lane s
  | .accw e a lane g => Sys2Proof.Machine.execAccw e a lane g s
  | .extu e d src pos wm1 => Sys2Proof.Machine.execExtu e d src pos wm1 s
  | .exts e d src pos wm1 => Sys2Proof.Machine.execExts e d src pos wm1 s
  | .ins e d src pos wm1 => Sys2Proof.Machine.execIns e d src pos wm1 s
  | .extur e d src t => Sys2Proof.Machine.execExtur e d src t s
  | .extsr e d src t => Sys2Proof.Machine.execExtsr e d src t s
  | .insr e d src t => Sys2Proof.Machine.execInsr e d src t s
  | .clz e d src => Sys2Proof.Machine.execClz e d src s
  | .popc e d src => Sys2Proof.Machine.execPopc e d src s
  | .brev e d src => Sys2Proof.Machine.execBrev e d src s
  | .shld e d src t sh => Sys2Proof.Machine.execShld e d src t sh s
  | .putb e w src t k => Sys2Proof.Machine.execPutb e w src t k s
  | .getb e d r t k err => Sys2Proof.Machine.execGetb e d r t k err s
  | .xfer e src k tag dir n => Sys2Proof.Machine.execXfer e src k tag dir n s
  | .wait e d tag => Sys2Proof.Machine.execWait e d tag s
  | .ll e d src imm => Sys2Proof.Machine.execLl e d src imm s
  | .sc e d src t imm => Sys2Proof.Machine.execSc e d src t imm s
  | .send e idx src tag => Sys2Proof.Machine.execSend e idx src tag s
  | .stim e k src => Sys2Proof.Machine.execStim e k src s
  | .halt e src => Sys2Proof.Machine.execHalt e src s
  | .nopInstruction e => Sys2Proof.Machine.execNopInstruction e s
  | .transferComplete e answer => Sys2Proof.Machine.execTransferComplete e answer s
  | .streamInterrupt e => Sys2Proof.Machine.execStreamInterrupt e s
  | .preemptAccept e => Sys2Proof.Machine.execPreemptAccept e s
  | .llWaitExpired e => Sys2Proof.Machine.execLlWaitExpired e s
  | .contextSaveComplete e => Sys2Proof.Machine.execContextSaveComplete e s
  | .contextRestoreComplete e => Sys2Proof.Machine.execContextRestoreComplete e s
  | .debugHalt e => Sys2Proof.Machine.execDebugHalt e s
  | .engineFailed e => Sys2Proof.Machine.execEngineFailed e s
  | .streamRingDelivery p idx => Sys2Proof.Machine.execStreamRingDelivery p idx s
  | .packMemoryScrub p corrected bad => Sys2Proof.Machine.execPackMemoryScrub p corrected bad s
  | .kenDoorbell w q value => Sys2Proof.Machine.execKenDoorbell w q value s
  | .descriptorAccept q storeErr => Sys2Proof.Machine.execDescriptorAccept q storeErr s
  | .templateRelease q => Sys2Proof.Machine.execTemplateRelease q s
  | .dispatchDecision b h => Sys2Proof.Machine.execDispatchDecision b h s
  | .preemptionStart b h => Sys2Proof.Machine.execPreemptionStart b h s
  | .patienceExpired q => Sys2Proof.Machine.execPatienceExpired q s
  | .crossDieStealRequest b h => Sys2Proof.Machine.execCrossDieStealRequest b h s
  | .kennelTick b t => Sys2Proof.Machine.execKennelTick b t s
  | .watchdogExpiry e => Sys2Proof.Machine.execWatchdogExpiry e s
  | .completionWrite b r => Sys2Proof.Machine.execCompletionWrite b r s
  | .kenCrConsWrite w b r value => Sys2Proof.Machine.execKenCrConsWrite w b r value s
  | .qcmdFlush q => Sys2Proof.Machine.execQcmdFlush q s
  | .qcmdCancelPeriodic q => Sys2Proof.Machine.execQcmdCancelPeriodic q s
  | .dispatchLaneTakeover b h => Sys2Proof.Machine.execDispatchLaneTakeover b h s
  | .spillReadReturn q ok mirrorOk => Sys2Proof.Machine.execSpillReadReturn q ok mirrorOk s
  | .kennelDieReturn b => Sys2Proof.Machine.execKennelDieReturn b s
  | .patrolScrub k block found => Sys2Proof.Machine.execPatrolScrub k block found s
  | .rowRepair k row lastResource => Sys2Proof.Machine.execRowRepair k row lastResource s
  | .pseudoChannelFailed k pc => Sys2Proof.Machine.execPseudoChannelFailed k pc s
  | .pcsCopyComplete k unreadable => Sys2Proof.Machine.execPcsCopyComplete k unreadable s
  | .stackFailed k => Sys2Proof.Machine.execStackFailed k s
  | .pipelineMismatch k pipe => Sys2Proof.Machine.execPipelineMismatch k pipe s
  | .keyInstall c key level src kcv => Sys2Proof.Machine.execKeyInstall c key level src kcv s
  | .keyRetire c key => Sys2Proof.Machine.execKeyRetire c key s
  | .retirementComplete key => Sys2Proof.Machine.execRetirementComplete key s
  | .keyRegion c key stack n base size metaBase metaUnits durable wide => Sys2Proof.Machine.execKeyRegion c key stack n base size metaBase metaUnits durable wide s
  | .regionInitComplete k n => Sys2Proof.Machine.execRegionInitComplete k n s
  | .keyRegionFree c stack n => Sys2Proof.Machine.execKeyRegionFree c stack n s
  | .keyRekey c stack n => Sys2Proof.Machine.execKeyRekey c stack n s
  | .rekeySweepComplete k n => Sys2Proof.Machine.execRekeySweepComplete k n s
  | .keyReinit c stack n first count => Sys2Proof.Machine.execKeyReinit c stack n first count s
  | .keyBbk c src => Sys2Proof.Machine.execKeyBbk c src s
  | .keyStatus c key => Sys2Proof.Machine.execKeyStatus c key s
  | .metadataFailure k n first count => Sys2Proof.Machine.execMetadataFailure k n first count s
  | .linkKeySwitch w b g value => Sys2Proof.Machine.execLinkKeySwitch w b g value s
  | .linkKeySwitchFrame b g => Sys2Proof.Machine.execLinkKeySwitchFrame b g s
  | .hrtCqTailWrite w b fn full value posted => Sys2Proof.Machine.execHrtCqTailWrite w b fn full value posted s
  | .imageSlotWrite c slot addr len bytes tagOk bad => Sys2Proof.Machine.execImageSlotWrite c slot addr len bytes tagOk bad s
  | .imageLoad c src addr len => Sys2Proof.Machine.execImageLoad c src addr len s
  | .imageAbort c => Sys2Proof.Machine.execImageAbort c s
  | .imageBootPref c slot => Sys2Proof.Machine.execImageBootPref c slot s
  | .imageSvnCommit c => Sys2Proof.Machine.execImageSvnCommit c s
  | .imageRegionPut c off addr len bytes tagOk => Sys2Proof.Machine.execImageRegionPut c off addr len bytes tagOk s
  | .imageFwStage c addr len image => Sys2Proof.Machine.execImageFwStage c addr len image s
  | .imageFwActivate c commitSvn standbyUp oldUp => Sys2Proof.Machine.execImageFwActivate c commitSvn standbyUp oldUp s
  | .modeSet c mode trig => Sys2Proof.Machine.execModeSet c mode trig s
  | .modeReset c railsOk selfCheckOk kept => Sys2Proof.Machine.execModeReset c railsOk selfCheckOk kept s
  | .modeLeash c allow => Sys2Proof.Machine.execModeLeash c allow s
  | .repairBaseReset c die => Sys2Proof.Machine.execRepairBaseReset c die s
  | .repairFabricReset c die => Sys2Proof.Machine.execRepairFabricReset c die s
  | .repairBlockReset c die block inst => Sys2Proof.Machine.execRepairBlockReset c die block inst s
  | .repairCord c die n retest => Sys2Proof.Machine.execRepairCord c die n retest s
  | .repairPpr c die ctl => Sys2Proof.Machine.execRepairPpr c die ctl s
  | .repairHearth c up => Sys2Proof.Machine.execRepairHearth c up s
  | .kilnRun c die block inst => Sys2Proof.Machine.execKilnRun c die block inst s
  | .kilnResult c die block inst => Sys2Proof.Machine.execKilnResult c die block inst s
  | .queryId c => Sys2Proof.Machine.execQueryId c s
  | .queryPart c addr dmaOk => Sys2Proof.Machine.execQueryPart c addr dmaOk s
  | .queryTime c => Sys2Proof.Machine.execQueryTime c s
  | .queryHealth c addr dmaOk => Sys2Proof.Machine.execQueryHealth c addr dmaOk s
  | .logRead c addr max dmaOk => Sys2Proof.Machine.execLogRead c addr max dmaOk s
  | .logNotify c vec sev enable => Sys2Proof.Machine.execLogNotify c vec sev enable s
  | .functionLevelReset fn => Sys2Proof.Machine.execFunctionLevelReset fn s
  | .bar2Access fn off write bytes answer => Sys2Proof.Machine.execBar2Access fn off write bytes answer s
  | .spdmGetVersion fn wellFormed => Sys2Proof.Machine.execSpdmGetVersion fn wellFormed s
  | .spdmGetCapabilities fn wellFormed => Sys2Proof.Machine.execSpdmGetCapabilities fn wellFormed s
  | .spdmNegotiateAlgorithms fn wellFormed => Sys2Proof.Machine.execSpdmNegotiateAlgorithms fn wellFormed s
  | .spdmGetDigests fn wellFormed => Sys2Proof.Machine.execSpdmGetDigests fn wellFormed s
  | .spdmGetCertificate fn wellFormed slot off len => Sys2Proof.Machine.execSpdmGetCertificate fn wellFormed slot off len s
  | .spdmChallenge fn wellFormed slot nonce => Sys2Proof.Machine.execSpdmChallenge fn wellFormed slot nonce s
  | .spdmGetMeasurements fn wellFormed index sign nonce => Sys2Proof.Machine.execSpdmGetMeasurements fn wellFormed index sign nonce s
  | .spdmKeyExchange fn wellFormed nonce => Sys2Proof.Machine.execSpdmKeyExchange fn wellFormed nonce s
  | .spdmFinish fn wellFormed session verifyOk => Sys2Proof.Machine.execSpdmFinish fn wellFormed session verifyOk s
  | .spdmHeartbeat fn wellFormed session => Sys2Proof.Machine.execSpdmHeartbeat fn wellFormed session s
  | .spdmKeyUpdate fn wellFormed session => Sys2Proof.Machine.execSpdmKeyUpdate fn wellFormed session s
  | .spdmEndSession fn wellFormed session => Sys2Proof.Machine.execSpdmEndSession fn wellFormed session s
  | .keyDeliver fn wellFormed session target buffer key => Sys2Proof.Machine.execKeyDeliver fn wellFormed session target buffer key s
  | .keyBufferExpiry fn buffer => Sys2Proof.Machine.execKeyBufferExpiry fn buffer s
  | .bmcMessage m => Sys2Proof.Machine.execBmcMessage m s
  | .bmcRequestSafe => Sys2Proof.Machine.execBmcRequestSafe s
  | .bmcClockHeldTimeout => Sys2Proof.Machine.execBmcClockHeldTimeout s
  | .hearthTakeover missed => Sys2Proof.Machine.execHearthTakeover missed s
  | .faultOccurrence o => Sys2Proof.Machine.execFaultOccurrence o s
  | .handlingActionDone entry next => Sys2Proof.Machine.execHandlingActionDone entry next s
  | .ringOverflowEscalation => Sys2Proof.Machine.execRingOverflowEscalation s
  | .fabricDieFailed f => Sys2Proof.Machine.execFabricDieFailed f s
  | .baseDieFailed b => Sys2Proof.Machine.execBaseDieFailed b s
  | .kilnSliceStart b unit handed => Sys2Proof.Machine.execKilnSliceStart b unit handed s
  | .kilnSliceEnd b patterns sigOk sig restoreErr => Sys2Proof.Machine.execKilnSliceEnd b patterns sigOk sig restoreErr s
  | .kilnRecall b patterns sig restoreErr => Sys2Proof.Machine.execKilnRecall b patterns sig restoreErr s
  | .kilnOverdue b unit => Sys2Proof.Machine.execKilnOverdue b unit s
  | .ledgerAudit b => Sys2Proof.Machine.execLedgerAudit b s
  | .ledgerMismatch b kind inst diff => Sys2Proof.Machine.execLedgerMismatch b kind inst diff s
  | .ledgerDrainComplete b kind inst => Sys2Proof.Machine.execLedgerDrainComplete b kind inst s
  | .ledgerDrainTimeout b kind inst slot => Sys2Proof.Machine.execLedgerDrainTimeout b kind inst slot s
  | .fltInject w b value posted => Sys2Proof.Machine.execFltInject w b value posted s
  | .railExcursion b r mv => Sys2Proof.Machine.execRailExcursion b r mv s
  | .domainWake b n => Sys2Proof.Machine.execDomainWake b n s
  | .sagDetected pin => Sys2Proof.Machine.execSagDetected pin s
  | .emberRecordComplete => Sys2Proof.Machine.execEmberRecordComplete s
  | .emberResume => Sys2Proof.Machine.execEmberResume s
  | .emberWindowEnd => Sys2Proof.Machine.execEmberWindowEnd s
  | .vholdThreshold mv => Sys2Proof.Machine.execVholdThreshold mv s
  | .capacitanceMeasurement uf => Sys2Proof.Machine.execCapacitanceMeasurement uf s
  | .thermalReading b sensor valid temp long => Sys2Proof.Machine.execThermalReading b sensor valid temp long s
  | .thermtrip cause => Sys2Proof.Machine.execThermtrip cause s
  | .evtCntWrite w b n value same => Sys2Proof.Machine.execEvtCntWrite w b n value same s
  | .eventSnapshot b => Sys2Proof.Machine.execEventSnapshot b s
  | .traceSync b => Sys2Proof.Machine.execTraceSync b s
  | .tracePacketOut b => Sys2Proof.Machine.execTracePacketOut b s
  | .evtTrPop w b value => Sys2Proof.Machine.execEvtTrPop w b value s
  | .fabricStimulusWrite f port data => Sys2Proof.Machine.execFabricStimulusWrite f port data s
  | .ident fr => Sys2Proof.Machine.execIdent fr s
  | .leashChallenge fr => Sys2Proof.Machine.execLeashChallenge fr s
  | .unlockSig fr rights slot pub verifyOk => Sys2Proof.Machine.execUnlockSig fr rights slot pub verifyOk s
  | .unlockPass fr rights responseOk => Sys2Proof.Machine.execUnlockPass fr rights responseOk s
  | .close fr => Sys2Proof.Machine.execClose fr s
  | .leashRead fr addr answer => Sys2Proof.Machine.execLeashRead fr addr answer s
  | .leashWrite fr addr value answer => Sys2Proof.Machine.execLeashWrite fr addr value answer s
  | .consume fr addr answer => Sys2Proof.Machine.execConsume fr addr answer s
  | .readBlk fr addr count answers => Sys2Proof.Machine.execReadBlk fr addr count answers s
  | .benchEnter fr => Sys2Proof.Machine.execBenchEnter fr s
  | .benchLeave fr => Sys2Proof.Machine.execBenchLeave fr s
  | .leashHalt fr eng => Sys2Proof.Machine.execLeashHalt fr eng s
  | .step fr eng n => Sys2Proof.Machine.execStep fr eng n s
  | .leashResume fr eng how => Sys2Proof.Machine.execLeashResume fr eng how s
  | .engRead fr eng off => Sys2Proof.Machine.execEngRead fr eng off s
  | .engWrite fr eng off value => Sys2Proof.Machine.execEngWrite fr eng off value s
  | .excHalt fr eng on => Sys2Proof.Machine.execExcHalt fr eng on s
  | .leashFrameReset => Sys2Proof.Machine.execLeashFrameReset s
  | .leashCkStall => Sys2Proof.Machine.execLeashCkStall s
  | .leashCommandTimeout => Sys2Proof.Machine.execLeashCommandTimeout s
  | .leashIdleTimeout => Sys2Proof.Machine.execLeashIdleTimeout s
  | .nonceExpiry => Sys2Proof.Machine.execNonceExpiry s
  | .idcode => Sys2Proof.Machine.execIdcode s
  | .samplePreload pins load => Sys2Proof.Machine.execSamplePreload pins load s
  | .extest pins load => Sys2Proof.Machine.execExtest pins load s
  | .extestPulse pins load => Sys2Proof.Machine.execExtestPulse pins load s
  | .extestTrain pins load => Sys2Proof.Machine.execExtestTrain pins load s
  | .clamp => Sys2Proof.Machine.execClamp s
  | .highz => Sys2Proof.Machine.execHighz s
  | .bypass => Sys2Proof.Machine.execBypass s
  | .railsValidAgain selfCheckOk kept => Sys2Proof.Machine.execRailsValidAgain selfCheckOk kept s
  | .simplexTrainingPhaseEnd b n => Sys2Proof.Machine.execSimplexTrainingPhaseEnd b n s
  | .returnToDetect b l => Sys2Proof.Machine.execReturnToDetect b l s
  | .ethernetLaneLock b l up => Sys2Proof.Machine.execEthernetLaneLock b l up s
  | .undefinedEncoding e word => Sys2Proof.Machine.execUndefinedEncoding e word s
  | .unknownOpcodePacket opcode operand count => Sys2Proof.Machine.execUnknownOpcodePacket opcode operand count s
  | .unknownCommandEntry c group cmd => Sys2Proof.Machine.execUnknownCommandEntry c group cmd s
  | .unknownLeashCommand fr code => Sys2Proof.Machine.execUnknownLeashCommand fr code s
  | .vholdDepleted => Sys2Proof.Machine.execVholdDepleted s
  | .retentionLevelCrossed b r => Sys2Proof.Machine.execRetentionLevelCrossed b r s
  | .spdmHeartbeatTimeout session => Sys2Proof.Machine.execSpdmHeartbeatTimeout session s
  | .sourceEndOfData => Sys2Proof.Machine.execSourceEndOfData s

end Sys2Proof.Machine
end

