-- ==== Sys2Proof/Machine/Tick.lean ====
section
/-! DEFINITION. One ROOT cycle: what the passage of time alone does to the device. Log entries: DEDUCED 20, 38, 58; DESIGN CHOICE 1, 15. -/

namespace Sys2Proof.Machine

/-- House time as its 96 bits hold it (R42): seconds of 48 bits, in units of 2^-40 ns. -/
def htSpan : Nat := 2 ^ 48 * (10 ^ 9 * nsUnits)

/-- The pattern checker of lane l of base die b in one ROOT cycle (R289): how many bits it compares, how many are wrong and whether it locks hang on what the
lane receives, so they are free values. -/
def Dev.laneCheck (d : Dev) (b l : Nat) : Dev :=
  let a := Ix.on b l
  if d.rd F.LN_PAT_chk a = 0 || d.dieOff b then d.st F.LN_CHK_chk_lock a 0
  else
    let (x, d) := d.draw 13
    let d := d.on (d.flag F.LN_CHK_chk_lock a) (fun d =>
      (d.bump F.LN_CHK_BITS_bits a (bits x 0 6)).bump F.LN_CHK_chk_errors a (min (bits x 0 6) (bits x 6 6)))
    d.st F.LN_CHK_chk_lock a (bits x 12 1)

/-- The pattern checkers of every lane. -/
def Dev.laneChecks (d : Dev) : Dev := (List.range 128).foldl (fun (d : Dev) (k : Nat) => d.laneCheck (k / 32) (k % 32)) d

/-- A full sweep of scrub ends within the cycle, or not (R144): whether it does, and how long it took, are free values. -/
def Dev.scrubSweep (d : Dev) : Dev :=
  let (x, d) := d.draw 15
  d.on (bits x 14 1 = 1) (fun d => d.st F.HRT_SCRUB_STAT_last_sweep_us {} (bits x 0 14))

/-- One ROOT cycle (R37, R43): the cycle count and house time advance, counters that count cycles count, stimulus FIFOs drain, lanes' pattern checkers and
scrub go on, and a Leash STEP that waits goes on. Nothing is clocked while the device is held in reset or before its root PLL has locked (R35). Log entry 1. -/
def Dev.rootCycle (d : Dev) : Dev :=
  if d.clk.held || d.clk.stopped then d
  else (({ d with root := d.root + 1, ht := (d.ht + d.rd F.HT_RATE_rate {}) % htSpan }).observeCycle.laneChecks).scrubSweep.stepWait

end Sys2Proof.Machine
end

