-- ==== Sys2Proof/Machine/Step.lean ====
section
/-! DEFINITION. One step of the machine: the command at the front of the queue, or one ROOT cycle where none waits. Log entries: DESIGN CHOICE 1, 12. -/

namespace Sys2Proof.Machine

/-- Take the command at the front of the queue and carry it out on the queue's rest; on an empty queue one ROOT cycle passes (log entry 1). -/
def step (s : State) : Host.Outcome State Fault Refusal :=
  match s.pending with
  | [] => s.act Dev.rootCycle
  | c :: r => exec c { s with pending := r }

/-- `s` with the command that a table word spells put at the front of its queue. The opcode table gives no row any bits, so no word spells one. -/
def State.withFetchWord (s : State) (nbits w : Nat) : State :=
  match decodeTableWord nbits w with
  | some c => { s with pending := c :: s.pending }
  | none => s

end Sys2Proof.Machine
end

