-- ==== Sys2Proof/WellFormed.lean ====
section
/-! DEFINITION. Which commands are well formed: what their operands can be, where a type alone does not say it. -/

namespace Sys2Proof

/-- `cmd_id` has 4 bytes (R459). -/
def HostCmd.wf (c : HostCmd) : Bool := decide (c.cmdId < 2 ^ 32)

/-- The parameters of a trigger have the sizes of R459: 4 bytes each of seconds and nanoseconds, 1 byte each of die, generator and event. -/
def Trigger.wf : Trigger → Bool
  | .instant sec ns => decide (sec < 2 ^ 32) && decide (ns < 2 ^ 32)
  | .cadence die gen event => decide (die < 256) && decide (gen < 256) && decide (event < 256)

/-- A PTP message carries a 4-bit version, an 8-bit domain and a 16-bit sequence number (R47). -/
def PtpMsg.wf (m : PtpMsg) : Bool := decide (m.version < 16) && decide (m.domain < 256) && decide (m.seqId < 2 ^ 16)

/-- An Ethernet frame that is a PTP message is one that R47 knows. -/
def EthFrame.wf (x : EthFrame) : Bool :=
  match x.kind with
  | .ptp m => m.wf
  | _ => true

/-- A far frame's capability record has 64 bytes (R198, R200). -/
def FarFrame.wf (x : FarFrame) : Bool :=
  match x.kind with
  | .capability bytes => decide (bytes.length = 64)
  | _ => true

/-- A command is well formed: a header has 256 bytes (R88), a packet's word count 24 bits (R90), capability records their lengths (R198, R275), a public key
768 bits (R541). -/
def Instr.wf (i : Instr) : Bool :=
  match i with
  | .ptpMessage m => m.wf
  | .ptpPartnerTimeout seqId => decide (seqId < 2 ^ 16)
  | .streamHeader bytes => decide (bytes.length = 256)
  | .wcfg _ payload => decide (payload.length < 2 ^ 24)
  | .frame _ payload => decide (payload.length < 2 ^ 24)
  | .frameRpt _ payload => decide (payload.length < 2 ^ 24)
  | .wblk _ payload => decide (payload.length < 2 ^ 24)
  | .wfab _ payload => decide (payload.length < 2 ^ 24)
  | .meminit _ payload => decide (payload.length < 2 ^ 24)
  | .endPacket _ payload => decide (payload.length < 2 ^ 24)
  | .txnBegin c _ => c.wf
  | .txnWrite c _ _ _ _ _ => c.wf
  | .txnWriteList c _ _ _ _ => c.wf
  | .txnStream c _ _ _ => c.wf
  | .txnRead c _ _ => c.wf
  | .txnCommit c _ trig => c.wf && trig.wf
  | .txnCancel c _ => c.wf
  | .txnRollback c _ => c.wf
  | .txnStatus c _ => c.wf
  | .capabilityRecord _ bytes => decide (bytes.length = 64)
  | .farFrame _ _ x => x.wf
  | .cap _ _ _ record => decide (record.length = 128)
  | .ethFrameReceived _ _ _ x => x.wf
  | .keyInstall c _ _ _ _ => c.wf
  | .keyRetire c _ => c.wf
  | .keyRegion c _ _ _ _ _ _ _ _ _ => c.wf
  | .keyRegionFree c _ _ => c.wf
  | .keyRekey c _ _ => c.wf
  | .keyReinit c _ _ _ _ => c.wf
  | .keyBbk c _ => c.wf
  | .keyStatus c _ => c.wf
  | .imageSlotWrite c _ _ _ _ _ _ => c.wf
  | .imageLoad c _ _ _ => c.wf
  | .imageAbort c => c.wf
  | .imageBootPref c _ => c.wf
  | .imageSvnCommit c => c.wf
  | .imageRegionPut c _ _ _ _ _ => c.wf
  | .imageFwStage c _ _ _ => c.wf
  | .imageFwActivate c _ _ _ => c.wf
  | .modeSet c _ trig => c.wf && trig.wf
  | .modeReset c _ _ _ => c.wf
  | .modeLeash c _ => c.wf
  | .repairBaseReset c _ => c.wf
  | .repairFabricReset c _ => c.wf
  | .repairBlockReset c _ _ _ => c.wf
  | .repairCord c _ _ _ => c.wf
  | .repairPpr c _ _ => c.wf
  | .repairHearth c _ => c.wf
  | .kilnRun c _ _ _ => c.wf
  | .kilnResult c _ _ _ => c.wf
  | .queryId c => c.wf
  | .queryPart c _ _ => c.wf
  | .queryTime c => c.wf
  | .queryHealth c _ _ => c.wf
  | .logRead c _ _ _ => c.wf
  | .logNotify c _ _ _ => c.wf
  | .unlockSig _ _ _ pub _ => decide (pub < 2 ^ 768)
  | .unknownCommandEntry c _ _ => c.wf
  | .directRegisterWrite .. | .rcFieldRead .. | .porNRelease .. | .porNAssert .. | .hbmTrainingComplete .. | .laneBringupComplete .. => true
  | .startupStep9 .. | .fenceNAssert .. | .fenceNDeassert .. | .hostPerst .. | .heartbeatLossSafe .. | .modeTrigger .. => true
  | .refclkRootLost .. | .refclkRootReturn .. | .rootHoldoverTimeout .. | .baseDieClockLost .. | .baseDieClockGood .. | .baseDieResetRelease .. => true
  | .fabricDieResetRelease .. | .htCopyCompare .. | .timePpsEdge .. | .time10mReject .. | .htHostAdjWrite .. | .sourceLoss .. => true
  | .cadenceEvent .. | .nop .. | .streamTag .. | .signatureCheckDone .. | .streamStallTimeout .. | .chainTimeout .. => true
  | .chainForwardDone .. | .chainDoneNHigh .. | .chainWaitExpired .. | .tamperNLow .. | .vbattLoss .. | .defaultTxnAutoArm .. => true
  | .txnTimeout .. | .commitLaunch .. | .commitCycle .. | .resyncComplete .. | .regionResetRelease .. | .regionClockStall .. => true
  | .icpStreamBytes .. | .icpPeatLoad .. | .icpReadback .. | .icpCommit .. | .icpRollback .. | .icpAbort .. => true
  | .icpBusyTimeout .. | .scrubFrameRead .. | .scrubRebuildComplete .. | .tapClash .. | .pllLock .. | .pllLockLate .. => true
  | .pllRefMeasured .. | .pllLockLoss .. | .netStopped .. | .netResumed .. | .bundleRepair .. | .apRequest .. => true
  | .cordTraining .. | .cordTrainingTimeout .. | .cordFlitSlot .. | .cordCreditField .. | .total .. | .replayTimeout .. => true
  | .wireFailed .. | .remap .. | .narrow .. | .retest .. | .resume .. | .spareTestDone .. => true
  | .cordOutOfService .. | .capTimeout .. | .farLaneRestripe .. | .farPartnerSilent .. | .nocFlitCheck .. | .rd .. => true
  | .wr .. | .wrp .. | .rsp .. | .msg .. | .strm .. | .routerFailed .. => true
  | .routeHoldExpired .. | .initiatorTimeout .. | .packetAgeDiscard .. | .targetLateFault .. | .tagQuarantineEnd .. | .epochDrainSum .. => true
  | .epochDrainTimeout .. | .domainClose .. | .domainDrainEnd .. | .domainReopen .. | .utilisationWindow .. | .fragmentArrival .. => true
  | .fragmentRelease .. | .mergeSilence .. | .swappingTimeout .. | .fabricSourceUnit .. | .linkRecompute .. | .frameStoreDecision .. => true
  | .frameStoreLineRead .. | .frameStoreReadReturn .. | .deTakeover .. | .laneSignalDetect .. | .trainAAdapted .. | .trainBMarkers .. => true
  | .bitLockPass .. | .billetLockFound .. | .laneStateTimeout .. | .refclkOffsetCheck .. | .laneRefLost .. | .laneRefGood .. => true
  | .idleBillet .. | .data .. | .data1 .. | .data1WaitExpired .. | .ack .. | .restripe .. => true
  | .nativeLaneDown .. | .nativeLinkDown .. | .sdiRateUpdate .. | .errorInjectGo .. | .sdiLineReceived .. | .sdiUnlock .. => true
  | .sdiLineStart .. | .assemblyTimeout .. | .legLost .. | .txPacketDeparture .. | .add .. | .sub .. => true
  | .and .. | .or .. | .xor .. | .sll .. | .srl .. | .sra .. => true
  | .slli .. | .srli .. | .srai .. | .mulh .. | .min .. | .max .. => true
  | .abs .. | .norm .. | .slt .. | .sltu .. | .sat16 .. | .bswap .. => true
  | .vadd .. | .vsub .. | .vadds .. | .vsubs .. | .vsll .. | .vsrl .. => true
  | .vsra .. | .vmin .. | .vmax .. | .vabs .. | .bexpV .. | .bexpM .. => true
  | .bexpA .. | .bxrst .. | .scalebV .. | .scalebVr .. | .scalebA .. | .scalebAr .. => true
  | .addi .. | .andi .. | .ori .. | .xori .. | .lui .. | .slti .. => true
  | .ld .. | .st .. | .lds .. | .sts .. | .movs .. | .movg .. => true
  | .b .. | .bz .. | .bnz .. | .j .. | .call .. | .jr .. => true
  | .callr .. | .reti .. | .rpt .. | .rptr .. | .rptb .. | .rptbr .. => true
  | .vmac .. | .tapm .. | .vmacr .. | .sacc .. | .pack .. | .clra .. => true
  | .accr .. | .accrh .. | .accw .. | .extu .. | .exts .. | .ins .. => true
  | .extur .. | .extsr .. | .insr .. | .clz .. | .popc .. | .brev .. => true
  | .shld .. | .putb .. | .getb .. | .xfer .. | .wait .. | .ll .. => true
  | .sc .. | .send .. | .stim .. | .halt .. | .nopInstruction .. | .transferComplete .. => true
  | .streamInterrupt .. | .preemptAccept .. | .llWaitExpired .. | .contextSaveComplete .. | .contextRestoreComplete .. | .debugHalt .. => true
  | .engineFailed .. | .streamRingDelivery .. | .packMemoryScrub .. | .kenDoorbell .. | .descriptorAccept .. | .templateRelease .. => true
  | .dispatchDecision .. | .preemptionStart .. | .patienceExpired .. | .crossDieStealRequest .. | .kennelTick .. | .watchdogExpiry .. => true
  | .completionWrite .. | .kenCrConsWrite .. | .qcmdFlush .. | .qcmdCancelPeriodic .. | .dispatchLaneTakeover .. | .spillReadReturn .. => true
  | .kennelDieReturn .. | .patrolScrub .. | .rowRepair .. | .pseudoChannelFailed .. | .pcsCopyComplete .. | .stackFailed .. => true
  | .pipelineMismatch .. | .retirementComplete .. | .regionInitComplete .. | .rekeySweepComplete .. | .metadataFailure .. | .linkKeySwitch .. => true
  | .linkKeySwitchFrame .. | .hrtCqTailWrite .. | .functionLevelReset .. | .bar2Access .. | .spdmGetVersion .. | .spdmGetCapabilities .. => true
  | .spdmNegotiateAlgorithms .. | .spdmGetDigests .. | .spdmGetCertificate .. | .spdmChallenge .. | .spdmGetMeasurements .. | .spdmKeyExchange .. => true
  | .spdmFinish .. | .spdmHeartbeat .. | .spdmKeyUpdate .. | .spdmEndSession .. | .keyDeliver .. | .keyBufferExpiry .. => true
  | .bmcMessage .. | .bmcRequestSafe .. | .bmcClockHeldTimeout .. | .hearthTakeover .. | .faultOccurrence .. | .handlingActionDone .. => true
  | .ringOverflowEscalation .. | .fabricDieFailed .. | .baseDieFailed .. | .kilnSliceStart .. | .kilnSliceEnd .. | .kilnRecall .. => true
  | .kilnOverdue .. | .ledgerAudit .. | .ledgerMismatch .. | .ledgerDrainComplete .. | .ledgerDrainTimeout .. | .fltInject .. => true
  | .railExcursion .. | .domainWake .. | .sagDetected .. | .emberRecordComplete .. | .emberResume .. | .emberWindowEnd .. => true
  | .vholdThreshold .. | .capacitanceMeasurement .. | .thermalReading .. | .thermtrip .. | .evtCntWrite .. | .eventSnapshot .. => true
  | .traceSync .. | .tracePacketOut .. | .evtTrPop .. | .fabricStimulusWrite .. | .ident .. | .leashChallenge .. => true
  | .unlockPass .. | .close .. | .leashRead .. | .leashWrite .. | .consume .. | .readBlk .. => true
  | .benchEnter .. | .benchLeave .. | .leashHalt .. | .step .. | .leashResume .. | .engRead .. => true
  | .engWrite .. | .excHalt .. | .leashFrameReset .. | .leashCkStall .. | .leashCommandTimeout .. | .leashIdleTimeout .. => true
  | .nonceExpiry .. | .idcode .. | .samplePreload .. | .extest .. | .extestPulse .. | .extestTrain .. => true
  | .clamp .. | .highz .. | .bypass .. | .railsValidAgain .. | .simplexTrainingPhaseEnd .. | .returnToDetect .. => true
  | .ethernetLaneLock .. | .undefinedEncoding .. | .unknownOpcodePacket .. | .unknownLeashCommand .. | .vholdDepleted .. | .retentionLevelCrossed .. => true
  | .spdmHeartbeatTimeout .. | .sourceEndOfData .. => true

end Sys2Proof
end

