-- ==== Sys2Proof/Safety.lean ====
section
/-! DEFINITION. What the statements speak of: accesses that reach their register, host commands that Hearth takes, and what a safe state and a safe run are. -/

namespace Sys2Proof.Machine

/-! ### Register accesses -/

/-- An access of `w` to control-space address `a` that reaches its satellite: the writer can reach registers, and the die answers (R5, R70, R224, R456). -/
def Dev.accessOpen (d : Dev) (w : Writer) (a : Nat) : Prop :=
  d.reaches w = true ∧ isControl a = true ∧ barReach w a = true ∧ d.dieOff (baseOfAddr a) = false

/-- A register write of `w` that lands: it reaches the register at `a`, no check turns it away, and `d'` is the device after it (R9, R12, R124). -/
def Dev.writeLands (d : Dev) (w : Writer) (a v : Nat) (d' : Dev) : Prop :=
  d.accessOpen w a ∧ d.vfWriteBarred w a v = false ∧ ∃ t, findReg a = some t ∧ d.writeReg w t.reg t.ix v (dieOfAddr a) = some d'

/-! ### Host commands -/

/-- A host command that Hearth carries out: its ring is served, the function may give it, and the mode takes it (R453, R461, R473). -/
def Dev.hostOpen (d : Dev) (c : HostCmd) (group code : Nat) : Prop :=
  d.ringOpen c.fn = true ∧ (d.isVf c.fn = true → vfDenies group code = false) ∧ d.mode.takes group code = true

/-- The device once Hearth has taken a command from function `fn`'s ring (R461). -/
def Dev.taken (d : Dev) (fn : Nat) : Dev := d.addWrap F.HRT_CQ_HEAD_taken (Ix.at fn)

/-- The device after a command of group `g`, code `n`, from a taken state has succeeded with `result`. -/
def Dev.succeed (d : Dev) (c : HostCmd) (g n : Nat) (result : List Nat := []) : Dev := d.respond c g n { status := 0, result := result }

/-- A TXN command on number t that is carried out: Hearth takes it, the function may name the number, no earlier event owes the number a status, and it is
in one of the states that allow the command (R123, R127). -/
def Dev.txnOpen (d : Dev) (c : HostCmd) (code t : Nat) (allowed : Nat → Bool) : Prop :=
  d.hostOpen c grpTXN code ∧ t < 16 ∧ (d.taken c.fn).mayName c.fn t code = true ∧ ((d.taken c.fn).txn t).next = none ∧
  (d.taken c.fn).tState t ≠ tIDLE ∧ allowed ((d.taken c.fn).tState t) = true

/-- A TXN command answers: its status is the transaction's last status (R127). -/
def Dev.txnAnswer (d : Dev) (c : HostCmd) (code t : Nat) (r : Reply) : Dev :=
  (d.st F.HRT_TXN_STAT_status (Ix.at t) r.status).respond c grpTXN code r

/-! ### The SPDM mailbox -/

/-- A physical function's mailbox that is served: from start-up step 2 on, except in EMBER (R77, R465). -/
def Dev.mailOpen (d : Dev) (fn : Nat) : Prop :=
  d.clk.held = false ∧ 2 ≤ d.rd F.HRT_BOOT_step {} ∧ d.rd F.HRT_FN_STAT_type (Ix.at fn) = 1 ∧ d.mode ≠ .ember

/-- Session n is finished and belongs to function fn (R466). -/
def Dev.sessionOpen (d : Dev) (fn n : Nat) : Prop := ∃ x, d.session n = some x ∧ x.fn = fn ∧ x.finished = true

/-! ### The Leash port -/

/-- A request that reaches the port with its parity and its length right (R536 to R538). -/
def Dev.portOpen (d : Dev) (fr : LeashFrame) : Prop := d.lshOpen = true ∧ fr.parityOk = true ∧ fr.lenOk = true

/-- Such a request within an unlocked session. -/
def Dev.sessionPort (d : Dev) (fr : LeashFrame) : Prop := d.portOpen fr ∧ d.rd F.LSH_STAT_rights {} ≠ 0

/-- An engine command on engine e that its rights and mode allow (R544, R547). -/
def Dev.enginePort (d : Dev) (fr : LeashFrame) (e : Nat) : Prop :=
  d.sessionPort fr ∧ d.lshEngines = true ∧ e ≤ 1023 ∧ d.dieOff (e / 256) = false

/-! ### Streams -/

/-- The controller is ready for a packet of `n` payload words: a stream is in its body, its source can be read, no error has occurred, and the packet
ends within the body (R89, R112). -/
def Dev.packetOpen (d : Dev) (n : Nat) : Prop :=
  d.streaming = true ∧ d.rd F.HRT_CFG_STAT_state {} = 2 ∧ d.unreadable (8 + 8 * n) = false ∧ d.cfg.err = none ∧ d.cfg.pos + (8 + 8 * n) ≤ d.bodyEnd

/-- A packet is in error: the error is kept, and the stream is read on (R112). -/
def Dev.packetError (d : Dev) (n code frame detail : Nat) : Dev := (d.bodyErr code d.cfg.pos frame detail).advance (8 + 8 * n)

/-! ### Packets of the network on chip -/

/-- A packet leaves the network at its target: the device is not in EMBER, the packet is for this package, and the endpoint is open (R210, R224). -/
def Dev.lands (d : Dev) (p : NocPkt) : Prop :=
  d.mode ≠ .ember ∧ p.pkg = 0 ∧ (d.unbuffer p.id).localShut (p.dst.toNat / 256) (p.dst.toNat / 8 % 32) (p.dst.toNat % 8) = false

/-- The device as a packet that has landed reaches its target: out of the router's buffer, and no longer held by the target. -/
def Dev.atTarget (d : Dev) (p : NocPkt) : Dev :=
  { d.unbuffer p.id with noc := { (d.unbuffer p.id).noc with taken := (d.unbuffer p.id).noc.taken.filter (fun q => decide (q ≠ p)) } }

/-! ### Serial lanes -/

/-- A lane in state `from_` whose bring-up goes on (R270, R272). -/
def Dev.laneIn (d : Dev) (b l from_ : Nat) : Prop :=
  d.trains b l = true ∧ d.lnState b l = from_ ∧ (d.lane b l).waiting = false ∧ (d.lane b l).stuck = false ∧ d.mode ≠ .ember ∧ d.mode ≠ .cold

/-- A billet that lane l takes for its link n in its turn: it passes its check and carries the expected sequence number (R267, R279). -/
def Dev.inTurn (d : Dev) (b l n : Nat) (x : BilletIn) : Prop :=
  d.takesBillets b l = some n ∧ x.checkOk = true ∧ x.seq.val = ((d.billetIn b l x).lane b l).rxSeq

/-- The lane after such a billet, before the billet's own effect. -/
def Dev.turned (d : Dev) (b l : Nat) (x : BilletIn) : Dev :=
  (d.billetIn b l x).setLane b l
    { (d.billetIn b l x).lane b l with rxSeq := (((d.billetIn b l x).lane b l).rxSeq + 1) % 64, nakOut := false }

/-! ### Engines -/

/-- Engine e issues its next instruction in the plain way: it runs, in a mode in which packs run, with pc inside instruction memory, no branch, repeat or
block end at hand (R331 to R335, R352). -/
def Dev.engReady (d : Dev) (e : Nat) : Prop :=
  d.engState e = 1 ∧ d.mode.engines = true ∧ (d.eng e).pc < 2 ^ 18 ∧ (d.eng e).redirect = none ∧ (d.eng e).rpt = none ∧ (d.eng e).inBlock = false

/-- The engine as the instruction at hand reads it: writes that every consumer sees have landed (R331). -/
def Dev.engView (d : Dev) (e : Nat) : EngSt := ((d.eng e).retire (d.eng e).pend.length).landTapm false

/-- The device as the instruction issues: the issue counts as a block event (R523). -/
def Dev.engIssued (d : Dev) (e : Nat) : Dev := d.count (e / 256) 6 208 (e % 256) 1

/-- The instruction has completed and left its engine as `y`: pc moves on. -/
def Dev.engDone (d : Dev) (e : Nat) (y : EngSt) : Dev := (d.engIssued e).setEng e (y.moveOn false)

/-- A branch has issued: its delay slots follow (R333). -/
def Dev.engBranch (d : Dev) (e : Nat) (y : EngSt) : Dev := (d.engIssued e).setEng e (y.moveOn true)

/-- The instruction has raised exception `code` (R345). -/
def Dev.engRaise (d : Dev) (e code : Nat) : Dev := (d.engIssued e).engExc e (d.engView e) code (d.eng e).pc

/-- Engine e issues in a delay slot of the branch `r` (R333): it runs as in `engReady`, but a branch is under way. -/
def Dev.engSlot (d : Dev) (e : Nat) (r : Redirect) : Prop :=
  d.engState e = 1 ∧ d.mode.engines = true ∧ (d.eng e).pc < 2 ^ 18 ∧ (d.eng e).redirect = some r ∧ (d.eng e).rpt = none ∧ (d.eng e).inBlock = false

/-- The instruction that must not stand here raises ILLEGAL at its own pc, before it has read anything. -/
def Dev.engForbidden (d : Dev) (e : Nat) : Dev := (d.engIssued e).engExc e (d.eng e) excILLEGAL (d.eng e).pc

/-- What an instruction of engine e leaves alone from `z` to `t`: the queue, HBM, packs, every other engine (a change of mode can clear its EXC_HALT), and
of engine e the bytes of local memory outside the `n` from `a` (as they read once a delay-line write in flight has landed) and every register that
`writes` does not name, read by every class of consumer at the next issue. Loop counts and ends move with pc and are not named here. -/
def State.engineFrame (e : Nat) (writes : Nat → Bool) (a n : Nat) (z t : State) : Prop :=
  t.pending = z.pending ∧ t.dev.mem = z.dev.mem ∧ (∀ p, t.dev.packOf p = z.dev.packOf p) ∧
  (∀ k, k ≠ e → ∃ b, t.dev.eng k = { z.dev.eng k with excHalt := b }) ∧
  (∀ j, (∀ i < n, j ≠ a + i) → Tbl.get 0#8 (t.dev.eng e).mem j = Tbl.get 0#8 ((z.dev.engView e).landTapm (decide (0 < n))).mem j) ∧
  (∀ u l, writes l = false → (l < locX 32 ∨ locX 37 < l) →
    (t.dev.eng e).rd u l = ({ z.dev.engView e with n := (z.dev.engView e).n + 1 } : EngSt).rd u l)

/-- The flags z, n, c and v with their sticky companions: what an ALU instruction can write beside its destination (R361). -/
def isFlag (l : Nat) : Bool := decide (locZ ≤ l) && decide (l ≤ locSS)

/-! ### Memory -/

/-- The canonical form of a memory: addresses rise strictly, and no entry equals what an unlisted address reads as, which is 0 (log entry 6). -/
def Memory.wf (m : Tbl Byte) : Bool := Tbl.wf 0#8 m

/-- The byte stored at device address `a` of HBM. -/
def Dev.hbmByte (d : Dev) (a : Nat) : Byte := Tbl.get 0#8 d.mem.hbm a

/-! ### Safe states and runs -/

/-- The modes in which the outputs are fenced whatever happens (R77, R80, R82). -/
def Mode.fencesOutputs : Mode → Bool
  | .cold | .load | .ember | .safe => true
  | _ => false

/-- In a mode that fences, `HRT_MODE.fenced` reads 1. -/
def Dev.fenceRule (d : Dev) : Prop := d.mode.fencesOutputs = true → d.flag F.HRT_MODE_fenced {} = true

/-- While the mode that counts is ONAIR, no Leash session holds CONTROL (R64, R544). -/
def Dev.leashRule (d : Dev) : Prop := d.onAirLike = true → d.rd F.LSH_STAT_rights {} ≠ 2

/-- A safe state. -/
def State.safe (s : State) : Prop := s.dev.fenceRule ∧ s.dev.leashRule

/-- A run of `n` steps that meets no fault and no refusal, and only safe states. -/
def State.safeFor : Nat → State → Prop
  | 0, s => s.safe
  | n + 1, s => s.safe ∧ ∃ t, step s = .next t ∧ State.safeFor n t

end Sys2Proof.Machine
end

