-- ==== Sys2Proof/Certificates/Slice0/Obligations.lean ====
section
/-! DEFINITION. The statements about this model that are to be proved, one `def Obligations.<Name> : Prop` each. A statement of a command says what `exec` answers: a
next state, which is the given change of the device followed by the rules that hold at all times (`State.after`). -/

open Sys2Proof Sys2Proof.Machine

/-- The rows that are writes of a register (R5 to R12, R49, R124, R290, R385, R405, R447, R461), and `RC_FIELD_READ` (R6). -/
def Obligations.RegisterWriteCommandsComplete : Prop :=
  (∀ w (a : BitVec 48) (v : Word64) posted s d', s.dev.writeLands w a.toNat v.toNat d' →
    exec (.directRegisterWrite w a true v posted) s = .next (s.after fun _ => d'.answerAccess posted .done)) ∧
  (∀ w (b : Fin 4) (v : Word64) s d', s.dev.writeLands w (F.HT_HOST_ADJ_phase.addr {} + 0x10000000 * b) v.toNat d' →
    exec (.htHostAdjWrite w b v) s = .next (s.after fun _ => d')) ∧
  (∀ w (b : Fin 4) (l : Fin 32) (v : Word64) s d', s.dev.writeLands w (F.LN_ERRINJ_go.addr (Ix.on b l)) v.toNat d' →
    exec (.errorInjectGo w b l v) s = .next (s.after fun _ => d')) ∧
  (∀ w (b : Fin 4) (g : Fin 2) (v : Word64) s d', s.dev.writeLands w (F.CRY_LINK_switch.addr (Ix.on b g)) v.toNat d' →
    exec (.linkKeySwitch w b g v) s = .next (s.after fun _ => d')) ∧
  (∀ w (b : Fin 4) (r : Fin 256) (v : Word64) s d', s.dev.writeLands w (F.KEN_CR_CONS_cons.addr (Ix.on b r)) v.toNat d' →
    exec (.kenCrConsWrite w b r v) s = .next (s.after fun _ => d')) ∧
  (∀ w (b : Fin 4) (fn : Fin 64) (v : Word64) posted s d', s.dev.writeLands w (F.HRT_CQ_TAIL_tail.addr (Ix.at fn) + 0x10000000 * b) v.toNat d' →
    exec (.hrtCqTailWrite w b fn true v posted) s = .next (s.after fun _ => d'.answerAccess posted .done)) ∧
  (∀ w (q : Fin 8192) (v : Word64) s, s.dev.reaches w = true → s.dev.dieOff (qIx q.val).die = false →
    (∀ n, w = .fn n → s.dev.queueInPart n (qIx q.val).die (qIx q.val).i = true) →
    exec (.kenDoorbell w q v) s = .next (s.after fun d => (d.writeAt w (F.KEN_QDB_total.addr (qIx q.val)) v.toNat true).2)) ∧
  (∀ w (a : BitVec 48) s t, s.dev.accessOpen w a.toNat → findReg a.toNat = some t → s.dev.vfBarred w t.reg t.ix = false →
    exec (.rcFieldRead w a true) s = .next (s.after fun d => (d.clearRC t.reg t.ix).emit (.readData (d.regRead t.reg t.ix) false)))

/-- Rejected writes (R9, R12). A rejected `HRT_CQ_TAIL` write also counts at its function, and is left to the clause's hypothesis. -/
def Obligations.RejectedRegisterWriteChangesNothingElse : Prop :=
  (∀ w (a : BitVec 48) (v : Word64) posted s t, s.dev.accessOpen w a.toNat → s.dev.vfWriteBarred w a.toNat v.toNat = false → findReg a.toNat = some t →
    exec (.directRegisterWrite w a false v posted) s =
      .next (s.after fun d => (d.rejectWrite a.toNat (instAt (blockOfAddr a.toNat) t.ix)).answerAccess posted .reject)) ∧
  (∀ w (a : BitVec 48) (v : Word64) posted s t, s.dev.accessOpen w a.toNat → s.dev.vfWriteBarred w a.toNat v.toNat = false → findReg a.toNat = some t →
    t.reg ≠ .HRT_CQ_TAIL → s.dev.writeReg w t.reg t.ix v.toNat (dieOfAddr a.toNat) = none →
    exec (.directRegisterWrite w a true v posted) s =
      .next (s.after fun d => (d.rejectWrite a.toNat (instAt (blockOfAddr a.toNat) t.ix)).answerAccess posted .reject)) ∧
  (∀ w (a : BitVec 48) (v : Word64) posted s, s.dev.reaches w = false → exec (.directRegisterWrite w a true v posted) s = .next (s.after id))

/-- Start-up and resets of dies (R41, R61, R66 to R75, R82, R111, R420, R511). -/
def Obligations.StartupCommandsComplete : Prop :=
  (∀ sc kept s, s.dev.clk.held = true → s.dev.pwr.trip = false →
    exec (.porNRelease true sc kept) s = .next (s.after fun d => (({ d with pwr := { d.pwr with trip := false } }).startup sc kept).fenceLevel)) ∧
  (∀ sc kept s, s.dev.clk.held = true → s.dev.pwr.trip = false →
    exec (.porNRelease false sc kept) s = .next (s.after fun d =>
      { d with pwr := { d.pwr with trip := false }, clk := { d.clk with held := false, stopped := true }, root := 0 })) ∧
  (∀ sc kept s, s.dev.clk.stopped = true → exec (.railsValidAgain sc kept) s = .next (s.after fun d => (d.startup sc kept).fenceLevel)) ∧
  (∀ s, exec .porNAssert s = .next (s.after fun d => d.deviceReset (some F.HRT_RST_CAUSE_por))) ∧
  (∀ s, exec (.hbmTrainingComplete []) s = .next (s.after fun d =>
    ((List.range 8).filter (fun k => decide (d.rd F.HBM_STATUS_state (ctlIx k) = 1))).foldl (fun d k => d.st F.HBM_STATUS_state (ctlIx k) 2) d)) ∧
  (∀ s, s.dev.mode ≠ .cold → s.dev.mode ≠ .ember → s.dev.rd F.HRT_BOOT_step {} = 7 →
    exec (.laneBringupComplete []) s = .next (s.after fun d => d.st F.HRT_BOOT_step {} 8)) ∧
  (∀ s, s.dev.step9Ready = true → exec .startupStep9 s = .next (s.after Dev.step9)) ∧
  (∀ s, s.dev.step9Ready = false → exec .startupStep9 s = .next (s.after id)) ∧
  (∀ s, s.dev.flag F.HRT_CFG_CHAIN_released {} = true → (s.dev.st F.HRT_CFG_CHAIN_done_pin {} 1).step9Ready = true →
    exec .chainDoneNHigh s = .next (s.after fun d => (d.st F.HRT_CFG_CHAIN_done_pin {} 1).step9)) ∧
  (∀ s, s.dev.inChain = true → s.dev.mode ≠ .cold → s.dev.mode ≠ .ember → s.dev.fab.step9 = false → s.dev.flag F.HRT_CFG_CHAIN_released {} = true →
    s.dev.flag F.HRT_CFG_CHAIN_done_pin {} = false → s.dev.flag F.HRT_CFG_CHAIN_wait_expired {} = false →
    exec .chainWaitExpired s = .next (s.after fun d =>
      let d := (d.st F.HRT_CFG_CHAIN_wait_expired {} 1).occur { die := d.hearthDie, block := 15, inst := 0, cls := 1, sev := sevDegrade }
      if d.step9Ready then d.step9 else d)) ∧
  (∀ (b : Fin 4) s, s.dev.clk.held = false → s.dev.clk.clockLost.contains b.val = false → s.dev.clk.failed.contains b.val = false →
    exec (.baseDieClockLost b) s = .next (s.after fun d =>
      ((({ d with clk := { d.clk with clockLost := d.clk.clockLost ++ [b.val] } } : Dev).st F.HT_ALIGN_invalid (Ix.onDie b) 1).baseReset b true).occur
        { die := b, block := 9, inst := 0, cls := 2, sev := if d.dieProtected b then sevDegrade else sevStream, action := 8, detail := b })) ∧
  (∀ (b : Fin 4) s, s.dev.clk.clockLost.contains b.val = true → s.dev.clk.failed.contains b.val = false →
    exec (.baseDieClockGood b) s = .next (s.after fun d => d.baseReturn b)) ∧
  (∀ (b : Fin 4) s, s.dev.clk.inReset.contains b.val = true → s.dev.clk.clockLost.contains b.val = false → s.dev.clk.failed.contains b.val = false →
    exec (.baseDieResetRelease b) s = .next (s.after fun d => d.baseReturn b)) ∧
  (∀ (f : Fin 12) s, s.dev.clk.inReset.contains (4 + f.val) = true → s.dev.clk.inReset.contains (f.val / 3) = false →
    s.dev.clk.failed.contains (4 + f.val) = false → exec (.fabricDieResetRelease f) s = .next (s.after fun d => d.fabricReturn f))

/-- Pins, heartbeat and mode trigger (R61 to R65, R81, R82, R100, R579). -/
def Obligations.SafePinsAndTamperComplete : Prop :=
  (∀ s, s.dev.flag F.HRT_MODE_fence_pin {} = false →
    exec .fenceNAssert s = .next (s.after fun d => (d.st F.HRT_MODE_fence_pin {} 1).safeTrigger 2 false)) ∧
  (∀ s, exec .fenceNDeassert s = .next (s.after fun d => d.st F.HRT_MODE_fence_pin {} 0)) ∧
  (∀ s, exec .heartbeatLossSafe s = .next (s.after fun d => d.safeTrigger 4 false)) ∧
  (∀ s, exec .tamperNLow s = .next (s.after fun d =>
    (({ d with bbk := { key := none, tamperLow := true } } : Dev).st F.HRT_CFG_SEC_bbk_valid {} 0).st F.HRT_CFG_SEC_tamper_seen {} 1)) ∧
  (∀ s, exec .vbattLoss s = .next (s.after fun d => ({ d with bbk := { d.bbk with key := none } } : Dev).st F.HRT_CFG_SEC_bbk_valid {} 0)) ∧
  (∀ s w, s.dev.pl.modeWait = some w → s.dev.mode ≠ .ember → modeAllowed s.dev.mode w.mode = true → (s.dev.mode = .safe → s.dev.safeBars = 0) →
    exec .modeTrigger s = .next (s.after fun d =>
      (({ d with pl := { d.pl with modeWait := none } }).hostMode w.mode).answerMode w { status := 0, result := [timeWord w.time] })) ∧
  (∀ s w, s.dev.pl.modeWait = some w → s.dev.mode = .ember →
    exec .modeTrigger s = .next (s.after fun d => ({ d with pl := { d.pl with modeWait := none } }).answerMode w { status := 4 })) ∧
  (∀ s w, s.dev.pl.modeWait = some w → s.dev.mode ≠ .ember → modeAllowed s.dev.mode w.mode = false →
    exec .modeTrigger s = .next (s.after fun d =>
      ({ d with pl := { d.pl with modeWait := none } }).answerMode w { status := 1, detail := d.mode.code })) ∧
  (∀ s, s.dev.pl.modeWait = none → exec .modeTrigger s = .next (s.after id))

/-- House time (R40, R44, R46 to R48, R52, R54 to R57). -/
def Obligations.HouseTimeCommandsComplete : Prop :=
  (∀ s, s.dev.clk.refLost = false → exec .refclkRootLost s = .next (s.after fun d =>
    (({ d with clk := { d.clk with refLost := true, refOk := false } } : Dev).st F.HT_STATUS_root_holdover {} 1).occur
      { die := 0, block := 9, inst := 0, cls := 2, sev := sevDegrade })) ∧
  (∀ s, exec .refclkRootReturn s = .next (s.after fun d =>
    ({ d with clk := { d.clk with refLost := false, refOk := true } } : Dev).st F.HT_STATUS_root_holdover {} 0)) ∧
  (∀ s, s.dev.clk.refLost = true → exec .rootHoldoverTimeout s = .next (s.after fun d => d.safeTrigger 3 false)) ∧
  (∀ die dev s, exec (.htCopyCompare [(die, dev)]) s = .next (s.after fun d => d.compareCopy die dev)) ∧
  (∀ m s, s.dev.htx.servoOn = true → (m.port : Nat) = s.dev.rd F.HT_CFG_ptp_port {} → m.version = 2 → m.domain = s.dev.rd F.HT_CFG_ptp_domain {} →
    m.lenOk = true → s.dev.htx.master = some m.srcPort → m.kind = .sync false →
    exec (.ptpMessage m) s = .next (s.after fun d => (d.ptpWait .delayReq m.seqId m.offset).sourceUpdate 1 m.offset)) ∧
  (∀ m s, s.dev.htx.servoOn = true → (m.port : Nat) = s.dev.rd F.HT_CFG_ptp_port {} →
    (m.version ≠ 2 ∨ m.domain ≠ s.dev.rd F.HT_CFG_ptp_domain {} ∨ m.lenOk = false) →
    exec (.ptpMessage m) s = .next (s.after fun d => d.bump F.HT_ERR_dropped {})) ∧
  (∀ m s, s.dev.htx.servoOn = false → exec (.ptpMessage m) s = .next (s.after id)) ∧
  (∀ id s, s.dev.ptpHas .followUp id = true →
    exec (.ptpPartnerTimeout id) s = .next (s.after fun d => (d.ptpTake .followUp id).bump F.HT_ERR_dropped {})) ∧
  (∀ s, s.dev.flag F.HT_STATUS_locked {} = false → s.dev.htx.tenMOk = false → exec .timePpsEdge s = .next (s.after fun d =>
    ({ d with htx := { d.htx with ppsRejRun := 0, ppsSecSet := false, lastSec := d.ppsSecond } } : Dev).sourceUpdate 3
      (((d.ht : Int) - (d.ppsSecond * 10 ^ 9 * nsUnits : Nat)) / 2 ^ 24))) ∧
  (∀ s, exec .time10mReject s = .next (s.after fun d => ({ d with htx := { d.htx with tenMOk := false } }).loseKinds [2])) ∧
  (∀ p s, exec (.sourceLoss p) s = .next (s.after fun d => d.sourceLost p)) ∧
  (∀ die gen ev s, s.dev.cgIssues (Ix.on die gen) ev = true → s.dev.flag F.HT_ALIGN_invalid (Ix.onDie die) = false → s.dev.mode ≠ .cold →
    s.dev.htx.waiting.contains (die.val * 64 + gen.val) = false →
    exec (.cadenceEvent die gen ev) s = .next (s.after fun d =>
      let d := { d with htx := { d.htx with waiting := d.htx.waiting.filter (· != die.val * 64 + gen.val) } }
      let d := (d.st F.HT_CG_STAT_frame (Ix.on die gen) (d.cgFrame (Ix.on die gen))).st F.HT_CG_STAT_line (Ix.on die gen) (d.cgLine (Ix.on die gen) ev)
      (d.emit (.cadence die gen ev)).count die 9 224 gen 1))

/-- Header and packets (R87 to R99, R112). -/
def Obligations.StreamPacketsComplete : Prop :=
  (∀ x s, x.length = 256 → s.dev.streaming = true → s.dev.rd F.HRT_CFG_STAT_state {} = 1 → s.dev.unreadable 256 = false →
    (∀ t, s.dev.cfg.path ≠ .txn t) → (s.dev.st F.HRT_CFG_STAT_bytes_in {} 256).headerError x (s.dev.st F.HRT_CFG_STAT_bytes_in {} 256).kindAllowed = none →
    exec (.streamHeader x) s = .next (s.after fun d =>
      let d := d.st F.HRT_CFG_STAT_bytes_in {} 256
      let d := ({ d with cfg := { d.cfg with hdr := Hdr.parse x, pos := 256 } } : Dev).st F.HRT_CFG_STAT_state {} 2
      (d.st F.HRT_CFG_CHAIN_remaining {} (Hdr.parse x).chainRemaining).setPlace { die := 0, rgn := 64, col := 0, bram := 0, vacate := false })) ∧
  (∀ (n : BitVec 24) s, s.dev.packetOpen n.toNat → exec (.nop 0 n) s = .next (s.after fun d => d.advance (8 + 8 * n.toNat))) ∧
  (∀ (o : BitVec 32) (n : BitVec 24) s, s.dev.packetOpen n.toNat → o ≠ 0 →
    exec (.nop o n) s = .next (s.after fun d => d.packetError n.toNat 0xC 0 0)) ∧
  (∀ op (o : BitVec 32) (n : BitVec 24) s, s.dev.packetOpen n.toNat →
    exec (.unknownOpcodePacket op o n) s = .next (s.after fun d => d.packetError n.toNat 0xC 0 0)) ∧
  (∀ (o : BitVec 32) (v : Word64) s d', s.dev.packetOpen 1 → o.toNat % 8 = 0 → o.toNat ≤ 0x60 →
    s.dev.imageWrite (cfgReg (o.toNat / 8)) (cfgIx (o.toNat / 8)) v.toNat o.toNat = .ok d' →
    exec (.wcfg o [v]) s = .next (s.after fun _ => d'.advance 16)) ∧
  (∀ (o : BitVec 32) (p : List Word64) s, s.dev.packetOpen p.length → o.toNat % 8 = 0 → o.toNat ≤ 0x60 → p.length ≠ 1 →
    exec (.wcfg o p) s = .next (s.after fun d => d.packetError p.length 0xD 0 0)) ∧
  (∀ (o : BitVec 32) (p : List Word64) s d', s.dev.packetOpen p.length → o.toNat < 2 ^ 30 → o.toNat % 2 ^ 28 % 8 = 0 → p ≠ [] →
    Dev.imageWrites .base (o.toNat / 2 ^ 28) (fun _ _ _ _ => true) (o.toNat % 2 ^ 28) p s.dev = .ok d' →
    exec (.wblk o p) s = .next (s.after fun _ => d'.advance (8 + 8 * p.length))) ∧
  (∀ (o : BitVec 32) (p : List Word64) s d', s.dev.packetOpen p.length → s.dev.cfg.hdr.kind ≠ 2 → o.toNat / 2 ^ 24 < 12 →
    o.toNat % 2 ^ 24 % 8 = 0 → p ≠ [] → Dev.imageWrites .fabric (o.toNat / 2 ^ 24) ownWrite (o.toNat % 2 ^ 24) p s.dev = .ok d' →
    exec (.wfab o p) s = .next (s.after fun _ => d'.advance (8 + 8 * p.length))) ∧
  (∀ (o : BitVec 32) (p : List Word64) s d', s.dev.packetOpen p.length → p ≠ [] → p.length % 32 = 0 →
    s.dev.frames o.toNat (p.length / 32) (cutFrames (p.length / 32) p) = .ok d' →
    exec (.frame o p) s = .next (s.after fun _ => d'.advance (8 + 8 * p.length))) ∧
  (∀ (o : BitVec 32) (w : Word64) (p : List Word64) s d', s.dev.packetOpen 33 → o.toNat < 2 ^ 24 → p.length = 32 → w.toNat ≠ 0 → w.toNat < 2 ^ 24 →
    s.dev.frames o.toNat w.toNat (List.replicate w.toNat (p.map (fun (v : Word64) => v.toNat))) = .ok d' →
    exec (.frameRpt o (w :: p)) s = .next (s.after fun _ => d'.advance 272)) ∧
  (∀ (o : BitVec 32) (p : List Word64) s, s.dev.packetOpen p.length → p.length = 640 → o.toNat < 2 ^ 24 → o.toNat % 256 = 0 →
    bits o.toNat 20 4 ≤ 11 → bits o.toNat 16 4 ≤ 11 → s.dev.cfg.hdr.kind = 0 →
    exec (.meminit o p) s = .next (s.after fun d =>
      let d := { d with cfg := { d.cfg with img := { d.cfg.img with mems := d.cfg.img.mems.put o.toNat (p.map (fun (v : Word64) => v.toNat)) } } }
      (d.on d.streamTxn.isNone (fun d => { d with pl := { d.pl with bram := d.pl.bram.set [] o.toNat (p.map (fun (v : Word64) => v.toNat)) } })).advance 5128)) ∧
  (∀ (o : BitVec 32) (p : List Word64) s, s.dev.packetOpen p.length → p.length ≠ 640 → o.toNat < 2 ^ 24 → o.toNat % 256 = 0 →
    bits o.toNat 20 4 ≤ 11 → bits o.toNat 16 4 ≤ 11 →
    exec (.meminit o p) s = .next (s.after fun d => d.packetError p.length 0xD 0 0)) ∧
  (∀ (o : BitVec 32) s, s.dev.packetOpen 0 → o.toNat = s.dev.cfg.frames → s.dev.bodyEnd ≤ s.dev.cfg.pos + 8 →
    ({ s.dev with cfg := { s.dev.cfg with ended := true } } : Dev).contention = none → (∃ t, s.dev.streamTxn = some t) →
    exec (.endPacket o []) s = .next (s.after fun d => ({ d with cfg := { d.cfg with ended := true } } : Dev).advance 8)) ∧
  (∀ (o : BitVec 32) (p : List Word64) s, s.dev.packetOpen p.length → (p ≠ [] ∨ o.toNat ≠ s.dev.cfg.frames) →
    exec (.endPacket o p) s = .next (s.after fun d => d.packetError p.length 0x13 0 0))

/-- Ends of a stream (R85, R102, R108 to R113). -/
def Obligations.StreamEndsComplete : Prop :=
  (∀ (digest : BitVec 384) s, s.dev.streaming = true → s.dev.rd F.HRT_CFG_STAT_state {} = 3 →
    s.dev.unreadable (if s.dev.cfg.hdr.signed then 112 else 16) = false → s.dev.cfg.err = none →
    exec (.streamTag true 0 digest) s = .next (s.after fun d =>
      let h := d.cfg.hdr
      let d := ({ d with cfg := { d.cfg with hdr := { h with digest := digest.toNat } } } : Dev).st F.HRT_CFG_STAT_bytes_in {} h.total
      if h.signed then d.st F.HRT_CFG_STAT_state {} 4 else d.accept)) ∧
  (∀ (digest : BitVec 384) s, s.dev.streaming = true → s.dev.rd F.HRT_CFG_STAT_state {} = 3 →
    s.dev.unreadable (if s.dev.cfg.hdr.signed then 112 else 16) = false →
    exec (.streamTag false 0 digest) s = .next (s.after fun d =>
      (({ d with cfg := { d.cfg with hdr := { d.cfg.hdr with digest := digest.toNat } } } : Dev).st F.HRT_CFG_STAT_bytes_in {} d.cfg.hdr.total).stopStream
        0x16 d.bodyEnd 0 0)) ∧
  (∀ s, s.dev.streaming = true → s.dev.rd F.HRT_CFG_STAT_state {} = 4 → exec (.signatureCheckDone true) s = .next (s.after Dev.accept)) ∧
  (∀ s, s.dev.streaming = true → s.dev.rd F.HRT_CFG_STAT_state {} = 4 →
    exec (.signatureCheckDone false) s = .next (s.after fun d => d.stopStream 0x17 (d.bodyEnd + 16) 0 0)) ∧
  (∀ s, s.dev.receiving = true → s.dev.rd F.HRT_CFG_STAT_source {} = 2 →
    exec .streamStallTimeout s = .next (s.after fun d => d.stopStream eEARLY_END d.cfg.pos 0 0)) ∧
  (∀ s, s.dev.receiving = true → s.dev.rd F.HRT_CFG_STAT_source {} = 5 →
    exec .sourceEndOfData s = .next (s.after fun d => d.stopStream eEARLY_END d.cfg.pos 0 0)) ∧
  (∀ s, s.dev.receiving = true → s.dev.rd F.HRT_CFG_STAT_source {} = 4 → s.dev.rd F.HRT_CFG_STAT_bytes_in {} = 0 →
    exec .chainTimeout s = .next (s.after fun d => d.stopStream 0x19 0 0 0)) ∧
  (∀ n s, s.dev.rd F.HRT_CFG_STAT_state {} = 5 → exec (.chainForwardDone true n) s = .next (s.after fun d =>
    let d := (d.st F.HRT_CFG_STAT_state {} 6).st F.HRT_CFG_STAT_busy {} 0
    ((d.st F.HRT_CFG_CHAIN_bytes_out {} (n % 2 ^ 40)).emit (.chainOut n)).st F.HRT_CFG_CHAIN_forwarded {} 1)) ∧
  (∀ n s, s.dev.rd F.HRT_CFG_STAT_state {} = 5 → exec (.chainForwardDone false n) s = .next (s.after fun d =>
    let d := (d.st F.HRT_CFG_STAT_state {} 6).st F.HRT_CFG_STAT_busy {} 0
    let d := (d.st F.HRT_CFG_CHAIN_bytes_out {} (n % 2 ^ 40)).emit (.chainOut n)
    (d.st F.HRT_CFG_CHAIN_link_error {} 1).occur { die := d.hearthDie, block := 15, inst := 0, cls := 1, sev := sevDegrade, detail := 0x1A }))

/-- TXN commands (R123 to R129, R577). -/
def Obligations.TransactionCommandsComplete : Prop :=
  (∀ c (ms : BitVec 64) s t d', s.dev.hostOpen c grpTXN 1 → ms ≠ 0 → ms.toNat ≤ 600000 → (s.dev.taken c.fn).openTxn c.fn false ms.toNat = some (t, d') →
    exec (.txnBegin c ms) s = .next (s.after fun _ => d'.succeed c grpTXN 1 [t])) ∧
  (∀ c s t d', s.dev.hostOpen c grpTXN 1 → (s.dev.taken c.fn).openTxn c.fn false 10000 = some (t, d') →
    exec (.txnBegin c 0) s = .next (s.after fun _ => d'.succeed c grpTXN 1 [t])) ∧
  (∀ c (ms : BitVec 64) s, s.dev.hostOpen c grpTXN 1 → ms ≠ 0 → ms.toNat ≤ 600000 → (s.dev.taken c.fn).openTxn c.fn false ms.toNat = none →
    exec (.txnBegin c ms) s = .next (s.after fun d => (d.taken c.fn).respond c grpTXN 1 { status := 2 })) ∧
  (∀ c (t : BitVec 8) (die : BitVec 8) (off : BitVec 32) (v : Word64) s d', s.dev.txnOpen c 2 t.toNat openOrReady → die.toNat < 4 → off.toNat % 8 = 0 →
    (s.dev.taken c.fn).txnStage t.toNat c.fn (findIn .base die.toNat off.toNat allRegs) v.toNat = .ok d' →
    exec (.txnWrite c t false die off v) s = .next (s.after fun _ => d'.txnAnswer c 2 t.toNat { status := 0 })) ∧
  (∀ c (t : BitVec 8) fab (die : BitVec 8) (off : BitVec 32) (v : Word64) s, s.dev.txnOpen c 2 t.toNat openOrReady → 12 ≤ die.toNat →
    exec (.txnWrite c t fab die off v) s = .next (s.after fun d => (d.taken c.fn).txnAnswer c 2 t.toNat { status := 0x12 })) ∧
  (∀ c (t : BitVec 8) (addr : Word64) (n : BitVec 32) l s d', s.dev.txnOpen c 3 t.toNat openOrReady → n ≠ 0 → n.toNat ≤ 65536 →
    Dev.txnStageList t.toNat c.fn 0 l (s.dev.taken c.fn) = .ok d' →
    exec (.txnWriteList c t addr n (some l)) s = .next (s.after fun _ => d'.txnAnswer c 3 t.toNat { status := 0 })) ∧
  (∀ c (t : BitVec 8) (off : BitVec 32) s, s.dev.txnOpen c 4 t.toNat openOrReady → off.toNat < areaSize → (s.dev.taken c.fn).isVf c.fn = false →
    (s.dev.taken c.fn).rd F.HRT_TXN_STAT_streams (Ix.at t.toNat) < 16 → (s.dev.taken c.fn).flag F.HRT_CFG_STAT_busy {} = false →
    exec (.txnStream c t (.area off) none) s = .next (s.after fun d => (d.taken c.fn).loadTxn t.toNat 6 (some c) c.fn none none)) ∧
  (∀ c (t : BitVec 8) (addr : Word64) s x, s.dev.txnOpen c 5 t.toNat (fun s => decide (1 ≤ s) && decide (s ≤ tLAUNCHED)) → findReg addr.toNat = some x →
    (s.dev.taken c.fn).vfBarred (.fn c.fn) x.reg x.ix = false → x.reg ≠ .HRT_CFG_RD →
    exec (.txnRead c t addr) s = .next (s.after fun d =>
      (d.taken c.fn).txnAnswer c 5 t.toNat { status := 0, result := [(d.taken c.fn).shadowWord t.toNat x.reg x.ix] })) ∧
  (∀ c (t : BitVec 8) trig s detail d', s.dev.txnOpen c 6 t.toNat openOrReady → (s.dev.taken c.fn).arm t.toNat trig = (0, detail, d') →
    exec (.txnCommit c t trig) s = .next (s.after fun _ => d'.txnAnswer c 6 t.toNat { status := 0, result := [timeWord (d'.trigTime t.toNat)] })) ∧
  (∀ c (t : BitVec 8) trig s e detail d', s.dev.txnOpen c 6 t.toNat openOrReady → (s.dev.taken c.fn).arm t.toNat trig = (e, detail, d') → e ≠ 0 →
    exec (.txnCommit c t trig) s = .next (s.after fun _ => d'.txnAnswer c 6 t.toNat { status := e, detail := detail })) ∧
  (∀ c (t : BitVec 8) s, s.dev.txnOpen c 7 t.toNat (fun s => s = tARMED) → exec (.txnCancel c t) s = .next (s.after fun d =>
    let d := d.taken c.fn
    (((d.unreserve t.toNat).setTxn t.toNat { d.txn t.toNat with trig := none }).setTState t.toNat tREADY).txnAnswer c 7 t.toNat { status := 0 })) ∧
  (∀ c (t : BitVec 8) s, s.dev.txnOpen c 8 t.toNat (fun s => decide (1 ≤ s) && decide (s ≤ tARMED)) →
    exec (.txnRollback c t) s = .next (s.after fun d => ((d.taken c.fn).rollTxn t.toNat 0).txnAnswer c 8 t.toNat { status := 0 })) ∧
  (∀ c (t : BitVec 8) s, s.dev.txnOpen c 9 t.toNat (fun s => s ≠ tIDLE) →
    exec (.txnStatus c t) s = .next (s.after fun d => (d.taken c.fn).succeed c grpTXN 9 ((d.taken c.fn).txnWords t.toNat)))

/-- Transaction events (R116 to R137). -/
def Obligations.TransactionEventsComplete : Prop :=
  (∀ (t : Fin 16) s, (s.dev.txn t.val).dflt = true → openOrReady (s.dev.tState t.val) = true → s.dev.mode = .rehearse →
    exec (.defaultTxnAutoArm t) s = .next (s.after fun d =>
      let ns := (d.ht + leadTime + (nsUnits - 1)) / nsUnits
      let x := d.arm t.val (.instant (ns / 10 ^ 9) (ns % 10 ^ 9))
      x.2.2.st F.HRT_TXN_STAT_status (Ix.at t.val) x.1)) ∧
  (∀ (t : Fin 16) s, openOrReady (s.dev.tState t.val) = true → (s.dev.txn t.val).dflt = false → (s.dev.txn t.val).timeout ≠ 0 →
    exec (.txnTimeout t) s = .next (s.after fun d =>
      (d.rollTxn t.val 0x0E).setTxn t.val { (d.rollTxn t.val 0x0E).txn t.val with next := some 0x0E })) ∧
  (∀ (t : Fin 16) s, s.dev.tState t.val = tARMED → s.dev.mode ≠ .ember → s.dev.unquiet (s.dev.txn t.val).staged = false →
    exec (.commitLaunch t) s = .next (s.after fun d => d.setTState t.val tLAUNCHED)) ∧
  (∀ (t : Fin 16) s, s.dev.tState t.val = tARMED → s.dev.mode = .ember →
    exec (.commitLaunch t) s = .next (s.after fun d => d.cancelLaunch t.val 7)) ∧
  (∀ (t : Fin 16) s, s.dev.tState t.val = tLAUNCHED → exec (.commitCycle t) s = .next (s.after fun d =>
    let x := d.txn t.val
    let homes := (x.places.filterMap d.vacated).flatMap (fun h => d.regionFrames h.1 h.2)
    let d := (d.dropDflt t.val).commit (some t.val) x.staged x.places
    let d := match d.icpOf t.val with | some f => d.st F.FAB_ICP_STAT_state (Ix.onDie f) 5 | none => d
    (d.setTState t.val tCOMMITTED).setTxn t.val
      { x with staged := { Staged.empty with frames := homes.foldl addNew x.staged.frames }, places := [], trig := none })) ∧
  (∀ (t : Fin 16) s, tCOMMITTED ≤ s.dev.tState t.val → exec (.resyncComplete (some t)) s = .next (s.after fun d =>
    let l := (d.txn t.val).staged.frames
    let d := (d.copyBack (l.filter (fun a => d.pl.stale.contains a || d.pl.resync.contains a))).freeNumber t.val
    { d with pl := { d.pl with icpTxn := d.pl.icpTxn.filter (fun e => decide (e.2 ≠ some t.val)) } })) ∧
  (∀ (f : Fin 12) (n : Fin 64) s, s.dev.fab.regionReset.contains (f.val * 64 + n.val) = true →
    exec (.regionResetRelease f (some n)) s = .next (s.after fun d =>
      (({ d with fab := { d.fab with regionReset := remove d.fab.regionReset (f.val * 64 + n.val) } } : Dev).st F.FAB_RGN_STAT_clk_stalled (Ix.on f n) 0).swapReleased
        f n)) ∧
  (∀ (f : Fin 12) (n : Fin 64) s, s.dev.fab.regionReset.contains (f.val * 64 + n.val) = true →
    s.dev.flag F.FAB_RGN_STAT_clk_stalled (Ix.on f n) = false →
    exec (.regionClockStall f (some n)) s = .next (s.after fun d =>
      (d.st F.FAB_RGN_STAT_clk_stalled (Ix.on f n) 1).occur { die := 4 + f.val, block := 0, inst := n.val, cls := 2, sev := sevDegrade }))

/-- Internal ports and scrubbing (R140 to R147). -/
def Obligations.InternalPortAndScrubComplete : Prop :=
  (∀ (f : Fin 12) s t d', s.dev.icpOn f = true → s.dev.icpTxn f = some (t, d') → openOrReady (d'.tState t) = true →
    exec (.icpStreamBytes f) s = .next (s.after fun _ => d'.icpStart f t 5 1)) ∧
  (∀ (f : Fin 12) (p : Word64) s t d', s.dev.icpOn f = true → s.dev.icpTxn f = some (t, d') → openOrReady (d'.tState t) = true →
    d'.flag F.FAB_ICP_CTL_peat_ok (Ix.onDie f) = true → p.toNat / 2 ^ 32 ≠ 0 → p.toNat % 2 ^ 32 + p.toNat / 2 ^ 32 ≤ areaSize →
    exec (.icpPeatLoad f p) s = .next (s.after fun _ => d'.icpStart f t 6 3)) ∧
  (∀ (f : Fin 12) (p : Word64) s, s.dev.icpOn f = true → s.dev.flag F.FAB_ICP_CTL_readback_ok (Ix.onDie f) = false →
    exec (.icpReadback f p) s = .next (s.after fun d => d.icpEnd f 3)) ∧
  (∀ (f : Fin 12) (p : Word64) s, s.dev.icpOn f = true → s.dev.flag F.FAB_ICP_CTL_readback_ok (Ix.onDie f) = true →
    p.toNat / 2 ^ 24 % 2 ^ 24 ≠ 0 → bits (p.toNat % 2 ^ 24) 20 4 = f.val → frameExists (p.toNat % 2 ^ 24) = true →
    (frameRun (p.toNat / 2 ^ 24 % 2 ^ 24) (bits (p.toNat % 2 ^ 24) 16 4) (bits (p.toNat % 2 ^ 24) 6 10) (bits (p.toNat % 2 ^ 24) 0 6)).any
      (fun x => decide (11 < x.1)) = false →
    exec (.icpReadback f p) s = .next (s.after fun d =>
      (Dev.readFrames f (frameRun (p.toNat / 2 ^ 24 % 2 ^ 24) (bits (p.toNat % 2 ^ 24) 16 4) (bits (p.toNat % 2 ^ 24) 6 10) (bits (p.toNat % 2 ^ 24) 0 6))
        (d.st F.FAB_ICP_STAT_state (Ix.onDie f) 2)).icpEnd f 0)) ∧
  (∀ (f : Fin 12) (p : Word64) s t d' detail d'', s.dev.icpOn f = true → s.dev.icpTxn f = some (t, d') → openOrReady (d'.tState t) = true →
    d'.arm t (.cadence (p.toNat % 4) (p.toNat / 4 % 64) (bits p.toNat 8 3)) = (0, detail, d'') →
    exec (.icpCommit f p) s = .next (s.after fun _ =>
      ((d''.st F.HRT_TXN_STAT_status (Ix.at t) 0).icpEnd f 0).st F.FAB_ICP_STAT_state (Ix.onDie f) 4)) ∧
  (∀ (f : Fin 12) s t d', s.dev.icpOn f = true → s.dev.icpTxn f = some (t, d') → 1 ≤ d'.tState t → d'.tState t ≤ tARMED →
    exec (.icpRollback f) s = .next (s.after fun _ => (d'.rollTxn t 0).icpEnd f 0)) ∧
  (∀ (f : Fin 12) s, s.dev.streaming = true → s.dev.cfg.icp = some f.val → exec (.icpAbort f) s = .next (s.after Dev.abortStream)) ∧
  (∀ (f : Fin 12) s, s.dev.flag F.FAB_ICP_STAT_busy_other (Ix.onDie f) = true →
    exec (.icpBusyTimeout f) s = .next (s.after fun d => d.icpEnd f 4)) ∧
  (∀ sh (a : BitVec 24) s, exec (.scrubFrameRead sh a .clean) s = .next (s.after id)) ∧
  (∀ sh (a : BitVec 24) s, s.dev.scrubs a.toNat = true → Tbl.get 0 s.dev.pl.corrected a.toNat = 0 →
    exec (.scrubFrameRead sh a .corrected) s = .next (s.after fun d =>
      let d := d.bump F.HRT_SCRUB_STAT_corrected {}
      { d with pl := { d.pl with corrected := d.pl.corrected.set 0 a.toNat (d.root + 1) } })) ∧
  (∀ sh (a : BitVec 24) s, s.dev.pl.rebuild.contains (planeKey sh a.toNat) = true → s.dev.scrubs a.toNat = true →
    s.dev.frameTxn a.toNat = none → s.dev.pl.stale.contains a.toNat = false → s.dev.pl.resync.contains a.toNat = false →
    s.dev.pl.rebuild.contains (planeKey (!sh) a.toNat) = false →
    exec (.scrubRebuildComplete sh a .otherPlane) s = .next (s.after fun d =>
      (d.setFrame sh a.toNat (frameAt (if sh then d.pl.active else d.pl.shadow) a.toNat)).rebuilt sh a.toNat 0))

/-- The fabric (R160, R162, R167, R170, R171, R196). -/
def Obligations.FabricCommandsComplete : Prop :=
  (∀ (line : BitVec 32) (frame : BitVec 24) s, lineExists line.toNat = true → frameExists frame.toNat = true →
    exec (.tapClash line frame) s = .next (s.after fun d =>
      let f := line.toNat / 2 ^ 28
      let d := { d with fab := { d.fab with clashes := addNew d.fab.clashes (line.toNat, frame.toNat) } }
      let d := (((d.st F.FAB_STATUS_clash (Ix.onDie f) 1).st F.FAB_CLASH_line (Ix.onDie f) line.toNat).bump F.FAB_CLASH_count (Ix.onDie f)).fabCount f 34 0 1
      d.occur { die := 4 + f, block := 0, inst := (d.frameRegion frame.toNat).getD 0, cls := 1, sev := d.frameSev frame.toNat,
                action := 1, detail := line.toNat })) ∧
  (∀ (f : Fin 12) (p : Fin 6) s, s.dev.pllOn f p = true → s.dev.flag F.FAB_PLL_STAT_ref_bad (Ix.on f p) = false →
    exec (.pllLock f p) s = .next (s.after fun d =>
      ((d.pllShow f p true).pllNets f p).foldl (fun d x => d.ungateNet x.1 x.2) (d.pllShow f p true))) ∧
  (∀ (f : Fin 12) (p : Fin 6) s, s.dev.pllOn f p = true → s.dev.fab.step9 = true → s.dev.flag F.FAB_PLL_STAT_locked (Ix.on f p) = false →
    exec (.pllLockLate f p) s = .next (s.after fun d => d.occur { die := 4 + f, block := 0, inst := p, cls := 2, sev := sevStream })) ∧
  (∀ (f : Fin 12) (p : Fin 6) khz s, s.dev.pllOn f p = true → s.dev.rd F.FAB_PLL_CFG_ref_sel (Ix.on f p) ≠ 0 →
    (s.dev.st F.FAB_PLL_STAT_ref_khz (Ix.on f p) khz).pllRefOk f p khz = true →
    exec (.pllRefMeasured f p khz) s = .next (s.after fun d => (d.st F.FAB_PLL_STAT_ref_khz (Ix.on f p) khz).st F.FAB_PLL_STAT_ref_bad (Ix.on f p) 0)) ∧
  (∀ (f : Fin 12) (p : Fin 6) khz s, s.dev.pllOn f p = true → s.dev.rd F.FAB_PLL_CFG_ref_sel (Ix.on f p) ≠ 0 →
    (s.dev.st F.FAB_PLL_STAT_ref_khz (Ix.on f p) khz).pllRefOk f p khz = false →
    exec (.pllRefMeasured f p khz) s = .next (s.after fun d =>
      ((((d.st F.FAB_PLL_STAT_ref_khz (Ix.on f p) khz).st F.FAB_PLL_STAT_ref_bad (Ix.on f p) 1).pllShow f p false).gatePll f p).occur
        { die := 4 + f, block := 0, inst := p, cls := 2, sev := sevStream })) ∧
  (∀ (f : Fin 12) (p : Fin 6) s, s.dev.flag F.FAB_PLL_STAT_locked (Ix.on f p) = true →
    exec (.pllLockLoss f p) s = .next (s.after fun d =>
      ((d.pllShow f p false).st F.FAB_PLL_STAT_losses (Ix.on f p) (min 65535 (d.rd F.FAB_PLL_STAT_losses (Ix.on f p) + 1))).gatePll f p)) ∧
  (∀ (f : Fin 12) (n : Fin 32) twinned s, s.dev.flag F.FAB_GNET_mon_en (Ix.on f n) = true →
    bits (s.dev.rd F.FAB_STATUS_net_stopped (Ix.onDie f)) n 1 = 0 →
    exec (.netStopped f n [] [] twinned) s = .next (s.after fun d =>
      (d.setStopped f n true).occur { die := 4 + f, block := 0, inst := n, cls := 2, sev := if twinned then sevDegrade else sevStream })) ∧
  (∀ (f : Fin 12) (n : Fin 32) s, bits (s.dev.rd F.FAB_STATUS_net_stopped (Ix.onDie f)) n 1 = 1 →
    exec (.netResumed f n) s = .next (s.after fun d =>
      let d := d.setStopped f n false
      { d with fab := { d.fab with
        closedAp := d.fab.closedAp.filter (fun e => decide (e.2 ≠ netKey f n))
        closedSp := d.fab.closedSp.filter (fun e => decide (e.2 ≠ netKey f n)) } })) ∧
  (∀ (pair : Fin 8) (bundle : Fin 4096) upper (w : Fin 32) rgn s, (Tbl.get BundleSt.fresh s.dev.fab.bundles (bundleKey pair bundle)).taken = [] →
    exec (.bundleRepair pair bundle upper (.wire w) rgn) s = .next (s.after fun d =>
      let k := bundleKey pair bundle
      let st := Tbl.get BundleSt.fresh d.fab.bundles k
      let d := d.xbErrors pair upper 4
      let d := { d with fab := { d.fab with bundles := d.fab.bundles.set BundleSt.fresh k { st with taken := [w.val] } },
                        crd := { d.crd with fieldMap := addNew d.crd.fieldMap (10000 + k, w.val) } }
      (d.xbSet pair F.FAB_XB_SUM_one_spare (d.xbGet pair F.FAB_XB_SUM_one_spare + 1)).bundleRecord pair bundle upper rgn sevNote 2 false))

/-- Packets (R175, R206 to R212, R222, R223), BAR2 (R457) and engine transfers (R338). -/
def Obligations.PacketCommandsComplete : Prop :=
  (∀ (f : Fin 12) (a : Fin 32) (addr : BitVec 63) w len (tag : BitVec 8) full be data s, s.dev.apClosed f a = false → s.dev.mode ≠ .ember →
    addr.toNat / 2 ^ 48 % 256 ≠ 0 →
    exec (.apRequest f a addr w len tag full be data) s = .next (s.after fun d => (d.countErr (apEndpoint f a) 7).emit (.apReply f a tag.toNat 7 []))) ∧
  (∀ (f : Fin 12) (a : Fin 32) (addr : BitVec 63) w (len : Fin 32) (tag : BitVec 8) be data s, s.dev.apClosed f a = false → s.dev.mode ≠ .ember →
    addr.toNat / 2 ^ 48 % 256 = 0 → s.dev.req (apEndpoint f a) tag.toNat = none → s.dev.quarantined (apEndpoint f a) tag.toNat = false →
    (s.dev.fabCount f 35 a 1).decodeAddr (addr.toNat % 2 ^ 48) = none → len.val < 31 →
    exec (.apRequest f a addr w len tag true be data) s = .next (s.after fun d =>
      let d := d.fabCount f 35 a 1
      let q : NocReq := { parts := 1, code := 0, write := w, bytes := 128 * (len.val + 1), since := d.root }
      ({ d with noc := { d.noc with reqs := d.noc.reqs.set none (reqKey (apEndpoint f a) tag.toNat) (some q) } } : Dev).completeReq
        (apEndpoint f a) tag.toNat 2 [])) ∧
  (∀ (f : Fin 12) (a : Fin 32) (addr : BitVec 63) (tag : BitVec 8) dst s, s.dev.apClosed f a = false → s.dev.mode ≠ .ember →
    addr.toNat / 2 ^ 48 % 256 = 0 → s.dev.req (apEndpoint f a) tag.toNat = none → s.dev.quarantined (apEndpoint f a) tag.toNat = false →
    (s.dev.fabCount f 35 a 1).decodeAddr (addr.toNat % 2 ^ 48) = some dst →
    exec (.apRequest f a addr false 0 tag true [] []) s = .next (s.after fun d =>
      let d := d.fabCount f 35 a 1
      let q : NocReq := { parts := 1, code := 0, write := false, bytes := 128, since := d.root }
      ({ d with noc := { d.noc with reqs := d.noc.reqs.set none (reqKey (apEndpoint f a) tag.toNat) (some q) } } : Dev).inject
        { id := 0, op := 0, vc := 0, len := 0, rdLen := 1, tag := BitVec.ofNat 12 tag.toNat, code := 0, full := false, addr := addr + BitVec.ofNat 63 0, be := 0,
          dst := BitVec.ofNat 12 dst, src := BitVec.ofNat 12 (apEndpoint f a), epoch := false, birth := 0, poison := false, resv := false, data := [] })) ∧
  (∀ (b : Fin 4) (r : Fin 32) inp p s, s.dev.mode ≠ .ember → (s.dev.unbuffer p.id).rtState b r = 1 → p.fieldsOk = true → p.pkg = 0 →
    exec (.nocFlitCheck b r inp p 0 false) s = .next (s.after fun d => (d.unbuffer p.id).place b r inp p)) ∧
  (∀ (b : Fin 4) (r : Fin 32) inp p s, s.dev.mode ≠ .ember → (s.dev.unbuffer p.id).rtState b r = 1 →
    exec (.nocFlitCheck b r inp p 0 true) s = .next (s.after fun d => (d.unbuffer p.id).dropAt b r)) ∧
  (∀ p answer s r l d', s.dev.lands p → (s.dev.atTarget p).decodeAddr (pktAddr p) = some p.dst.toNat →
    (s.dev.atTarget p).serveRead (pktKey p) (pktAddr p) (128 * p.rdLen) answer = some (r, l, d') →
    exec (.rd p answer) s = .next (s.after fun _ => d'.answer p r (bytesWords l))) ∧
  (∀ p answer s, s.dev.lands p → (s.dev.atTarget p).decodeAddr (pktAddr p) = some p.dst.toNat →
    (s.dev.atTarget p).serveRead (pktKey p) (pktAddr p) (128 * p.rdLen) answer = none →
    exec (.rd p answer) s = .next (s.after fun d =>
      { d.atTarget p with noc := { (d.atTarget p).noc with taken := (d.atTarget p).noc.taken ++ [p] } })) ∧
  (∀ p answer s r l d', s.dev.lands p → (s.dev.atTarget p).decodeAddr (pktAddr p) = some p.dst.toNat →
    (s.dev.atTarget p).pktWrite p answer = some (r, l, d') → exec (.wr p answer) s = .next (s.after fun _ => d'.answer p r (bytesWords l))) ∧
  (∀ p s r l d', s.dev.lands p → (s.dev.atTarget p).decodeAddr (pktAddr p) = some p.dst.toNat →
    (s.dev.atTarget p).pktWrite p (some { code := 0, data := [] }) = some (r, l, d') →
    exec (.wrp p) s = .next (s.after fun _ => d'.answer p r (bytesWords l))) ∧
  (∀ p s, s.dev.lands p → (s.dev.atTarget p).decodeAddr (pktAddr p) ≠ some p.dst.toNat →
    exec (.wrp p) s = .next (s.after fun d => (d.atTarget p).answer p .fault [])) ∧
  (∀ p s, s.dev.lands p → exec (.msg p) s = .next (s.after fun d => d.unbuffer p.id)) ∧
  (∀ p q s, p.op.val = 3 → p.dst.toNat < 1024 → (s.dev.unbuffer p.id).localShut (p.dst.toNat / 256) (p.dst.toNat / 8 % 32) (p.dst.toNat % 8) = false →
    (s.dev.unbuffer p.id).quarantined p.dst.toNat p.tag.toNat = false → (s.dev.unbuffer p.id).req p.dst.toNat p.tag.toNat = some q → q.parts = 1 → q.code = 0 →
    exec (.rsp p) s = .next (s.after fun d => (d.unbuffer p.id).completeReq p.dst.toNat p.tag.toNat p.code.val p.data)) ∧
  (∀ (e : Fin 1024) answer s t rest r d', s.dev.mode ≠ .ember → s.dev.packUp (e.val / 32) = true → (s.dev.eng e).xfers = t :: rest → s.dev.engState e ≠ 4 →
    s.dev.move e t answer = some (r, d') →
    exec (.transferComplete e answer) s = .next (s.after fun _ =>
      d'.setEng e { (d'.eng e).setTag t.tag (tagDone r.code) with xfers := rest })) ∧
  (∀ (fn : Fin 64) (off : BitVec 36) bytes answer s d', s.dev.clk.held = false → s.dev.rd F.HRT_FN_STAT_type (Ix.at fn) ≠ 0 →
    2 ≤ s.dev.rd F.HRT_BOOT_step {} → s.dev.mode ≠ .ember →
    s.dev.serveWrite (.fn fn) none (s.dev.rd F.HRT_BAR2_key_id (Ix.at fn)) (s.dev.rd F.HRT_BAR2_win (Ix.at fn) * 2 ^ 36 + off.toNat) bytes.length
      (placeBytes (s.dev.rd F.HRT_BAR2_win (Ix.at fn) * 2 ^ 36 + off.toNat) bytes) false answer = some (.done, d') →
    exec (.bar2Access fn off true bytes answer) s = .next (s.after fun _ => d')) ∧
  (∀ (fn : Fin 64) (off : BitVec 36) bytes answer s, s.dev.clk.held = false → s.dev.rd F.HRT_FN_STAT_type (Ix.at fn) ≠ 0 →
    2 ≤ s.dev.rd F.HRT_BOOT_step {} → s.dev.mode = .ember →
    exec (.bar2Access fn off false bytes answer) s = .next (s.after fun d => d.emit (.pcie fn 4 false [])))

/-- Network events (R218, R220, R222 to R227). -/
def Obligations.NetworkEventsComplete : Prop :=
  (∀ pid x s, s.dev.noc.bufs.find? (fun x => decide (x.pkt.id = pid) && x.port.isNone) = some x →
    exec (.routeHoldExpired pid) s = .next (s.after fun d => (d.unbuffer pid).synth (x.router / 32) (x.router % 32) x.pkt .noroute)) ∧
  (∀ pid x s, s.dev.noc.bufs.find? (fun x => decide (x.pkt.id = pid)) = some x → 12 ≤ (s.dev.birthNow.val + 16 - x.pkt.birth.val) % 16 →
    exec (.packetAgeDiscard pid) s = .next (s.after fun d => d.ageOut x)) ∧
  (∀ pid x s, s.dev.noc.bufs.find? (fun x => decide (x.pkt.id = pid)) = some x → (s.dev.birthNow.val + 16 - x.pkt.birth.val) % 16 < 12 →
    exec (.packetAgeDiscard pid) s = .next (s.after id)) ∧
  (∀ (b : Fin 4) (r : Fin 32) prot s, s.dev.rtState b r ≠ 4 → s.dev.rtState b r ≠ 0 → exec (.routerFailed b r prot) s = .next (s.after fun d =>
    let n := b.val * 32 + r.val
    let d := d.setRtState b r 4
    let d := ({ d with noc := { d.noc with portDown := (portsTo n).foldl addNew d.noc.portDown } } : Dev).loseAt n
    let toward := d.noc.bufs.filter (fun x => match x.port with
      | some p => neighbour (x.router / 32) (x.router % 32) p == some (b.val, r.val)
      | none => false)
    (toward.foldl (fun (d : Dev) (x : NocBuf) => d.unbuffer x.pkt.id) d).occur
      { die := b, block := 2, inst := r, cls := 8, sev := if prot then sevDegrade else sevStream, action := 6, needs := true, repair := true, res := [resRoutes] })) ∧
  (∀ s, exec .epochDrainSum s = .next (s.after Dev.drainSum)) ∧
  (∀ s, s.dev.flag F.NOC_STATUS_epoch_draining {} = true → exec .epochDrainTimeout s = .next (s.after fun d => d.drainOut.drainSum)) ∧
  (∀ s, s.dev.flag F.NOC_STATUS_epoch_draining {} = false → exec .epochDrainTimeout s = .next (s.after id)) ∧
  (∀ (src : Fin 1024) (tag : BitVec 12) s, s.dev.mode ≠ .ember → (s.dev.req src tag.toNat).isSome = true →
    exec (.initiatorTimeout src tag) s = .next (s.after fun d =>
      let d := d.completeReq src tag.toNat 3 []
      { d with noc := { d.noc with quarantine := addNew d.noc.quarantine (reqKey src tag.toNat) } })) ∧
  (∀ (src : Fin 1024) (tag : BitVec 12) s, exec (.tagQuarantineEnd src tag) s = .next (s.after fun d =>
    { d with noc := { d.noc with quarantine := remove d.noc.quarantine (reqKey src tag.toNat) } })) ∧
  (∀ (src tag : BitVec 12) p s, s.dev.noc.taken.find? (fun p => decide (p.src = src) && decide (p.tag = tag)) = some p →
    exec (.targetLateFault src tag) s = .next (s.after fun d =>
      ({ d with noc := { d.noc with taken := d.noc.taken.filter (fun q => decide (q ≠ p)) } } : Dev).answer p .fault [])) ∧
  (∀ x s, exec (.domainClose x) s = .next (s.after fun d => d.closeDom x)) ∧
  (∀ x s, exec (.domainDrainEnd x) s = .next (s.after fun d => d.endDrain x)) ∧
  (∀ x s, exec (.domainReopen x) s = .next (s.after fun d => (d.openDom x).retryHeld)) ∧
  (∀ (b : Fin 4) (r : Fin 32) (u : Fin 101) s,
    (s.dev.st F.NOC_RT_STAT_util (Ix.on b r) u.val).rd F.NOC_CFG_thr_on (Ix.onDie b) < u.val →
    exec (.utilisationWindow b r [u]) s = .next (s.after fun d =>
      let d := d.st F.NOC_RT_STAT_util (Ix.on b r) u.val
      let d := { d with noc := { d.noc with throttling := addNew d.noc.throttling (b.val * 32 + r.val) } }
      d.stB F.NOC_STATUS_throttling (Ix.onDie b) (d.noc.throttling.any (fun m => decide (m / 32 = b.val)))))

/-- Cords and light cords (R185 to R192). -/
def Obligations.CordCommandsComplete : Prop :=
  (∀ (c : CordId) s, s.dev.cordEndReset c = false → (s.dev.cord c).owed = false → (s.dev.cord c).replay = [] → c.isLight = false →
    (s.dev.cord c).retest = false →
    exec (.cordTraining c false false []) s = .next (s.after fun d =>
      let d := ((d.setCord c CordSt.fresh).markBad c ((d.mappedBad c ++ []).foldl addNew [])).cordSet c F.CRD_CORD_STAT_cap_err F.CRD_LC_STAT_cap_err 0
      let d := match (cordEnds c).1 with | some a => d.st F.CRD_CORD_STAT_ck_spare a 1 | none => d
      (match (cordEnds c).2 with | some a => d.st F.CRD_CORD_STAT_ck_spare a 1 | none => d).cordOut c)) ∧
  (∀ (c : CordId) s, s.dev.cordState c = 1 → exec (.cordTrainingTimeout c) s = .next (s.after fun d => (d.setCordState c 5).cordRecord c sevDegrade 11 0)) ∧
  (∀ (c : CordId) flit s, s.dev.cordUp c = true → s.dev.mode ≠ .ember → (s.dev.cord c).maySend flit = true →
    flit.seq.val = ((s.dev.cord c).send flit).expect →
    exec (.cordFlitSlot c flit true) s = .next (s.after fun d =>
      let x := (d.cord c).send flit
      d.setCord c { x with nak := false, tries := 0, expect := (x.expect + 1) % 64, buffer := bumpAt x.buffer flit.vc (· + 1) })) ∧
  (∀ (c : CordId) flit s, s.dev.cordUp c = true → s.dev.mode ≠ .ember → (s.dev.cord c).maySend flit = true →
    exec (.cordFlitSlot c flit false) s = .next (s.after fun d =>
      (d.setCord c { (d.cord c).send flit with nak := true }).cordBump c true F.CRD_CORD_STAT_crc_err F.CRD_LC_STAT_crc_err)) ∧
  (∀ (c : CordId) (v : Fin 4) ack s, s.dev.cordUp c = true → s.dev.mode ≠ .ember →
    exec (.cordCreditField c (some v) ack false true) s = .next (s.after fun d =>
      ((d.setCord c { d.cord c with buffer := bumpAt (d.cord c).buffer v (· - 1) }).takeCredit c v).takeAck c ack)) ∧
  (∀ (c : CordId) ack nak s, s.dev.cordUp c = true → s.dev.mode ≠ .ember →
    exec (.cordCreditField c none ack nak false) s = .next (s.after fun d => d.cordBump c false F.CRD_CORD_STAT_crc_err F.CRD_LC_STAT_crc_err)) ∧
  (∀ (c : CordId) (vc : Fin 4) (n : Fin 32) s, s.dev.cordUp c = true → s.dev.mode ≠ .ember →
    (n.val + 32 - (s.dev.cord c).counted.getD vc 0) % 32 ≤ (s.dev.cord c).outst.getD vc 0 →
    exec (.total c vc n true) s = .next (s.after fun d =>
      let x := d.cord c
      d.setCord c { x with outst := bumpAt x.outst vc (· - (n.val + 32 - x.counted.getD vc 0) % 32), counted := x.counted.set vc n.val })) ∧
  (∀ (c : CordId) (vc : Fin 4) (n : Fin 32) s, s.dev.cordUp c = true → s.dev.mode ≠ .ember →
    (s.dev.cord c).outst.getD vc 0 < (n.val + 32 - (s.dev.cord c).counted.getD vc 0) % 32 →
    exec (.total c vc n true) s = .next (s.after fun d => d.badConduct c)) ∧
  (∀ (c : CordId) s, s.dev.cordUp c = true → (s.dev.cord c).tries = 1 → exec (.replayTimeout c) s = .next (s.after fun d =>
    (d.setCord c { d.cord c with tries := 2 }).cordBump c false F.CRD_CORD_STAT_replays F.CRD_LC_STAT_replays)) ∧
  (∀ (c : CordId) s, s.dev.cordUp c = true → 1 < (s.dev.cord c).tries → (s.dev.cord c).retested = false →
    exec (.replayTimeout c) s = .next (s.after fun d => (d.setCord c { d.cord c with tries := 0, retested := true }).holdCord c)) ∧
  (∀ (c : CordId) s, s.dev.cordUp c = true → c.isLight = false → (s.dev.cord c).bad.contains 70 = false → (s.dev.cord c).bad.contains 71 = false →
    exec (.wireFailed c 70) s = .next (s.after fun d => (d.markBad c [70]).cordSet c F.CRD_CORD_STAT_ck_spare F.CRD_CORD_STAT_ck_spare 1)) ∧
  (∀ (c : CordId) (w : Fin 72) s, s.dev.cordUp c = true → (s.dev.cord c).test = none → w.val < 70 →
    (s.dev.spareMapOf c).any (fun p => decide (p.2 = w.val)) = false →
    exec (.remap c w) s = .next (s.after fun d => (d.markBad c [w]).trySpare c w)) ∧
  (∀ (c : CordId) sp w s, (s.dev.cord c).test = some (sp, w) → (s.dev.cord c).waitW = [] →
    exec (.spareTestDone c false) s = .next (s.after fun d => ((d.setCord c { d.cord c with test := none }).markBad c [sp]).trySpare c w)) ∧
  (∀ (c : CordId) s, s.dev.cordState c = 4 → (s.dev.cord c).test = none → (s.dev.cord c).replay = [] → (s.dev.cord c).narrow = [] →
    exec (.resume c) s = .next (s.after fun d => (d.setCord c { d.cord c with hold := false }).setCordState c 2)) ∧
  (∀ (c : CordId) failed s, s.dev.cordUp c = true → s.dev.narrowEn c = true → (s.dev.restart c (failed.map (fun (w : Fin 70) => w.val)) true).cordState c = 3 →
    exec (.narrow c failed) s = .next (s.after fun d => (d.restart c (failed.map (fun (w : Fin 70) => w.val)) true).cordRecord c sevDegrade 3 0)) ∧
  (∀ (c : CordId) failed s, s.dev.cordUp c = true → (s.dev.restart c (failed.map (fun (w : Fin 70) => w.val)) false).cordState c = 2 →
    exec (.retest c failed) s = .next (s.after fun d => d.restart c (failed.map (fun (w : Fin 70) => w.val)) false)) ∧
  (∀ (c : CordId) s, s.dev.cordUp c = true → exec (.cordOutOfService c) s = .next (s.after fun d => d.cordOut c))

/-- Link exchange and far mode (R198, R200, R201). -/
def Obligations.LinkExchangeAndFarLinkComplete : Prop :=
  (∀ (c : CordId) r s, s.dev.inExchange (.cord c) = true → capValid false r = true → (Tbl.get CordSt.fresh s.dev.crd.cords (linkKey (.cord c))).recSeen = 0 →
    exec (.capabilityRecord (.cord c) r) s = .next (s.after fun d =>
      d.setLink (linkKey (.cord c)) { Tbl.get CordSt.fresh d.crd.cords (linkKey (.cord c)) with lastRec := r.map (·.toNat), recSeen := 1 })) ∧
  (∀ l r s, s.dev.inExchange l = false → exec (.capabilityRecord l r) s = .next (s.after id)) ∧
  (∀ l s, s.dev.inExchange l = true → exec (.capTimeout l) s = .next (s.after fun d => (d.setCapErr l 7).linkDown l)) ∧
  (∀ (b : Fin 4) (g : Fin 2) frame s, s.dev.flag F.CRD_FAR_CFG_enable (Ix.on b g) = true → 2 ≤ s.dev.rd F.CRD_FAR_STAT_state (Ix.on b g) → frame.crcOk = false →
    exec (.farFrame b g frame) s = .next (s.after fun d =>
      d.setLink (2000 + 2 * b.val + g.val) { Tbl.get CordSt.fresh d.crd.cords (2000 + 2 * b.val + g.val) with nak := true })) ∧
  (∀ (b : Fin 4) (g : Fin 2) frame s, s.dev.flag F.CRD_FAR_CFG_enable (Ix.on b g) = true → 3 ≤ s.dev.rd F.CRD_FAR_STAT_state (Ix.on b g) → frame.crcOk = true →
    frame.kind = .idle → exec (.farFrame b g frame) s = .next (s.after fun d => d.farLinkWord b g frame)) ∧
  (∀ (b : Fin 4) (g : Fin 2) (l : Fin 4) s, 3 ≤ s.dev.rd F.CRD_FAR_STAT_state (Ix.on b g) → bits (s.dev.rd F.CRD_FAR_STAT_lanes_up (Ix.on b g)) l 1 = 1 →
    s.dev.rd F.CRD_FAR_STAT_lanes_up (Ix.on b g) ≠ 2 ^ l.val →
    exec (.farLaneRestripe b g l) s = .next (s.after fun d =>
      ((d.st F.CRD_FAR_STAT_lanes_up (Ix.on b g) (d.rd F.CRD_FAR_STAT_lanes_up (Ix.on b g) - 2 ^ l.val)).st F.CRD_FAR_STAT_state (Ix.on b g) 4).farRecord
        b g sevDegrade 3 l)) ∧
  (∀ (b : Fin 4) (g : Fin 2) s, 3 ≤ s.dev.rd F.CRD_FAR_STAT_state (Ix.on b g) → exec (.farPartnerSilent b g) s = .next (s.after fun d => d.farLost b g))

/-- The Stream Switch (R231 to R257). -/
def Obligations.StreamSwitchCommandsComplete : Prop :=
  (∀ (g : Fin 4096) y r s, s.dev.streamsOpen = true → s.dev.slotOn g = true → (s.dev.slot g).srcQ = y :: r → y.last = false →
    exec (.strm g) s = .next (s.after fun d => (d.setSlot g { d.slot g with srcQ := r }).sendFrag g y)) ∧
  (∀ (g : Fin 4096) s, s.dev.streamsOpen = true → s.dev.slotOn g = true → (s.dev.slot g).srcQ = [] → exec (.strm g) s = .next (s.after id)) ∧
  (∀ b x old s, s.dev.mode ≠ .ember → exec (.fragmentArrival b x old) s = .next (s.after fun d => d.arrive b x old)) ∧
  (∀ (g : Fin 4096) s, s.dev.mode ≠ .ember → s.dev.dieOff (s.dev.rd F.SSW_SLOT_CFG_sink_die (slotIx g)) = false →
    exec (.fragmentRelease g) s = .next (s.after fun d => d.releaseNext g)) ∧
  (∀ s, exec .linkRecompute s = .next (s.after fun d => d.recompute true)) ∧
  (∀ (g : Fin 4096) s, s.dev.slotOn g = true → s.dev.twinned g = false → (s.dev.mrg g).fresh = false →
    s.dev.periodsPast g (s.dev.rd F.SSW_SLOT_TWIN_loss_units (slotIx g)) (s.dev.root - (s.dev.mrg g).lastAt) = true →
    exec (.mergeSilence g) s = .next (s.after fun d => d.setMrg g { d.mrg g with fresh := true })) ∧
  (∀ (g : Fin 4096) t s, (s.dev.slot g).swapRel = some t → s.dev.rd F.SSW_SLOT_STAT_prot (slotIx g) = 3 → s.dev.periodsPast g 64 (s.dev.root - t) = true →
    exec (.swappingTimeout g) s = .next (s.after fun d =>
      ((d.st F.SSW_SLOT_STAT_prot (slotIx g) 2).setSlot g { d.slot g with swapRel := none }).copyLost g)) ∧
  (∀ (f : Fin 12) (p : Fin 64) u s, s.dev.flag F.SSW_FSRC_enable { die := f.val / 3, i := f.val % 3, j := p } = true → s.dev.streamsOpen = true →
    s.dev.dieOff (f.val / 3) = false → s.dev.dieOff (4 + f.val) = false →
    s.dev.fab.closedSp.any (fun e => decide (e.1 = f.val * 64 + p.val)) = false →
    s.dev.slotOn (f.val / 3 * 1024 + s.dev.rd F.SSW_FSRC_slot { die := f.val / 3, i := f.val % 3, j := p }) = false →
    exec (.fabricSourceUnit f p u false) s = .next (s.after fun d =>
      d.badUnit (f.val / 3 * 1024 + d.rd F.SSW_FSRC_slot { die := f.val / 3, i := f.val % 3, j := p }))) ∧
  (∀ (f : Fin 12) (p : Fin 64) u s, s.dev.flag F.SSW_FSRC_enable { die := f.val / 3, i := f.val % 3, j := p } = true → s.dev.streamsOpen = true →
    s.dev.dieOff (f.val / 3) = false → s.dev.dieOff (4 + f.val) = false →
    s.dev.fab.closedSp.any (fun e => decide (e.1 = f.val * 64 + p.val)) = false →
    s.dev.slotOn (f.val / 3 * 1024 + s.dev.rd F.SSW_FSRC_slot { die := f.val / 3, i := f.val % 3, j := p }) = true →
    s.dev.rd F.SSW_SLOT_CFG_src_type (slotIx (f.val / 3 * 1024 + s.dev.rd F.SSW_FSRC_slot { die := f.val / 3, i := f.val % 3, j := p })) = 2 →
    s.dev.rd F.SSW_SLOT_CFG_src_unit (slotIx (f.val / 3 * 1024 + s.dev.rd F.SSW_FSRC_slot { die := f.val / 3, i := f.val % 3, j := p })) = f.val % 3 →
    s.dev.rd F.SSW_SLOT_CFG_src_idx (slotIx (f.val / 3 * 1024 + s.dev.rd F.SSW_FSRC_slot { die := f.val / 3, i := f.val % 3, j := p })) = p.val →
    exec (.fabricSourceUnit f p u true) s = .next (s.after fun d =>
      (d.bump F.SSW_SLOT_ERR_bad_units (slotIx (f.val / 3 * 1024 + d.rd F.SSW_FSRC_slot { die := f.val / 3, i := f.val % 3, j := p }))).fabCount f 38 p 1)) ∧
  (∀ (k : Fin 256) s, s.dev.flag F.SSW_FS_CFG_enable (fsIx k) = true → s.dev.streamsOpen = true →
    (s.dev.fsOf k).done.contains ((s.dev.rd F.SSW_FS_STAT_r_slot (fsIx k) + 1) % s.dev.rd F.SSW_FS_CFG_depth (fsIx k)) = true →
    exec (.frameStoreDecision k) s = .next (s.after fun d =>
      (d.st F.SSW_FS_STAT_r_slot (fsIx k) ((d.rd F.SSW_FS_STAT_r_slot (fsIx k) + 1) % d.rd F.SSW_FS_CFG_depth (fsIx k))).setFs k
        { d.fsOf k with rep := false })) ∧
  (∀ (k : Fin 256) s, s.dev.flag F.SSW_FS_CFG_enable (fsIx k) = true → s.dev.streamsOpen = true →
    (s.dev.fsOf k).done.contains ((s.dev.rd F.SSW_FS_STAT_r_slot (fsIx k) + 1) % s.dev.rd F.SSW_FS_CFG_depth (fsIx k)) = false →
    exec (.frameStoreDecision k) s = .next (s.after fun d => (d.bump F.SSW_FS_STAT_repeats (fsIx k)).setFs k { d.fsOf k with rep := true })) ∧
  (∀ (g : Fin 4096) (u : Fin 8192) frame s, s.dev.slotOn g = true → s.dev.rd F.SSW_SLOT_CFG_src_type (slotIx g) = 3 →
    s.dev.flag F.SSW_FS_CFG_enable (fsIx (s.dev.rd F.SSW_SLOT_CFG_fs (slotIx g))) = true → s.dev.streamsOpen = true →
    u.val < s.dev.rd F.SSW_SLOT_RATE_units (slotIx g) → Tbl.get none s.dev.ssw.reads g = none →
    exec (.frameStoreLineRead g u frame) s = .next (s.after fun d =>
      let k := d.rd F.SSW_SLOT_CFG_fs (slotIx g)
      let own := decide (d.rd F.SSW_FS_CFG_stack (fsIx k) / 2 ≠ g.val / 1024)
      let r : FsRead := { unit := u, mirror := if d.copyUp k own then own else if d.copyUp k (!own) then !own else own, again := false,
                          slot := d.rd F.SSW_FS_STAT_r_slot (fsIx k), frame := frame }
      { d with ssw := { d.ssw with reads := d.ssw.reads.set none g (some r) } })) ∧
  (∀ (g : Fin 4096) r s, Tbl.get none s.dev.ssw.reads g = some r → r.again = true → exec (.frameStoreReadReturn g .faulted) s = .next (s.after fun d =>
    let d := d.bump F.SSW_SLOT_MRG_lost (slotIx g)
    { d with ssw := { d.ssw with reads := d.ssw.reads.set none g none } })) ∧
  (∀ (b : Fin 4) (c : Fin 9) s, bits (s.dev.rd F.SSW_STATUS_de_up (Ix.onDie b)) c 1 = 1 → c.val < 8 → s.dev.flag F.SSW_STATUS_spare_busy (Ix.onDie b) = false →
    bits (s.dev.rd F.SSW_STATUS_de_up (Ix.onDie b)) 8 1 = 1 →
    exec (.deTakeover b c) s = .next (s.after fun d =>
      ((d.st F.SSW_STATUS_de_up (Ix.onDie b) (d.rd F.SSW_STATUS_de_up (Ix.onDie b) - 2 ^ c.val)).st F.SSW_STATUS_spare_busy (Ix.onDie b) 1).occur
        { die := b, block := 1, inst := 0, cls := 9, sev := sevNote, detail := c }))

/-- Lanes (R262, R265, R270 to R274, R286). -/
def Obligations.LaneCommandsComplete : Prop :=
  (∀ (b : Fin 4) (l : Fin 32) s, (s.dev.st F.LN_STAT_sig_det (Ix.on b l) 1).laneIn b l 1 →
    exec (.laneSignalDetect b l) s = .next (s.after fun d => (d.st F.LN_STAT_sig_det (Ix.on b l) 1).setLn b l 2)) ∧
  (∀ (b : Fin 4) (l : Fin 32) s, s.dev.laneIn b l 2 → exec (.trainAAdapted b l) s = .next (s.after fun d =>
    ((d.setLn b l 3).st F.LN_STAT_cdr_lock (Ix.on b l) 1).setLane b l { d.lane b l with adapted := true })) ∧
  (∀ (b : Fin 4) (l : Fin 32) s, s.dev.laneIn b l 3 → exec (.trainBMarkers b l) s = .next (s.after fun d => d.setLn b l 4)) ∧
  (∀ (b : Fin 4) (l : Fin 32) s, s.dev.laneIn b l 4 → s.dev.farLane b l = false →
    exec (.bitLockPass b l) s = .next (s.after fun d => d.setLn b l 5)) ∧
  (∀ (b : Fin 4) (l : Fin 32) s, s.dev.laneIn b l 5 → exec (.billetLockFound b l) s = .next (s.after fun d =>
    (d.setLn b l 6).setLane b l { d.lane b l with capRec := [], capErr := 6 })) ∧
  (∀ (b : Fin 4) (l : Fin 32) st s, s.dev.laneIn b l st → 2 ≤ st → st ≤ 6 → s.dev.linkOf b l = none →
    (((s.dev.st F.LN_STAT_err (Ix.on b l) (stateErr st (s.dev.lane b l).capErr)).bump F.LN_STAT_fails (Ix.on b l)).flag F.LN_STAT_retrain (Ix.on b l)) = true →
    (((((s.dev.st F.LN_STAT_err (Ix.on b l) (stateErr st (s.dev.lane b l).capErr)).bump F.LN_STAT_fails (Ix.on b l)).setLane b l
      { s.dev.lane b l with waiting := true }).st F.LN_STAT_retrain (Ix.on b l) 0).linkOf b l) = none →
    exec (.laneStateTimeout b l) s = .next (s.after fun d =>
      (((d.st F.LN_STAT_err (Ix.on b l) (stateErr st (d.lane b l).capErr)).bump F.LN_STAT_fails (Ix.on b l)).setLane b l
        { d.lane b l with waiting := true }).st F.LN_STAT_retrain (Ix.on b l) 0)) ∧
  (∀ (b : Fin 4) (l : Fin 32) s, (s.dev.lane b l).waiting = true → exec (.returnToDetect b l) s = .next (s.after fun d =>
    ((d.setLn b l 1).setLane b l { d.lane b l with waiting := false, stuck := decide (3 ≤ (d.lane b l).fullFails) }).st F.LN_STAT_cdr_lock (Ix.on b l) 0)) ∧
  (∀ (b : Fin 4) (l : Fin 32) ppb s, s.dev.laneIn b l 4 → 5000 < ppb →
    exec (.refclkOffsetCheck b l ppb) s = .next (s.after fun d => (d.setLn b l 1).st F.LN_STAT_err (Ix.on b l) 1)) ∧
  (∀ (b : Fin 4) (r : Fin 2) s, exec (.laneRefLost b r) s = .next (s.after fun d =>
    let ls := d.refLanes b r
    let safe := d.lanesProtected b ls
    let d := (d.st F.LN_REF_present (Ix.on b r) 0).st F.LN_REF_in_range (Ix.on b r) 0
    (ls.foldl (fun (d : Dev) (l : Nat) => d.laneDown b l 9 0) d).occur { laneOcc b 0 (if safe then sevDegrade else sevStream) with cls := 2, sub := r })) ∧
  (∀ (b : Fin 4) (r : Fin 2) s, exec (.laneRefGood b r) s = .next (s.after fun d =>
    let d := (d.st F.LN_REF_present (Ix.on b r) 1).st F.LN_REF_in_range (Ix.on b r) 1
    (d.refLanes b r).foldl (fun (d : Dev) (l : Nat) => d.on (d.rd F.LN_STAT_err (Ix.on b l) = 9 && d.lnState b l = 0) (fun d => d.setLn b l 1)) d)) ∧
  (∀ (b : Fin 4) (l : Fin 32) s, s.dev.rd F.LN_CFG_mode (Ix.on b l) = 3 → s.dev.mode ≠ .ember → s.dev.mode ≠ .cold →
    exec (.ethernetLaneLock b l true) s = .next (s.after fun d =>
      ((d.setLn b l 8).st F.LN_STAT_cdr_lock (Ix.on b l) 1).st F.LN_STAT_sig_det (Ix.on b l) 1)) ∧
  (∀ (b : Fin 4) (n : Fin 6) s, s.dev.flag F.LN_NL_CFG_enable (Ix.on b n) = true → s.dev.flag F.LN_NL_CFG_simplex (Ix.on b n) = true → (s.dev.nl b n).phase = 0 →
    exec (.simplexTrainingPhaseEnd b n) s = .next (s.after fun d =>
      ((d.linkLanes b n).foldl (fun (d : Dev) (l : Nat) => d.setLn b l 3) (d.setNl b n { d.nl b n with phase := 1 })).st F.LN_NL_STAT_state (Ix.on b n) 1)) ∧
  (∀ (b : Fin 4) (l : Fin 32) s, s.dev.rd F.LN_CFG_mode (Ix.on b l) = 2 → s.dev.flag F.LN_CFG_tx_en (Ix.on b l) = true →
    exec (.sdiRateUpdate b l) s = .next (s.after fun d =>
      let o := Tbl.get F.HT_RATE_rate.reset d.ln.sdiRate (b.val * 32 + l.val)
      let t := d.rd F.HT_RATE_rate (Ix.onDie b)
      let v := if o < t then min t (o + o / 10 ^ 7) else max t (o - o / 10 ^ 7)
      { d with ln := { d.ln with sdiRate := d.ln.sdiRate.set F.HT_RATE_rate.reset (b.val * 32 + l.val) v } }))

/-- Native links (R267, R275 to R284). -/
def Obligations.NativeLinkCommandsComplete : Prop :=
  (∀ (b : Fin 4) (l : Fin 32) x s, 5 ≤ s.dev.lnState b l → s.dev.lnState b l ≤ 7 → (s.dev.billetIn b l x).takesBillets b l = none →
    exec (.idleBillet b l x) s = .next (s.after fun d => d.billetIn b l x)) ∧
  (∀ (b : Fin 4) (l : Fin 32) n x w0 w1 s, s.dev.inTurn b l n x →
    exec (.data b l x w0 w1) s = .next (s.after fun d => ((d.turned b l x).placeWords b l n [w0, w1]).afterBillet b n)) ∧
  (∀ (b : Fin 4) (l : Fin 32) n x w s, s.dev.inTurn b l n x →
    exec (.data1 b l x w) s = .next (s.after fun d => ((d.turned b l x).placeWords b l n [w]).afterBillet b n)) ∧
  (∀ (b : Fin 4) (l : Fin 32) n x p s, s.dev.inTurn b l n x →
    exec (.restripe b l x p) s = .next (s.after fun d => ((d.turned b l x).restripeIn b n l p).afterBillet b n)) ∧
  (∀ (b : Fin 4) (l : Fin 32) n x w s, s.dev.takesBillets b l = some n → x.checkOk = true → x.seq.val ≠ ((s.dev.billetIn b l x).lane b l).rxSeq →
    (s.dev.billetIn b l x).flag F.LN_NL_CFG_simplex (Ix.on b n) = false → (s.dev.billetIn b l x).lnState b l = 7 →
    exec (.data1 b l x w) s = .next (s.after fun d => (d.billetIn b l x).nak b n l)) ∧
  (∀ (b : Fin 4) (n : Fin 6) s, exec (.data1WaitExpired b n) s = .next (s.after fun d => d.pump b n true ((d.nl b n).txq.length))) ∧
  (∀ (b : Fin 4) (l : Fin 32) n x xoff s, s.dev.takesBillets b l = some n → x.checkOk = true →
    (s.dev.billetIn b l x).flag F.LN_NL_CFG_simplex (Ix.on b n) = false →
    exec (.ack b l x [] xoff) s = .next (s.after fun d =>
      let d := (d.billetIn b l x).stB F.LN_NL_STAT_xoff_rx (Ix.on b n) xoff
      d.pump b n false ((d.nl b n).txq.length))) ∧
  (∀ (b : Fin 4) (l : Fin 32) n x r s, s.dev.linkOf b l = some n → (s.dev.lnState b l = 6 ∨ s.dev.lnState b l = 7) → s.dev.mode ≠ .ember →
    x.checkOk = true → nlCapValid r = false →
    exec (.cap b l x r) s = .next (s.after fun d =>
      let d := d.billetIn b l x
      (d.bump F.LN_CNT_bad_cap (Ix.on b l)).setLane b l { d.lane b l with capErr := 8 })) ∧
  (∀ (b : Fin 4) (l : Fin 32) n x r s, s.dev.linkOf b l = some n → s.dev.lnState b l = 6 → s.dev.mode ≠ .ember → x.checkOk = true → nlCapValid r = true →
    (s.dev.billetIn b l x).nlMismatch b n l r = false → fieldAt r 0x1C 4 = 0 → (s.dev.billetIn b l x).lnState b l = 6 →
    ((s.dev.billetIn b l x).lane b l).capRec.length = 0 →
    exec (.cap b l x r) s = .next (s.after fun d =>
      (d.billetIn b l x).setLane b l { (d.billetIn b l x).lane b l with capRec := r })) ∧
  (∀ (b : Fin 4) (l : Fin 32) s, s.dev.lnState b l = 7 → s.dev.farLane b l = false →
    exec (.nativeLaneDown b l) s = .next (s.after fun d => d.laneDown b l 0)) ∧
  (∀ (b : Fin 4) (n : Fin 6) s, s.dev.rd F.LN_NL_STAT_lanes_up (Ix.on b n) = 0 → exec (.nativeLinkDown b n) s = .next (s.after fun d => d.nlDown b n))

/-- Media ports (R297 to R309). -/
def Obligations.MediaPortCommandsComplete : Prop :=
  (∀ (b : Fin 4) (g : Fin 6) (c : Fin 8) x s, s.dev.flag F.MP_SDI_CFG_enable (s.dev.sdiCfg b g c) = true →
    s.dev.flag F.MP_SDI_CFG_dir (s.dev.sdiCfg b g c) = false → s.dev.pgRuns b g = true → x.trsOk = false →
    exec (.sdiLineReceived b g c x) s = .next (s.after fun d =>
      (d.bump F.MP_SDI_ERR_trs_err (pgIx b g c)).setSdi b g c { d.sdi b g c with good := 0, bad := (d.sdi b g c).bad + 1 })) ∧
  (∀ (b : Fin 4) (g : Fin 6) (c : Fin 8) x s, s.dev.flag F.MP_SDI_CFG_enable (s.dev.sdiCfg b g c) = false →
    exec (.sdiLineReceived b g c x) s = .next (s.after id)) ∧
  (∀ (b : Fin 4) (g : Fin 6) (c : Fin 8) s, s.dev.flag F.MP_SDI_STAT_locked (pgIx b g c) = true → exec (.sdiUnlock b g c) s = .next (s.after fun d =>
    let flows := d.rxFlows b g 1 c ++ d.rxFlows b g 2 c
    let safe := !flows.isEmpty && flows.all (fun i => d.flowProtected b g i)
    ((d.sdiLock b g c (d.sdiCfg b g c) false).setSdi b g c SdiSt.fresh).occur
      { die := b, block := 5, inst := g, cls := 10, sev := if safe then sevDegrade else sevStream, sub := c })) ∧
  (∀ (b : Fin 4) (g : Fin 6) (c : Fin 8) line frame room s, s.dev.flag F.MP_SDI_CFG_enable (pgIx b g c) = true →
    s.dev.flag F.MP_SDI_CFG_dir (pgIx b g c) = true → s.dev.pgRuns b g = true → s.dev.txFlows b g 2 c = [] →
    (s.dev.sdi b g c).anc = [] → s.dev.lanesFenced = false →
    exec (.sdiLineStart b g c line frame false room) s = .next (s.after fun d =>
      (d.setSdi b g c { d.sdi b g c with anc := [] }).emit (.sdiLine b g c line none (fitAnc room []).1))) ∧
  (∀ (b : Fin 4) (g : Fin 6) (c : Fin 8) x s, s.dev.flag F.MP_SDI_CFG_enable (s.dev.sdiCfg b g c) = true →
    s.dev.flag F.MP_SDI_CFG_dir (s.dev.sdiCfg b g c) = false → s.dev.pgRuns b g = true → x.trsOk = true → x.numOk = true → x.crcOk = true →
    s.dev.flag F.MP_SDI_STAT_locked (pgIx b g c) = true → x.frameStart = false → x.pid = none → x.active = none → x.anc = none →
    exec (.sdiLineReceived b g c x) s = .next (s.after fun d =>
      let d := (d.st F.MP_SDI_STAT_lines (pgIx b g c) x.lines).stB F.MP_SDI_STAT_interlaced (pgIx b g c) x.interlaced
      d.setSdi b g c { d.sdi b g c with good := (d.sdi b g c).good + 1, bad := 0 })) ∧
  (∀ (b : Fin 4) (g : Fin 6) (m : Fin 4) x s, s.dev.flag F.MP_MAC_CFG_enable (pgIx b g m) = true → s.dev.pgRuns b g = true → x.fcsOk = false →
    exec (.ethFrameReceived b g m x) s = .next (s.after fun d => d.bump F.MP_MAC_CNT_fcs_err (pgIx b g m))) ∧
  (∀ (b : Fin 4) (g : Fin 6) (m : Fin 4) x s, s.dev.flag F.MP_MAC_CFG_enable (pgIx b g m) = true → s.dev.pgRuns b g = true → x.fcsOk = true → x.size < 64 →
    exec (.ethFrameReceived b g m x) s = .next (s.after fun d => d.bump F.MP_MAC_CNT_size_err (pgIx b g m))) ∧
  (∀ (b : Fin 4) (g : Fin 6) (m : Fin 4) x s d', s.dev.flag F.MP_MAC_CFG_enable (pgIx b g m) = true → s.dev.pgRuns b g = true → x.fcsOk = true → 64 ≤ x.size →
    x.size ≤ s.dev.rd F.MP_MAC_CFG_max_frame (pgIx b g m) → x.tags ≤ 1 → s.dev.secIn b g m x = (true, d') → x.kind = .other true →
    exec (.ethFrameReceived b g m x) s = .next (s.after fun _ => d'.toHost b g x)) ∧
  (∀ (b : Fin 4) (g : Fin 6) (i : Fin 64) seq s, (s.dev.rxf b g i).asm.any (fun u => decide (u.seq = seq) &&
      decide (u.since + s.dev.rd F.MP_RXF_CFG_asm_us (pgIx b g i) * 3200 ≤ s.dev.root)) = true →
    exec (.assemblyTimeout b g i seq) s = .next (s.after fun d =>
      (d.setRxf b g i { d.rxf b g i with asm := (d.rxf b g i).asm.filter (fun u => decide (u.seq ≠ seq)) }).rxIncomplete b g i)) ∧
  (∀ (b : Fin 4) (g : Fin 6) (i : Fin 64) s, s.dev.flag F.MP_RXF_CFG_enable (pgIx b g i) = true → s.dev.flag F.MP_RXF_CFG_merge (pgIx b g i) = true →
    s.dev.flag F.MP_RXF_STAT_leg_lost (pgIx b g i) = false → (s.dev.rxf b g i).legB + 100 * msCycles ≤ s.dev.root →
    exec (.legLost b g i true) s = .next (s.after fun d =>
      ((d.st F.MP_RXF_STAT_leg_lost (pgIx b g i) 1).st F.MP_RXF_STAT_state (pgIx b g i) 3).occur
        { die := b, block := 5, inst := g, cls := 10, sev := sevDegrade, sub := i, detail := 1 })) ∧
  (∀ (b : Fin 4) (g : Fin 6) (i : Fin 64) u seq frame s, s.dev.flag F.MP_TXF_CFG_enable (pgIx b g i) = true → 3 ≤ s.dev.rd F.MP_TXF_CFG_type (pgIx b g i) →
    s.dev.rd F.MP_TXF_CFG_type (pgIx b g i) ≠ 8 → s.dev.pgRuns b g = true → s.dev.sinkUnits (pgSink b g i) = [u] → u.seq = seq → laterSeq seq u.seq = false →
    exec (.txPacketDeparture b g i seq 0 frame) s = .next (s.after fun d =>
      ((d.setSinkUnits (pgSink b g i) (remove [u] u)).setTx b g i (some u)).sendUnitPkt b g i 0 frame u)) ∧
  (∀ (b : Fin 4) (g : Fin 6) (i : Fin 64) seq frame s, s.dev.flag F.MP_TXF_CFG_enable (pgIx b g i) = true → 3 ≤ s.dev.rd F.MP_TXF_CFG_type (pgIx b g i) →
    s.dev.rd F.MP_TXF_CFG_type (pgIx b g i) ≠ 8 → s.dev.pgRuns b g = true → s.dev.sinkUnits (pgSink b g i) = [] →
    exec (.txPacketDeparture b g i seq 0 frame) s = .next (s.after fun d =>
      ((d.setSinkUnits (pgSink b g i) []).setTx b g i none).bump F.MP_TXF_CNT_tx_missed (pgIx b g i)))

/-- QUERY and LOG (R453, R454, R462, R463), unknown entries, function resets (R70, R77, R455). -/
def Obligations.QueryAndLogCommandsComplete : Prop :=
  (∀ c s, s.dev.hostOpen c grpQUERY 1 → exec (.queryId c) s = .next (s.after fun d =>
    let d := d.taken c.fn
    d.respond c grpQUERY 1 { status := 0, result := [d.regRead .HRT_ID {}, d.regRead .HRT_SN {}] })) ∧
  (∀ c (addr : Word64) s, s.dev.hostOpen c grpQUERY 2 → exec (.queryPart c addr true) s = .next (s.after fun d =>
    let d := d.taken c.fn
    let on := fun (r : Reg) => (List.range 4).map (fun b => d.regRead r { i := c.fn, j := b })
    (d.emit (.hostWrite c.fn addr.toNat ([d.regRead .HRT_PART_KEY (Ix.at c.fn)] ++ on .HRT_PART_Q ++ on .HRT_PART_SLOT))).respond c grpQUERY 2 { status := 0 })) ∧
  (∀ c (addr : Word64) s, s.dev.hostOpen c grpQUERY 2 → exec (.queryPart c addr false) s = .next (s.after fun d =>
    (d.taken c.fn).respond c grpQUERY 2 { status := 0x82, detail := addr.toNat })) ∧
  (∀ c s, s.dev.hostOpen c grpQUERY 3 → exec (.queryTime c) s = .next (s.after fun d =>
    let d := d.taken c.fn
    d.respond c grpQUERY 3 { status := 0, result := [d.regRead .HT_NOW_LO (Ix.onDie d.hearthDie), d.regRead .HT_NOW_HI (Ix.onDie d.hearthDie)] })) ∧
  (∀ c (addr : Word64) s, s.dev.hostOpen c grpQUERY 4 → exec (.queryHealth c addr true) s = .next (s.after fun d =>
    let d := d.taken c.fn
    let at_ := fun (sev : Nat) => (d.flt.recs.filter (fun e => decide (e.1 < 256) && decide (e.2.sev = sev))).length
    (d.emit (.hostWrite c.fn addr.toNat ([d.regRead .HRT_MODE {}, d.regRead .HRT_HEARTH {}, d.regRead .HRT_BOOT {}] ++ (List.range 4).map at_))).respond
      c grpQUERY 4 { status := 0 })) ∧
  (∀ c (addr : Word64) (max : BitVec 32) s r, s.dev.hostOpen c grpLOG 1 → 1 ≤ max.toNat → max.toNat ≤ 256 →
    (((s.dev.taken c.fn).unread c.fn).take max.toNat).getLast? = some r →
    exec (.logRead c addr max true) s = .next (s.after fun d =>
      let d := d.taken c.fn
      let l := (d.unread c.fn).take max.toNat
      let d := { d with flt := { d.flt with readPos := d.flt.readPos.set 0 c.fn (r.ord + 1) } }
      (d.emit (.hostWrite c.fn addr.toNat (l.flatMap (·.words)))).respond c grpLOG 1 { status := 0, result := [l.length] })) ∧
  (∀ c (addr : Word64) (max : BitVec 32) s, s.dev.hostOpen c grpLOG 1 → 1 ≤ max.toNat → max.toNat ≤ 256 → (s.dev.taken c.fn).unread c.fn = [] →
    exec (.logRead c addr max true) s = .next (s.after fun d => (d.taken c.fn).respond c grpLOG 1 { status := 0x0A })) ∧
  (∀ c (vec : BitVec 32) (sev : BitVec 8) s, s.dev.hostOpen c grpLOG 2 → vec.toNat < 32 → sev.toNat ≤ 3 →
    exec (.logNotify c vec sev true) s = .next (s.after fun d =>
      let d := d.taken c.fn
      ({ d with flt := { d.flt with notify := d.flt.notify.set none c.fn (some { vec := vec.toNat, sev := sev.toNat }) } } : Dev).respond c grpLOG 2
        { status := 0 })) ∧
  (∀ c (group cmd : BitVec 8) s, s.dev.ringOpen c.fn = true → exec (.unknownCommandEntry c group cmd) s = .next (s.after fun d =>
    (d.taken c.fn).respond c group.toNat cmd.toNat { status := 0x80 })) ∧
  (∀ (fn : Fin 64) s, s.dev.clk.held = false → s.dev.rd F.HRT_FN_STAT_type (Ix.at fn) ≠ 0 → s.dev.mode ≠ .ember →
    exec (.functionLevelReset fn) s = .next (s.after fun d => d.flr fn)) ∧
  (∀ (fn : Fin 64) s, s.dev.clk.held = false → s.dev.rd F.HRT_FN_STAT_type (Ix.at fn) ≠ 0 → s.dev.mode = .ember →
    exec (.functionLevelReset fn) s = .next (s.after fun d => d.emit (.pcie fn 4 false []))) ∧
  (∀ b s, s.dev.clk.held = false → exec (.hostPerst b) s = .next (s.after fun d =>
    ((List.range 64).filter (fun fn => decide (d.rd F.HRT_FN_STAT_type (Ix.at fn) ≠ 0) &&
      ((fn = 63 && d.rd F.HRT_FN_STAT_type (Ix.at fn) = 1 && d.fuse.hostbEn) == b))).foldl (fun d fn => d.flr fn) d))

/-- The register ALU group (R361, R376): result and flags are written with their hazards (R331) on the engine as the instruction reads it. -/
def Obligations.EngineScalarInstructionsComplete : Prop :=
  (∀ (e : Fin 1024) (d s t : Fin 32) z, z.dev.engReady e → exec (.add e d s t) z = .next (z.after fun D => D.engDone e (let x := D.engView e; (x.wrG d ((x.g s + x.g t) % 2 ^ 32)).flagsAdd (x.g s) (x.g t)))) ∧
  (∀ (e : Fin 1024) (d s t : Fin 32) z, z.dev.engReady e → exec (.sub e d s t) z = .next (z.after fun D => D.engDone e (let x := D.engView e; (x.wrG d ((x.g s + (2 ^ 32 - x.g t)) % 2 ^ 32)).flagsSub (x.g s) (x.g t)))) ∧
  (∀ (e : Fin 1024) (d s t : Fin 32) z, z.dev.engReady e → exec (.and e d s t) z = .next (z.after fun D => D.engDone e (let x := D.engView e; (x.wrG d ((x.g s &&& x.g t) % 2 ^ 32)).setZN ((x.g s &&& x.g t) % 2 ^ 32)))) ∧
  (∀ (e : Fin 1024) (d s t : Fin 32) z, z.dev.engReady e → exec (.or e d s t) z = .next (z.after fun D => D.engDone e (let x := D.engView e; (x.wrG d ((x.g s ||| x.g t) % 2 ^ 32)).setZN ((x.g s ||| x.g t) % 2 ^ 32)))) ∧
  (∀ (e : Fin 1024) (d s t : Fin 32) z, z.dev.engReady e → exec (.xor e d s t) z = .next (z.after fun D => D.engDone e (let x := D.engView e; (x.wrG d ((x.g s ^^^ x.g t) % 2 ^ 32)).setZN ((x.g s ^^^ x.g t) % 2 ^ 32)))) ∧
  (∀ (e : Fin 1024) (d s t : Fin 32) z, z.dev.engReady e → exec (.sll e d s t) z = .next (z.after fun D => D.engDone e (let x := D.engView e; (x.wrG d ((x.g s * 2 ^ (x.g t % 32)) % 2 ^ 32)).setZN ((x.g s * 2 ^ (x.g t % 32)) % 2 ^ 32)))) ∧
  (∀ (e : Fin 1024) (d s t : Fin 32) z, z.dev.engReady e → exec (.srl e d s t) z = .next (z.after fun D => D.engDone e (let x := D.engView e; (x.wrG d ((x.g s / 2 ^ (x.g t % 32)) % 2 ^ 32)).setZN ((x.g s / 2 ^ (x.g t % 32)) % 2 ^ 32)))) ∧
  (∀ (e : Fin 1024) (d s t : Fin 32) z, z.dev.engReady e → exec (.sra e d s t) z = .next (z.after fun D => D.engDone e (let x := D.engView e; (x.wrG d (sraW 32 (x.g s) (x.g t % 32) % 2 ^ 32)).setZN (sraW 32 (x.g s) (x.g t % 32) % 2 ^ 32)))) ∧
  (∀ (e : Fin 1024) (d s t : Fin 32) z, z.dev.engReady e → exec (.mulh e d s t) z = .next (z.after fun D => D.engDone e (let x := D.engView e; (x.wrG d (unsgn 32 (sgn 16 (x.g s) * sgn 16 (x.g t)) % 2 ^ 32)).setZN (unsgn 32 (sgn 16 (x.g s) * sgn 16 (x.g t)) % 2 ^ 32)))) ∧
  (∀ (e : Fin 1024) (d s t : Fin 32) z, z.dev.engReady e → exec (.min e d s t) z = .next (z.after fun D => D.engDone e (let x := D.engView e; (x.wrG d ((if sgn 32 (x.g s) ≤ sgn 32 (x.g t) then x.g s else x.g t) % 2 ^ 32)).setZN ((if sgn 32 (x.g s) ≤ sgn 32 (x.g t) then x.g s else x.g t) % 2 ^ 32)))) ∧
  (∀ (e : Fin 1024) (d s t : Fin 32) z, z.dev.engReady e → exec (.max e d s t) z = .next (z.after fun D => D.engDone e (let x := D.engView e; (x.wrG d ((if sgn 32 (x.g s) ≤ sgn 32 (x.g t) then x.g t else x.g s) % 2 ^ 32)).setZN ((if sgn 32 (x.g s) ≤ sgn 32 (x.g t) then x.g t else x.g s) % 2 ^ 32)))) ∧
  (∀ (e : Fin 1024) (d s t : Fin 32) z, z.dev.engReady e → exec (.slt e d s t) z = .next (z.after fun D => D.engDone e (let x := D.engView e; (x.wrG d ((decide (sgn 32 (x.g s) < sgn 32 (x.g t))).toNat % 2 ^ 32)).setZ ((decide (sgn 32 (x.g s) < sgn 32 (x.g t))).toNat % 2 ^ 32)))) ∧
  (∀ (e : Fin 1024) (d s t : Fin 32) z, z.dev.engReady e → exec (.sltu e d s t) z = .next (z.after fun D => D.engDone e (let x := D.engView e; (x.wrG d ((decide (x.g s < x.g t)).toNat % 2 ^ 32)).setZ ((decide (x.g s < x.g t)).toNat % 2 ^ 32)))) ∧
  (∀ (e : Fin 1024) (d s sh : Fin 32) z, z.dev.engReady e → exec (.slli e d s sh) z = .next (z.after fun D => D.engDone e (let x := D.engView e; (x.wrG d ((x.g s * 2 ^ sh.val) % 2 ^ 32)).setZN ((x.g s * 2 ^ sh.val) % 2 ^ 32)))) ∧
  (∀ (e : Fin 1024) (d s sh : Fin 32) z, z.dev.engReady e → exec (.srli e d s sh) z = .next (z.after fun D => D.engDone e (let x := D.engView e; (x.wrG d ((x.g s / 2 ^ sh.val) % 2 ^ 32)).setZN ((x.g s / 2 ^ sh.val) % 2 ^ 32)))) ∧
  (∀ (e : Fin 1024) (d s sh : Fin 32) z, z.dev.engReady e → exec (.srai e d s sh) z = .next (z.after fun D => D.engDone e (let x := D.engView e; (x.wrG d (sraW 32 (x.g s) sh.val % 2 ^ 32)).setZN (sraW 32 (x.g s) sh.val % 2 ^ 32)))) ∧
  (∀ (e : Fin 1024) (d s : Fin 32) z, z.dev.engReady e → exec (.abs e d s) z = .next (z.after fun D => D.engDone e (let x := D.engView e; ((x.wrG d (unsgn 32 (clampS 32 ((sgn 32 (x.g s)).natAbs : Int)) % 2 ^ 32)).setZN (unsgn 32 (clampS 32 ((sgn 32 (x.g s)).natAbs : Int)) % 2 ^ 32)).setV (decide (x.g s = 2 ^ 31))))) ∧
  (∀ (e : Fin 1024) (d s : Fin 32) z, z.dev.engReady e → exec (.norm e d s) z = .next (z.after fun D => D.engDone e (let x := D.engView e; (x.wrG d (signCount 32 (x.g s) % 2 ^ 32)).setZ (signCount 32 (x.g s) % 2 ^ 32)))) ∧
  (∀ (e : Fin 1024) (d s : Fin 32) z, z.dev.engReady e → exec (.sat16 e d s) z = .next (z.after fun D => D.engDone e (let x := D.engView e; ((x.wrG d (unsgn 32 (clampS 16 (sgn 32 (x.g s))) % 2 ^ 32)).setZN (unsgn 32 (clampS 16 (sgn 32 (x.g s))) % 2 ^ 32)).setV (decide (sgn 32 (x.g s) ≠ clampS 16 (sgn 32 (x.g s))))))) ∧
  (∀ (e : Fin 1024) (d s : Fin 32) z, z.dev.engReady e → exec (.bswap e d s) z = .next (z.after fun D => D.engDone e (let x := D.engView e; (x.wrG d (swap32 (x.g s) % 2 ^ 32))))) ∧
  (∀ (e : Fin 1024) (d s : Fin 32) z, z.dev.engReady e → exec (.clz e d s) z = .next (z.after fun D => D.engDone e (let x := D.engView e; (x.wrG d (leadZeros (x.g s) % 2 ^ 32)).setZ (leadZeros (x.g s) % 2 ^ 32)))) ∧
  (∀ (e : Fin 1024) (d s : Fin 32) z, z.dev.engReady e → exec (.popc e d s) z = .next (z.after fun D => D.engDone e (let x := D.engView e; (x.wrG d (((List.range 32).map (fun i => bits (x.g s) i 1)).sum % 2 ^ 32)).setZ (((List.range 32).map (fun i => bits (x.g s) i 1)).sum % 2 ^ 32)))) ∧
  (∀ (e : Fin 1024) (d s : Fin 32) z, z.dev.engReady e → exec (.brev e d s) z = .next (z.after fun D => D.engDone e (let x := D.engView e; (x.wrG d (((List.range 32).map (fun i => bits (x.g s) (31 - i) 1 * 2 ^ i)).sum % 2 ^ 32)).setZ (((List.range 32).map (fun i => bits (x.g s) (31 - i) 1 * 2 ^ i)).sum % 2 ^ 32))))

/-- Immediates (R362) and bit fields (R376). -/
def Obligations.EngineImmediateAndFieldInstructionsComplete : Prop :=
  (∀ (e : Fin 1024) (d s : Fin 32) (i : BitVec 16) z, z.dev.engReady e → exec (.addi e d s i) z = .next (z.after fun D => D.engDone e (let x := D.engView e; (x.wrG d ((x.g s + sext16 i) % 2 ^ 32)).flagsAdd (x.g s) (sext16 i)))) ∧
  (∀ (e : Fin 1024) (d s : Fin 32) (i : BitVec 16) z, z.dev.engReady e → exec (.andi e d s i) z = .next (z.after fun D => D.engDone e (let x := D.engView e; (x.wrG d ((x.g s &&& i.toNat) % 2 ^ 32)).setZN ((x.g s &&& i.toNat) % 2 ^ 32)))) ∧
  (∀ (e : Fin 1024) (d s : Fin 32) (i : BitVec 16) z, z.dev.engReady e → exec (.ori e d s i) z = .next (z.after fun D => D.engDone e (let x := D.engView e; (x.wrG d ((x.g s ||| i.toNat) % 2 ^ 32)).setZN ((x.g s ||| i.toNat) % 2 ^ 32)))) ∧
  (∀ (e : Fin 1024) (d s : Fin 32) (i : BitVec 16) z, z.dev.engReady e → exec (.xori e d s i) z = .next (z.after fun D => D.engDone e (let x := D.engView e; (x.wrG d ((x.g s ^^^ i.toNat) % 2 ^ 32)).setZN ((x.g s ^^^ i.toNat) % 2 ^ 32)))) ∧
  (∀ (e : Fin 1024) (d s : Fin 32) (i : BitVec 16) z, z.dev.engReady e → exec (.lui e d s i) z = .next (z.after fun D => D.engDone e (let x := D.engView e; (x.wrG d ((i.toNat * 2 ^ 16 + x.g s % 2 ^ 16) % 2 ^ 32))))) ∧
  (∀ (e : Fin 1024) (d s : Fin 32) (i : BitVec 16) z, z.dev.engReady e → exec (.slti e d s i) z = .next (z.after fun D => D.engDone e (let x := D.engView e; (x.wrG d ((decide (sgn 32 (x.g s) < sgn 32 (sext16 i))).toNat % 2 ^ 32)).setZ ((decide (sgn 32 (x.g s) < sgn 32 (sext16 i))).toNat % 2 ^ 32)))) ∧
  (∀ (e : Fin 1024) (d s pos wm1 : Fin 32) z, z.dev.engReady e → pos.val + (wm1.val + 1) ≤ 32 → exec (.extu e d s pos wm1) z = .next (z.after fun D => D.engDone e (let x := D.engView e; (x.wrG d (extu (x.g s) pos (wm1.val + 1) % 2 ^ 32)).setZ (extu (x.g s) pos (wm1.val + 1) % 2 ^ 32)))) ∧
  (∀ (e : Fin 1024) (d s pos wm1 : Fin 32) z, z.dev.engReady e → pos.val + (wm1.val + 1) ≤ 32 → exec (.exts e d s pos wm1) z = .next (z.after fun D => D.engDone e (let x := D.engView e; (x.wrG d (exts (x.g s) pos (wm1.val + 1) % 2 ^ 32)).setZ (exts (x.g s) pos (wm1.val + 1) % 2 ^ 32)))) ∧
  (∀ (e : Fin 1024) (d s pos wm1 : Fin 32) z, z.dev.engReady e → pos.val + (wm1.val + 1) ≤ 32 → exec (.ins e d s pos wm1) z = .next (z.after fun D => D.engDone e (let x := D.engView e; (x.wrG d (insF (x.g d) (x.g s) pos (wm1.val + 1) % 2 ^ 32)).setZ (insF (x.g d) (x.g s) pos (wm1.val + 1) % 2 ^ 32)))) ∧
  (∀ (e : Fin 1024) (d s pos wm1 : Fin 32) z, z.dev.engReady e → 32 < pos.val + (wm1.val + 1) → exec (.extu e d s pos wm1) z = .next (z.after fun D => D.engRaise e excILLEGAL)) ∧
  (∀ (e : Fin 1024) (d s t : Fin 32) z, z.dev.engReady e → (pwReg t (z.dev.engView e)).2 ≠ 0 → (pwReg t (z.dev.engView e)).1 + (pwReg t (z.dev.engView e)).2 ≤ 32 → exec (.extur e d s t) z = .next (z.after fun D => D.engDone e (let x := D.engView e; (x.wrG d (extu (x.g s) (pwReg t x).1 (pwReg t x).2 % 2 ^ 32)).setZ (extu (x.g s) (pwReg t x).1 (pwReg t x).2 % 2 ^ 32)))) ∧
  (∀ (e : Fin 1024) (d s t : Fin 32) z, z.dev.engReady e → (pwReg t (z.dev.engView e)).2 ≠ 0 → (pwReg t (z.dev.engView e)).1 + (pwReg t (z.dev.engView e)).2 ≤ 32 → exec (.extsr e d s t) z = .next (z.after fun D => D.engDone e (let x := D.engView e; (x.wrG d (exts (x.g s) (pwReg t x).1 (pwReg t x).2 % 2 ^ 32)).setZ (exts (x.g s) (pwReg t x).1 (pwReg t x).2 % 2 ^ 32)))) ∧
  (∀ (e : Fin 1024) (d s t : Fin 32) z, z.dev.engReady e → (pwReg t (z.dev.engView e)).2 ≠ 0 → (pwReg t (z.dev.engView e)).1 + (pwReg t (z.dev.engView e)).2 ≤ 32 → exec (.insr e d s t) z = .next (z.after fun D => D.engDone e (let x := D.engView e; (x.wrG d (insF (x.g d) (x.g s) (pwReg t x).1 (pwReg t x).2 % 2 ^ 32)).setZ (insF (x.g d) (x.g s) (pwReg t x).1 (pwReg t x).2 % 2 ^ 32)))) ∧
  (∀ (e : Fin 1024) (d s t sh : Fin 32) z, z.dev.engReady e → exec (.shld e d s t sh) z = .next (z.after fun D => D.engDone e (let x := D.engView e; (x.wrG d ((if sh.val = 0 then x.g s else x.g s * 2 ^ sh.val + x.g t / 2 ^ (32 - sh.val)) % 2 ^ 32)).setZ ((if sh.val = 0 then x.g s else x.g s * 2 ^ sh.val + x.g t / 2 ^ (32 - sh.val)) % 2 ^ 32))))

/-- Vectors (R358, R361) and block exponents (R337, R374, R375). -/
def Obligations.EngineVectorInstructionsComplete : Prop :=
  (∀ (e : Fin 1024) (d s t : Fin 32) z, z.dev.engReady e → vecOk d = true → vecOk s = true → vecOk t = true → exec (.vadd e d s t) z = .next (z.after fun D => D.engDone e (let x := D.engView e; let ex : Nat → Int := (fun l => sgn 16 (lane (x.pair s) l) + sgn 16 (lane (x.pair t) l)); let r := ofLanes (fun l => unsgn 16 (ex l)); let y := (x.wrVec d r).setVZ r; y.setV ((List.range 4).any (fun l => decide (ex l ≠ clampS 16 (ex l))))))) ∧
  (∀ (e : Fin 1024) (d s t : Fin 32) z, z.dev.engReady e → vecOk d = true → vecOk s = true → vecOk t = true → exec (.vsub e d s t) z = .next (z.after fun D => D.engDone e (let x := D.engView e; let ex : Nat → Int := (fun l => sgn 16 (lane (x.pair s) l) - sgn 16 (lane (x.pair t) l)); let r := ofLanes (fun l => unsgn 16 (ex l)); let y := (x.wrVec d r).setVZ r; y.setV ((List.range 4).any (fun l => decide (ex l ≠ clampS 16 (ex l))))))) ∧
  (∀ (e : Fin 1024) (d s t : Fin 32) z, z.dev.engReady e → vecOk d = true → vecOk s = true → vecOk t = true → exec (.vadds e d s t) z = .next (z.after fun D => D.engDone e (let x := D.engView e; let ex : Nat → Int := (fun l => sgn 16 (lane (x.pair s) l) + sgn 16 (lane (x.pair t) l)); let r := ofLanes (fun l => unsgn 16 (clampS 16 (ex l))); let y := (x.wrVec d r).setVZ r; y.setV ((List.range 4).any (fun l => decide (ex l ≠ clampS 16 (ex l))))))) ∧
  (∀ (e : Fin 1024) (d s t : Fin 32) z, z.dev.engReady e → vecOk d = true → vecOk s = true → vecOk t = true → exec (.vsubs e d s t) z = .next (z.after fun D => D.engDone e (let x := D.engView e; let ex : Nat → Int := (fun l => sgn 16 (lane (x.pair s) l) - sgn 16 (lane (x.pair t) l)); let r := ofLanes (fun l => unsgn 16 (clampS 16 (ex l))); let y := (x.wrVec d r).setVZ r; y.setV ((List.range 4).any (fun l => decide (ex l ≠ clampS 16 (ex l))))))) ∧
  (∀ (e : Fin 1024) (d s t : Fin 32) z, z.dev.engReady e → vecOk d = true → vecOk s = true → vecOk t = true → exec (.vmin e d s t) z = .next (z.after fun D => D.engDone e (let x := D.engView e; let ex : Nat → Int := (fun l => min (sgn 16 (lane (x.pair s) l)) (sgn 16 (lane (x.pair t) l))); let r := ofLanes (fun l => unsgn 16 (ex l)); let y := (x.wrVec d r).setVZ r; y))) ∧
  (∀ (e : Fin 1024) (d s t : Fin 32) z, z.dev.engReady e → vecOk d = true → vecOk s = true → vecOk t = true → exec (.vmax e d s t) z = .next (z.after fun D => D.engDone e (let x := D.engView e; let ex : Nat → Int := (fun l => max (sgn 16 (lane (x.pair s) l)) (sgn 16 (lane (x.pair t) l))); let r := ofLanes (fun l => unsgn 16 (ex l)); let y := (x.wrVec d r).setVZ r; y))) ∧
  (∀ (e : Fin 1024) (d s : Fin 32) z, z.dev.engReady e → vecOk d = true → vecOk s = true → exec (.vabs e d s) z = .next (z.after fun D => D.engDone e (let x := D.engView e; let ex : Nat → Int := (fun l => ((sgn 16 (lane (x.pair s) l)).natAbs : Int)); let r := ofLanes (fun l => unsgn 16 (clampS 16 (ex l))); let y := (x.wrVec d r).setVZ r; y.setV ((List.range 4).any (fun l => decide (ex l ≠ clampS 16 (ex l))))))) ∧
  (∀ (e : Fin 1024) (d s t : Fin 32) z, z.dev.engReady e → vecOk d = false → exec (.vadd e d s t) z = .next (z.after fun D => D.engRaise e excILLEGAL)) ∧
  (∀ (e : Fin 1024) (d s sh : Fin 32) z, z.dev.engReady e → vecOk d = true → vecOk s = true → sh.val ≤ 15 → exec (.vsll e d s sh) z = .next (z.after fun D => D.engDone e (let x := D.engView e; let r := ofLanes (fun l => lane (x.pair s) l * 2 ^ sh.val); (x.wrVec d r).setVZ r))) ∧
  (∀ (e : Fin 1024) (d s sh : Fin 32) z, z.dev.engReady e → vecOk d = true → vecOk s = true → sh.val ≤ 15 → exec (.vsrl e d s sh) z = .next (z.after fun D => D.engDone e (let x := D.engView e; let r := ofLanes (fun l => lane (x.pair s) l / 2 ^ sh.val); (x.wrVec d r).setVZ r))) ∧
  (∀ (e : Fin 1024) (d s sh : Fin 32) z, z.dev.engReady e → vecOk d = true → vecOk s = true → sh.val ≤ 15 → exec (.vsra e d s sh) z = .next (z.after fun D => D.engDone e (let x := D.engView e; let r := ofLanes (fun l => sraW 16 (lane (x.pair s) l) sh); (x.wrVec d r).setVZ r))) ∧
  (∀ (e : Fin 1024) (d s sh : Fin 32) z, z.dev.engReady e → vecOk d = true → vecOk s = true → 15 < sh.val → exec (.vsll e d s sh) z = .next (z.after fun D => D.engRaise e excILLEGAL)) ∧
  (∀ (e : Fin 1024) (s : Fin 32) z, z.dev.engReady e → vecOk s = true → exec (.bexpV e s) z = .next (z.after fun D => D.engDone e (let x := D.engView e; x.bexp16 (x.pair s)))) ∧
  (∀ (e : Fin 1024) (m : MemOp) a y z, z.dev.engReady e → (z.dev.engView e).opM m 8 = .ok (a, y) → exec (.bexpM e m false) z = .next (z.after fun D => D.engDone e (y.bexp16 ((D.engView e).load a 8)))) ∧
  (∀ (e : Fin 1024) (m : MemOp) a y z, z.dev.engReady e → (z.dev.engView e).opM m 8 = .ok (a, y) → exec (.bexpM e m true) z = .next (z.after fun D => D.engRaise e excMEM)) ∧
  (∀ (e : Fin 1024) (a : Fin 4) z, z.dev.engReady e → exec (.bexpA e a) z = .next (z.after fun D => D.engDone e (let x := D.engView e; x.lowerBx ((List.range 4).map (fun l => signCount 48 (x.acc a l)))))) ∧
  (∀ (e : Fin 1024) z, z.dev.engReady e → exec (.bxrst e) z = .next (z.after fun D => D.engDone e (let x := D.engView e; x.wrBx 47))) ∧
  (∀ (e : Fin 1024) (d s : Fin 32) z, z.dev.engReady e → vecOk d = true → vecOk s = true → exec (.scalebV e d s) z = .next (z.after fun D => D.engDone e (let x := D.engView e; let b := min (x.rd .plain locBX) 15; x.wrVecLoad d (ofLanes (fun l => scale 16 x.rnd b 0 (lane (x.pair s) l)))))) ∧
  (∀ (e : Fin 1024) (d s sh : Fin 32) z, z.dev.engReady e → vecOk d = true → vecOk s = true → sh.val ≤ 15 → exec (.scalebVr e d s sh) z = .next (z.after fun D => D.engDone e (let x := D.engView e; let b := min (x.rd .plain locBX) 15; x.wrVecLoad d (ofLanes (fun l => scale 16 x.rnd b sh (lane (x.pair s) l)))))) ∧
  (∀ (e : Fin 1024) (a : Fin 4) z, z.dev.engReady e → exec (.scalebA e a) z = .next (z.after fun D => D.engDone e (let x := D.engView e; (List.range 4).foldl (fun (y : EngSt) (l : Nat) => y.wrA a l (scale 48 x.rnd (x.rd .plain locBX) 0 (x.acc a l))) x))) ∧
  (∀ (e : Fin 1024) (a : Fin 4) (sh : Fin 64) z, z.dev.engReady e → sh.val ≤ 47 → exec (.scalebAr e a sh) z = .next (z.after fun D => D.engDone e (let x := D.engView e; (List.range 4).foldl (fun (y : EngSt) (l : Nat) => y.wrA a l (scale 48 x.rnd (x.rd .plain locBX) sh (x.acc a l))) x)))

/-- Multiply-accumulates (R370, R371) and the accumulator group (R372, R373). -/
def Obligations.EngineAccumulateInstructionsComplete : Prop :=
  (∀ (e : Fin 1024) (p : MacP) xa ya y z, z.dev.engReady e → macAddrs (z.dev.engView e) p (macW p.bcx) (macW p.bcy) = .ok (xa, ya, y) → exec (.vmac e p false) z =
    .next (z.after fun D => ((D.engIssued e).count (e / 256) 6 211 (e % 256) 4).setEng e (let x := D.engView e;
      (macLanes y x p.a p.sub p.clr (memLane x p.bcx p.ux xa) (memLane x p.bcy p.uy ya)).moveOn false))) ∧
  (∀ (e : Fin 1024) (p : MacP) c err z, z.dev.engReady e → macAddrs (z.dev.engView e) p (macW p.bcx) (macW p.bcy) = .error c → exec (.vmac e p err) z =
    .next (z.after fun D => D.engRaise e c)) ∧
  (∀ (e : Fin 1024) (p : MacP) xa ya y z, z.dev.engReady e → p.bcy = false → p.mj.val ≠ 0 → macAddrs (z.dev.engView e) p (macW p.bcx) 2 = .ok (xa, ya, y) →
    (z.dev.engView e).addrCheck p.j ((z.dev.engView e).circ p.j ya (-((z.dev.engView e).stepP p.j p.mj 2))) 2 = none →
    bankY ((z.dev.engView e).circ p.j ya (-((z.dev.engView e).stepP p.j p.mj 2))) = true → exec (.tapm e p false) z =
    .next (z.after fun D => ((D.engIssued e).count (e / 256) 6 211 (e % 256) 4).setEng e (let x := D.engView e;
      let y := macLanes y x p.a p.sub p.clr (memLane x p.bcx p.ux xa) (fun _ => op16 p.uy (x.load ya 2));
      ({ y.landTapm true with tapm := some (x.circ p.j ya (-(x.stepP p.j p.mj 2)), x.load ya 2, x.n) } : EngSt).moveOn false))) ∧
  (∀ (e : Fin 1024) (p : MacP) err z, z.dev.engReady e → p.mj.val = 0 → exec (.tapm e p err) z = .next (z.after fun D => D.engRaise e excILLEGAL)) ∧
  (∀ (e : Fin 1024) (q : MacQ) z, z.dev.engReady e → vecOk q.s = true → vecOk q.t = true → exec (.vmacr e q) z =
    .next (z.after fun D => ((D.engIssued e).count (e / 256) 6 211 (e % 256) 4).setEng e (let x := D.engView e;
      (macLanes x x q.a q.sub q.clr (fun l => op16 q.ux (lane (x.pair q.s) (if q.bcx then 0 else l))) (fun l => op16 q.uy (lane (x.pair q.t) (if q.bcy then 0 else l)))).moveOn false))) ∧
  (∀ (e : Fin 1024) (a : Fin 4) (k : Fin 8) (am : Fin 4) (sh : Fin 64) p y z, z.dev.engReady e → sh.val ≤ 47 → (z.dev.engView e).opP k am 8 = .ok (p, y) →
    exec (.sacc e a k am sh false) z = .next (z.after fun D => D.engDone e (let x := D.engView e; (y.store p 8 (accPack x a sh)).stick locSS (accClamps x a sh)))) ∧
  (∀ (e : Fin 1024) (a : Fin 4) (k : Fin 8) (am : Fin 4) (sh : Fin 64) p y z, z.dev.engReady e → sh.val ≤ 47 → (z.dev.engView e).opP k am 8 = .ok (p, y) →
    exec (.sacc e a k am sh true) z = .next (z.after fun D => D.engDone e (let x := D.engView e; ((y.store p 8 (accPack x a sh)).stick locSS (accClamps x a sh)).clearAcc a))) ∧
  (∀ (e : Fin 1024) (g : Fin 32) (a : Fin 4) (sh : Fin 64) z, z.dev.engReady e → sh.val ≤ 47 → vecOk g = true → exec (.pack e g a sh false) z = .next (z.after fun D => D.engDone e (let x := D.engView e; (x.wrVecLoad g (accPack x a sh)).stick locSS (accClamps x a sh)))) ∧
  (∀ (e : Fin 1024) (g : Fin 32) (a : Fin 4) (sh : Fin 64) z, z.dev.engReady e → sh.val ≤ 47 → vecOk g = true → exec (.pack e g a sh true) z = .next (z.after fun D => D.engDone e (let x := D.engView e; ((x.wrVecLoad g (accPack x a sh)).stick locSS (accClamps x a sh)).clearAcc a))) ∧
  (∀ (e : Fin 1024) (a : Fin 4) z, z.dev.engReady e → exec (.clra e a) z = .next (z.after fun D => D.engDone e (let x := D.engView e; x.clearAcc a))) ∧
  (∀ (e : Fin 1024) (g : Fin 32) (a l : Fin 4) z, z.dev.engReady e → exec (.accr e g a l) z = .next (z.after fun D => D.engDone e (let x := D.engView e; x.wrLoad g (x.acc a l)))) ∧
  (∀ (e : Fin 1024) (g : Fin 32) (a l : Fin 4) z, z.dev.engReady e → exec (.accrh e g a l) z = .next (z.after fun D => D.engDone e (let x := D.engView e; x.wrLoad g (unsgn 32 (sgn 16 (x.acc a l / 2 ^ 32)))))) ∧
  (∀ (e : Fin 1024) (a l : Fin 4) (g : Fin 32) z, z.dev.engReady e → vecOk g = true → exec (.accw e a l g) z = .next (z.after fun D => D.engDone e (let x := D.engView e; x.wrA a l (x.pair g)))) ∧
  (∀ (e : Fin 1024) (a l : Fin 4) (g : Fin 32) z, z.dev.engReady e → vecOk g = false → exec (.accw e a l g) z = .next (z.after fun D => D.engRaise e excILLEGAL))

/-- Loads, stores and moves (R359, R360, R363, R364) and codestreams (R377). -/
def Obligations.EngineMemoryInstructionsComplete : Prop :=
  (∀ (e : Fin 1024) (g : Fin 32) (m : MemOp) a y z, z.dev.engReady e → (z.dev.engView e).opM m 2 = .ok (a, y) → exec (.ld e g m 0 false false) z = .next (z.after fun D => D.engDone e (let x := D.engView e; y.wrLoad g (x.load a 2)))) ∧
  (∀ (e : Fin 1024) (g : Fin 32) (m : MemOp) a y z, z.dev.engReady e → (z.dev.engView e).opM m 2 = .ok (a, y) → exec (.ld e g m 0 true false) z = .next (z.after fun D => D.engDone e (let x := D.engView e; y.wrLoad g (unsgn 32 (sgn 16 (x.load a 2)))))) ∧
  (∀ (e : Fin 1024) (g : Fin 32) (m : MemOp) a y z, z.dev.engReady e → (z.dev.engView e).opM m 4 = .ok (a, y) → exec (.ld e g m 1 false false) z = .next (z.after fun D => D.engDone e (let x := D.engView e; y.wrLoad g (x.load a 4)))) ∧
  (∀ (e : Fin 1024) (g : Fin 32) (m : MemOp) a y z, z.dev.engReady e → vecOk g = true → (z.dev.engView e).opM m 8 = .ok (a, y) → exec (.ld e g m 2 false false) z = .next (z.after fun D => D.engDone e (let x := D.engView e; y.wrVecLoad g (x.load a 8)))) ∧
  (∀ (e : Fin 1024) (g : Fin 32) (m : MemOp) err z, z.dev.engReady e → exec (.ld e g m 3 false err) z = .next (z.after fun D => D.engRaise e excILLEGAL)) ∧
  (∀ (e : Fin 1024) (g : Fin 32) (m : MemOp) c z, z.dev.engReady e → (z.dev.engView e).opM m 2 = .error c → exec (.ld e g m 0 false false) z = .next (z.after fun D => D.engRaise e c)) ∧
  (∀ (e : Fin 1024) (g : Fin 32) (m : MemOp) a y z, z.dev.engReady e → (z.dev.engView e).opM m 2 = .ok (a, y) → exec (.st e g m 0) z = .next (z.after fun D => D.engDone e (let x := D.engView e; y.store a 2 (x.g g)))) ∧
  (∀ (e : Fin 1024) (g : Fin 32) (m : MemOp) a y z, z.dev.engReady e → (z.dev.engView e).opM m 4 = .ok (a, y) → exec (.st e g m 1) z = .next (z.after fun D => D.engDone e (let x := D.engView e; y.store a 4 (x.g g)))) ∧
  (∀ (e : Fin 1024) (g : Fin 32) (m : MemOp) a y z, z.dev.engReady e → vecOk g = true → (z.dev.engView e).opM m 8 = .ok (a, y) → exec (.st e g m 2) z = .next (z.after fun D => D.engDone e (let x := D.engView e; y.store a 8 (x.pair g)))) ∧
  (∀ (e : Fin 1024) (i : Fin 32) (m : MemOp) a y z, z.dev.engReady e → (z.dev.engView e).opM m 2 = .ok (a, y) → exec (.lds e i m false) z = .next (z.after fun D => D.engDone e (let x := D.engView e; y.wrSpecial i (x.load a 2) true))) ∧
  (∀ (e : Fin 1024) (i : Fin 32) (m : MemOp) a y z, z.dev.engReady e → (z.dev.engView e).opM m 2 = .ok (a, y) → exec (.sts e i m) z = .next (z.after fun D => D.engDone e (let x := D.engView e; y.store a 2 (x.rd .plain (locX i))))) ∧
  (∀ (e : Fin 1024) (g : Fin 32) (i : Fin 64) z, z.dev.engReady e → specialOk i ((z.dev.engView e).g g) = true → exec (.movs e g i) z = .next (z.after fun D => D.engDone e (let x := D.engView e; x.wrSpecial i (x.g g) false))) ∧
  (∀ (e : Fin 1024) (g : Fin 32) (i : Fin 64) z, z.dev.engReady e → specialOk i ((z.dev.engView e).g g) = false → exec (.movs e g i) z = .next (z.after fun D => D.engRaise e excILLEGAL)) ∧
  (∀ (e : Fin 1024) (g : Fin 32) (i : Fin 64) v z, z.dev.engReady e → (z.dev.engView e).special e i = some v → exec (.movg e g i) z =
    .next (z.after fun D => D.engDone e ((D.engView e).wrG g (if 8 ≤ i.val ∧ i.val < 16 then unsgn 32 (sgn 16 v) else v)))) ∧
  (∀ (e : Fin 1024) (w s t : Fin 32) (k : Fin 8) z, z.dev.engReady e → vecOk w = true → (z.dev.engView e).g (w.val + 1) + (z.dev.engView e).g t < 32 → exec (.putb e w s t k) z = .next (z.after fun D => D.engDone e (let x := D.engView e; let v := x.g s % 2 ^ x.g t; (x.wrLoad w (x.g w ||| v * 2 ^ (32 - x.g (w.val + 1) - x.g t))).wrLoad (w.val + 1) (x.g (w.val + 1) + x.g t)))) ∧
  (∀ (e : Fin 1024) (d r t : Fin 32) (k : Fin 8) err z, z.dev.engReady e → vecOk r = true → d.val ≠ r.val → d.val ≠ r.val + 1 → (z.dev.engView e).g t ≤ (z.dev.engView e).g (r.val + 1) → (z.dev.engView e).g (r.val + 1) ≤ 32 → exec (.getb e d r t k err) z = .next (z.after fun D => D.engDone e (let x := D.engView e; ((x.wrLoad r (x.g r * 2 ^ x.g t)).wrLoad (r.val + 1) (x.g (r.val + 1) - x.g t)).wrLoad d (x.g r / 2 ^ (32 - x.g t)))))

/-- Far accesses and the end of a task (R338, R348, R349, R379, R380). -/
def Obligations.EngineFarInstructionsComplete : Prop :=
  (∀ (e : Fin 1024) (s : Fin 32) (k tag : Fin 8) dir (n : Fin 512) z, z.dev.engReady e → vecOk s = true → (z.dev.engView e).pair s < 2 ^ 63 → (z.dev.engView e).p k % 8 = 0 → (z.dev.engView e).pair s % 8 = 0 → (z.dev.engView e).inOne ((z.dev.engView e).p k) ((n.val + 1) * 8) = true → (z.dev.engView e).tag tag ≠ tagBusy → exec (.xfer e s k tag dir n) z = .next (z.after fun D => D.engDone e (let x := D.engView e; ({ x.setTag tag tagBusy with xfers := x.xfers ++ [{ tag := tag, out := dir, addr := x.pair s, la := x.p k, bytes := (n.val + 1) * 8 }] } : EngSt)))) ∧
  (∀ (e : Fin 1024) (d : Fin 32) (tag : Fin 8) z, z.dev.engReady e → (z.dev.engView e).tag tag = tagBusy → exec (.wait e d tag) z = .next (z.after fun D => D.engIssued e)) ∧
  (∀ (e : Fin 1024) (d : Fin 32) (tag : Fin 8) z, z.dev.engReady e → (z.dev.engView e).tag tag ≠ tagBusy → exec (.wait e d tag) z = .next (z.after fun D => D.engDone e (let x := D.engView e; (x.setTag tag 0).wrNow d (x.tag tag - 2)))) ∧
  (∀ (e : Fin 1024) (d s : Fin 32) (i : BitVec 16) o z, z.dev.engReady e → llOffset ((z.dev.engView e).g s) (sgn 16 i.toNat) = .ok o →
    ((z.dev.engIssued e).packOf (e / 32)).bad.contains (o / 8) = false → exec (.ll e d s i) z =
    .next (z.after fun D => ((D.engIssued e).stalled e).setEng e (({ (D.engView e).wrNow d (((D.engIssued e).packOf (e / 32)).load o 4) with ll := some (o / 64) } : EngSt).moveOn false))) ∧
  (∀ (e : Fin 1024) (d s t : Fin 32) (i : BitVec 11) o z, z.dev.engReady e → llOffset ((z.dev.engView e).g s) (sgn 11 i.toNat) = .ok o →
    (z.dev.engView e).ll ≠ some (o / 64) → exec (.sc e d s t i) z =
    .next (z.after fun D => ((D.engIssued e).stalled e).setEng e (({ (D.engView e).wrNow d 0 with ll := none } : EngSt).moveOn false))) ∧
  (∀ (e : Fin 1024) (d s t : Fin 32) (i : BitVec 11) o z, z.dev.engReady e → llOffset ((z.dev.engView e).g s) (sgn 11 i.toNat) = .ok o →
    (z.dev.engView e).ll = some (o / 64) → exec (.sc e d s t i) z =
    .next (z.after fun D => (((D.engIssued e).stalled e).pmWrite (e / 32) (some e.val) o (numBytes ((D.engView e).g t) 4)).setEng e
      (({ (D.engView e).wrNow d 1 with ll := none } : EngSt).moveOn false))) ∧
  (∀ (e : Fin 1024) (i : Fin 64) (s : Fin 32) (tag : Fin 8) seq kind line frame data g z, z.dev.engReady e → (z.dev.engView e).tag tag ≠ tagBusy →
    (z.dev.engView e).g s < 16384 → ((z.dev.engIssued e).packOf (e / 32)).unitAt ((z.dev.engView e).g s) = some (seq, kind, line, frame, data) →
    (z.dev.engIssued e).slotsFrom (e / 256) 1 (e / 32 % 8) i = [g] →
    ((z.dev.engIssued e).sourceUnit g (BitVec.ofNat 32 seq) kind line frame data).engState e = 1 →
    exec (.send e i s tag) z = .next (z.after fun D =>
      let D' := (D.engIssued e).sourceUnit g (BitVec.ofNat 32 seq) kind line frame data
      (D'.setPack (e / 32) { D'.packOf (e / 32) with sends := (D'.packOf (e / 32)).sends.modify [] i (· ++ [(e.val, tag.val)]) }).setEng e
        (((D.engView e).setTag tag tagBusy).moveOn false))) ∧
  (∀ (e : Fin 1024) (k s : Fin 32) z, z.dev.engReady e → bits ((z.dev.engIssued e).rd F.PK_STIM_stim_en { die := e / 256, u := e / 32 % 8 }) k 1 = 1 →
    ((z.dev.engIssued e).packOf (e / 32)).stim.length < 64 → exec (.stim e k s) z = .next (z.after fun D =>
      let q := (D.engIssued e).packOf (e / 32)
      ((D.engIssued e).setPack (e / 32) { q with stim := q.stim ++ [(k.val, e.val, (D.engView e).g s, (D.engIssued e).sec, (D.engIssued e).ns)] }).setEng e
        ((D.engView e).moveOn false))) ∧
  (∀ (e : Fin 1024) (s : Fin 32) z, z.dev.engReady e →
    (((z.dev.engIssued e).taskEnd e stOK 0 ((z.dev.engView e).g s % 2 ^ 16)).engLeave e (z.dev.engView e)).engState e = 0 → exec (.halt e s) z = .next (z.after fun D =>
      let D' := ((D.engIssued e).taskEnd e stOK 0 ((D.engView e).g s % 2 ^ 16)).engLeave e (D.engView e)
      D'.setEng e (D'.eng e)))

/-- Branches (R333, R342, R365, R366), repeats (R334, R335, R367, R368), undefined encodings (R354). -/
def Obligations.EngineControlInstructionsComplete : Prop :=
  (∀ (e : Fin 1024) (c : Fin 16) (off : BitVec 16) taken z, z.dev.engReady e → (z.dev.engView e).cond c = some taken → exec (.b e c off) z =
    .next (z.after fun D => D.engBranch e ((D.engView e).branch taken ((D.engView e).relTarget off)))) ∧
  (∀ (e : Fin 1024) (c : Fin 16) (off : BitVec 16) z, z.dev.engReady e → 13 ≤ c.val → exec (.b e c off) z = .next (z.after fun D => D.engRaise e excILLEGAL)) ∧
  (∀ (e : Fin 1024) (s : Fin 32) (off : BitVec 16) z, z.dev.engReady e → exec (.bz e s off) z = .next (z.after fun D => D.engBranch e (let x := D.engView e; x.branch (decide (x.gB s = 0)) (x.relTarget off)))) ∧
  (∀ (e : Fin 1024) (s : Fin 32) (off : BitVec 16) z, z.dev.engReady e → exec (.bnz e s off) z = .next (z.after fun D => D.engBranch e (let x := D.engView e; x.branch (decide (x.gB s ≠ 0)) (x.relTarget off)))) ∧
  (∀ (e : Fin 1024) (off : BitVec 16) z, z.dev.engReady e → exec (.j e off) z = .next (z.after fun D => D.engBranch e (let x := D.engView e; x.branch true (4 * off.toNat)))) ∧
  (∀ (e : Fin 1024) (off : BitVec 16) z, z.dev.engReady e → exec (.call e off) z = .next (z.after fun D => D.engBranch e (let x := D.engView e; (x.wrG 31 (x.pc + 12)).branch true (4 * off.toNat)))) ∧
  (∀ (e : Fin 1024) (s : Fin 32) z, z.dev.engReady e → (z.dev.engView e).gB s % 4 = 0 → (z.dev.engView e).gB s < 2 ^ 18 → exec (.jr e s) z = .next (z.after fun D => D.engBranch e (let x := D.engView e; x.branch true (x.gB s)))) ∧
  (∀ (e : Fin 1024) (s : Fin 32) z, z.dev.engReady e → (z.dev.engView e).gB s % 4 ≠ 0 → exec (.jr e s) z = .next (z.after fun D => D.engRaise e excFETCH)) ∧
  (∀ (e : Fin 1024) (s : Fin 32) z, z.dev.engReady e → (z.dev.engView e).gB s % 4 = 0 → (z.dev.engView e).gB s < 2 ^ 18 → exec (.callr e s) z = .next (z.after fun D => D.engBranch e (let x := D.engView e; (x.wrG 31 (x.pc + 12)).branch true (x.gB s)))) ∧
  (∀ (e : Fin 1024) z, z.dev.engReady e → (z.dev.engView e).rd .late locIH ≠ 0 → exec (.reti e) z = .next (z.after fun D => D.engBranch e (let x := D.engView e; ({ x with redirect := some { target := 0, left := 2, reti := true } } : EngSt)))) ∧
  (∀ (e : Fin 1024)  z, z.dev.engReady e → (z.dev.engView e).rd .late locIH = 0 → exec (.reti e ) z = .next (z.after fun D => D.engRaise e excILLEGAL)) ∧
  (∀ (e : Fin 1024) (n : Fin 1024) z, z.dev.engReady e → exec (.rpt e n) z = .next (z.after fun D => D.engDone e (let x := D.engView e; ({ x with rpt := some (n.val + 1) } : EngSt)))) ∧
  (∀ (e : Fin 1024) (s : Fin 32) z, z.dev.engReady e → (z.dev.engView e).g s ≠ 0 → (z.dev.engView e).g s ≤ 1024 → exec (.rptr e s) z = .next (z.after fun D => D.engDone e (let x := D.engView e; ({ x with rpt := some (x.g s) } : EngSt)))) ∧
  (∀ (e : Fin 1024) (len : Fin 1024) (count : Fin 2048) z, z.dev.engReady e → count.val ≤ 1024 → (z.dev.engView e).active 0 = false → (z.dev.engView e).inBlock = false → (z.dev.engView e).pc + 4 * (len.val + 1) < 2 ^ 18 → exec (.rptb e len count) z = .next (z.after fun D => D.engDone e (let x := D.engView e; let y := ((x.wrSoon (locX 32) (count.val)).wrSoon (locX 34) (x.pc + 4)).wrSoon (locX 35) (x.pc + 4 * (len.val + 1)); ({ y with level := 0, inner := none } : EngSt)))) ∧
  (∀ (e : Fin 1024) (len : Fin 1024) (s : Fin 32) z, z.dev.engReady e → (z.dev.engView e).g s ≤ 1024 → (z.dev.engView e).active 0 = false → (z.dev.engView e).inBlock = false → (z.dev.engView e).pc + 4 * (len.val + 1) < 2 ^ 18 → exec (.rptbr e len s) z = .next (z.after fun D => D.engDone e (let x := D.engView e; let y := ((x.wrSoon (locX 32) (x.g s)).wrSoon (locX 34) (x.pc + 4)).wrSoon (locX 35) (x.pc + 4 * (len.val + 1)); ({ y with level := 0, inner := none } : EngSt)))) ∧
  (∀ (e : Fin 1024) z, z.dev.engReady e → exec (.nopInstruction e) z = .next (z.after fun D => D.engDone e (D.engView e))) ∧
  (∀ (e : Fin 1024) (w : BitVec 32) z, z.dev.engReady e → wordOp w.toNat = none → exec (.undefinedEncoding e w) z = .next (z.after fun D => D.engRaise e excILLEGAL))

/-- Interrupts (R339 to R342), context switches (R344), failure (R346), stream rings (R347), halts (R350), the scrub (R324). -/
def Obligations.EngineEventsComplete : Prop :=
  (∀ (e : Fin 1024) s, s.dev.engState e = 1 → s.dev.mode.engines = true → s.dev.flag F.PK_ENG_STAT_stream_pending (engIx e) = true →
    (s.dev.eng e).acceptance = true → (s.dev.eng e).rd .late locIE ≠ 0 → s.dev.urgent e = false →
    exec (.streamInterrupt e) s = .next (s.after fun d =>
      let x := (d.eng e).drain
      (d.setEng e { (((x.put (locX 40) x.pc).put (locX 41) x.status).put locIE 0).put locIH 1 with
        pc := d.rd F.PK_ENG_CFG_vec_line (engIx e) * 64, atEnd := false }).st F.PK_ENG_STAT_stream_pending (engIx e) 0)) ∧
  (∀ (e : Fin 1024) s, s.dev.urgent e = true → (s.dev.eng e).ll.isSome = true →
    exec (.llWaitExpired e) s = .next (s.after fun d => d.setEng e { d.eng e with ll := none, llCut := true })) ∧
  (∀ (e : Fin 1024) t t' d' s, s.dev.engState e = 1 → s.dev.mode.engines = true → s.dev.flag F.PK_ENG_STAT_preempt_pending (engIx e) = true →
    (s.dev.eng e).acceptance = true → (s.dev.eng e).ll = none → (s.dev.eng e).debug = false → s.dev.taskOn e = some t →
    s.dev.clockTask e t = (t', d') →
    exec (.preemptAccept e) s = .next (s.after fun d =>
      ((((d'.setTask e (some { t' with phase := .saving })).setEng e { (d.eng e).drain with atEnd := false }).setEngState e 2).st
        F.PK_ENG_STAT_preempt_pending (engIx e) 0).bump F.PK_ENG_CNT_preempts (engIx e))) ∧
  (∀ (e : Fin 1024) t k c s, s.dev.taskOn e = some t → t.phase = .saving → t.slot = some k → (s.dev.eng e).busy = false → s.dev.engState e = 2 →
    (s.dev.contextSaved e t k).claimant e = some c → ((s.dev.contextSaved e t k).engLeave e (s.dev.eng e)).engFree e = true →
    exec (.contextSaveComplete e) s = .next (s.after fun d => ((d.contextSaved e t k).engLeave e (d.eng e)).dispatch c e 0 2)) ∧
  (∀ (e : Fin 1024) t k s, s.dev.taskOn e = some t → t.phase = .saving → t.slot = some k → (s.dev.eng e).busy = false → s.dev.engState e = 2 →
    (s.dev.contextSaved e t k).claimant e = none →
    exec (.contextSaveComplete e) s = .next (s.after fun d => (d.contextSaved e t k).engLeave e (d.eng e))) ∧
  (∀ (e : Fin 1024) t k s, s.dev.taskOn e = some t → t.phase = .restoring → t.slot = some k → s.dev.engState e = 2 →
    exec (.contextRestoreComplete e) s = .next (s.after fun d =>
      ((d.setEng e (d.contextRead e t k)).setTask e (some { t with phase := .runs, slot := none, since := d.root })).setEngState e 1)) ∧
  (∀ (e : Fin 1024) t t' d' s, s.dev.engState e = 1 → (s.dev.eng e).debug = true → (s.dev.eng e).acceptance = true → (s.dev.eng e).ll = none →
    s.dev.taskOn e = some t → s.dev.clockTask e t = (t', d') →
    exec (.debugHalt e) s = .next (s.after fun d =>
      (((d'.setTask e (some t')).setEng e { (d.eng e).drain with debug := false, atEnd := (d.eng e).atEnd }).setEngState e 3).haltDone e)) ∧
  (∀ (e : Fin 1024) s, s.dev.engState e ≠ 4 → s.dev.engState e ≠ 6 → s.dev.dieOff (engIx e).die = false →
    exec (.engineFailed e) s = .next (s.after fun d =>
      ((d.st F.PK_ENG_STAT_exc (engIx e) excCHECK).st F.PK_ENG_PC_exc_pc (engIx e) (d.eng e).pc).engFail e)) ∧
  (∀ (p : Fin 32) (i : Fin 64) u r f l s, let a : Ix := { die := p / 8, u := p % 8, i := i }
    let base := s.dev.rd F.PK_SRX_CFG_base a * 64
    let n := s.dev.rd F.PK_SRX_CFG_entries a
    let prod := s.dev.rd F.PK_SRX_STAT_produced a
    let lines := s.dev.rd F.PK_SRX_CFG_entry_lines a
    s.dev.packUp p = true → s.dev.mode ≠ .ember → s.dev.mode ≠ .cold → s.dev.sinkUnits (4096 + p / 8 * 512 + p % 8 * 64 + i) = u :: r → u.frags = f :: l →
    s.dev.flag F.PK_SRX_CFG_enable a = true → (prod + 2 ^ 32 - (s.dev.packOf p).load (base + 8) 4) % 2 ^ 32 < n → u.data.length ≤ (lines - 1) * 64 →
    exec (.streamRingDelivery p i) s = .next (s.after fun d =>
      let o := base + 64 + prod % n * lines * 64
      let h := ({ f with frag := 0, first := true, last := true, bytes := 0, resv := false } : LineFrag).header.toNat
      let D := (((d.setSinkUnits (4096 + p / 8 * 512 + p % 8 * 64 + i) r).pmWrite p none o (numBytes h 16 ++ numBytes u.data.length 4)).pmWrite p none (o + 64)
        u.data).addWrap F.PK_SRX_STAT_produced a
      let D := D.pmWrite p none base (numBytes (D.rd F.PK_SRX_STAT_produced a) 4)
      match d.rd F.PK_SRX_CFG_evt a with
      | 1 => D.st F.PK_ENG_STAT_stream_pending { a with i := d.rd F.PK_SRX_CFG_evt_eng a } 1
      | 2 => D.releaseEvent (p / 8 * 2048 + d.rd F.PK_SRX_CFG_evt_queue a)
      | _ => D)) ∧
  (∀ (p : Fin 32) corrected bad s, s.dev.packUp p = true → s.dev.flag F.PK_CFG_pm_scrub { die := p / 8, u := p % 8 } = true →
    exec (.packMemoryScrub p corrected bad) s = .next (s.after fun d =>
      let a : Ix := { die := p / 8, u := p % 8 }
      let d := (d.bump F.PK_PM_ERR_corrected a corrected).bump F.PK_PM_ERR_uncorrectable a bad.length
      bad.foldl (fun (d : Dev) (w : Fin 131072) =>
        d.occur { die := a.die, block := 6, inst := a.u * 32, cls := 13, sev := sevNote, detail := w.val * 8 })
        (d.setPack p { d.packOf p with bad := bad.foldl (fun l w => addNew l w.val) (d.packOf p).bad })))

/-- Acceptance (R384, R385), releases (R386, R399, R400), ticks (R398), queue commands (R409). -/
def Obligations.KennelAcceptanceAndReleaseComplete : Prop :=
  (∀ (q : Fin 8192) l d' s, s.dev.kenRuns (q / 2048) = true → s.dev.flag F.KEN_QCFG_enable (qIx q) = true → s.dev.flag F.KEN_QCFG_tmpl (qIx q) = false →
    s.dev.rd F.KEN_QPTR_head (qIx q) ≠ s.dev.rd F.KEN_QDB_total (qIx q) → s.dev.tokenLeft q = true →
    s.dev.ringSlot q (s.dev.rd F.KEN_QPTR_head (qIx q)) = (some l, d') → (d'.addWrap F.KEN_QPTR_head (qIx q)).descFault q l false = none →
    (Desc.parse l).delay = 0 → (Desc.parse l).period = 0 →
    exec (.descriptorAccept q false) s = .next (s.after fun _ =>
      let D := (d'.addWrap F.KEN_QPTR_head (qIx q)).takeToken q
      (D.toTail (D.newTask q (Desc.parse l) 0 (Desc.parse l).aff none)).nextId)) ∧
  (∀ (q : Fin 8192) l d' s, s.dev.kenRuns (q / 2048) = true → s.dev.flag F.KEN_QCFG_enable (qIx q) = true → s.dev.flag F.KEN_QCFG_tmpl (qIx q) = false →
    s.dev.rd F.KEN_QPTR_head (qIx q) ≠ s.dev.rd F.KEN_QDB_total (qIx q) → s.dev.tokenLeft q = true →
    s.dev.ringSlot q (s.dev.rd F.KEN_QPTR_head (qIx q)) = (some l, d') → (d'.addWrap F.KEN_QPTR_head (qIx q)).descFault q l false = none →
    ¬ ((Desc.parse l).delay = 0 ∧ (Desc.parse l).period = 0) →
    exec (.descriptorAccept q false) s = .next (s.after fun _ =>
      let D := (d'.addWrap F.KEN_QPTR_head (qIx q)).takeToken q
      (D.addDelay (D.delayEntry q (Desc.parse l) false)).nextId)) ∧
  (∀ (q : Fin 8192) l d' code s, s.dev.kenRuns (q / 2048) = true → s.dev.flag F.KEN_QCFG_enable (qIx q) = true → s.dev.flag F.KEN_QCFG_tmpl (qIx q) = false →
    s.dev.rd F.KEN_QPTR_head (qIx q) ≠ s.dev.rd F.KEN_QDB_total (qIx q) → s.dev.tokenLeft q = true →
    s.dev.ringSlot q (s.dev.rd F.KEN_QPTR_head (qIx q)) = (some l, d') → (d'.addWrap F.KEN_QPTR_head (qIx q)).descFault q l false = some code →
    exec (.descriptorAccept q false) s = .next (s.after fun _ =>
      (d'.addWrap F.KEN_QPTR_head (qIx q)).rejectDesc q (Desc.parse l).cookie code)) ∧
  (∀ (q : Fin 8192) l d' s, s.dev.kenRuns (q / 2048) = true → s.dev.flag F.KEN_QCFG_enable (qIx q) = true → s.dev.flag F.KEN_QCFG_tmpl (qIx q) = false →
    s.dev.rd F.KEN_QPTR_head (qIx q) ≠ s.dev.rd F.KEN_QDB_total (qIx q) → s.dev.tokenLeft q = true →
    s.dev.ringSlot q (s.dev.rd F.KEN_QPTR_head (qIx q)) = (some l, d') →
    exec (.descriptorAccept q true) s = .next (s.after fun _ =>
      (d'.addWrap F.KEN_QPTR_head (qIx q)).rejectDesc q (Desc.parse l).cookie 8)) ∧
  (∀ (q : Fin 8192) t s, s.dev.kenRuns (q / 2048) = true → s.dev.flag F.KEN_QCFG_enable (qIx q) = true → s.dev.flag F.KEN_QCFG_tmpl (qIx q) = true →
    s.dev.tmplOf q = some t → s.dev.tokenLeft q = true →
    exec (.templateRelease q) s = .next (s.after fun d =>
      let D := (d.takeToken q).setTmpl q (some { t with next := t.next + 1 })
      (D.toTail (D.newTask q t.desc t.next t.aff (some t.id))).nextId)) ∧
  (∀ (q : Fin 8192) t s, s.dev.kenRuns (q / 2048) = true → s.dev.flag F.KEN_QCFG_enable (qIx q) = true → s.dev.flag F.KEN_QCFG_tmpl (qIx q) = true →
    s.dev.tmplOf q = some t → s.dev.tokenLeft q = false →
    exec (.templateRelease q) s = .next (s.after fun d => d.bump F.KEN_QCNT_missed (qIx q))) ∧
  (∀ (b t : Fin 4) s, s.dev.rd F.KEN_TICK_mode (Ix.on b t) ≠ 0 → s.dev.mode ≠ .ember → s.dev.kenRuns b = true →
    exec (.kennelTick b t) s = .next (s.after fun d => d.tick b t)) ∧
  (∀ (q : Fin 8192) s, s.dev.dieOff (q / 2048) = false → exec (.qcmdFlush q) s = .next (s.after fun d => d.flushQueue q)) ∧
  (∀ (q : Fin 8192) s, s.dev.dieOff (q / 2048) = false → exec (.qcmdCancelPeriodic q) s = .next (s.after fun d => d.cancelEntries q false))

/-- Decisions (R389 to R393), pre-emption (R395), the watchdog (R401). -/
def Obligations.KennelDecisionsComplete : Prop :=
  (∀ (b : Fin 4) (h : Fin 8) e r t s, s.dev.kenRuns b = true → s.dev.laneServes b h = true → s.dev.freeOf (8 * b.val + h.val) = e :: r →
    (e :: r).findSome? (fun e => (s.dev.claimant e).map (fun t => (e, t))) = none → s.dev.heldReady (8 * b.val + h.val) = none →
    s.dev.firstOf (8 * b.val + h.val) (s.dev.offers (8 * b.val + h.val) (fun t => !t.held)) = some t → t.aff = none →
    exec (.dispatchDecision b h) s = .next (s.after fun d => d.dispatch t e 0 2)) ∧
  (∀ (b : Fin 4) (h : Fin 8) e e' r t s, s.dev.kenRuns b = true → s.dev.laneServes b h = true → s.dev.freeOf (8 * b.val + h.val) = e :: r →
    (e :: r).findSome? (fun e => (s.dev.claimant e).map (fun t => (e, t))) = none → s.dev.heldReady (8 * b.val + h.val) = none →
    s.dev.firstOf (8 * b.val + h.val) (s.dev.offers (8 * b.val + h.val) (fun t => !t.held)) = some t → t.aff = some e' → e' / 32 = 8 * b.val + h.val → s.dev.engFree e' = true →
    exec (.dispatchDecision b h) s = .next (s.after fun d => d.dispatch t e' 0 0)) ∧
  (∀ (b : Fin 4) (h : Fin 8) e r t s, s.dev.kenRuns b = true → s.dev.laneServes b h = true → s.dev.freeOf (8 * b.val + h.val) = e :: r →
    (e :: r).findSome? (fun e => (s.dev.claimant e).map (fun t => (e, t))) = none → s.dev.heldReady (8 * b.val + h.val) = none →
    s.dev.firstOf (8 * b.val + h.val) (s.dev.offers (8 * b.val + h.val) (fun t => !t.held)) = none → (s.dev.offers (8 * b.val + h.val) (fun t => t.held)).isEmpty = true →
    s.dev.stealFrom b (stealOrder h) false = some t →
    exec (.dispatchDecision b h) s = .next (s.after fun d =>
      ((d.setQueue t.q ((d.queue t.q).map (fun x => if x.id = t.id then { x with stolen := true } else x))).placeTask (8 * b.val + h.val) { t with stolen := true } 1 3).count
        b 0 201 h 1)) ∧
  (∀ (q : Fin 8192) t e r s, s.dev.kenRuns (q / 2048) = true → (s.dev.queue q).find? (fun t => t.held) = some t →
    (s.dev.setQueue q ((s.dev.queue q).map (fun x => if x.id = t.id then { t with held := false, aff := none } else x))).freeOf
      (8 * (q / 2048) + s.dev.rd F.KEN_QCFG_home (qIx q)) = e :: r →
    exec (.patienceExpired q) s = .next (s.after fun d =>
      (d.setQueue q ((d.queue q).map (fun x => if x.id = t.id then { t with held := false, aff := none } else x))).dispatch
        { t with held := false, aff := none } e 0 1)) ∧
  (∀ (b : Fin 4) (h : Fin 8) e r t s, s.dev.kenRuns b = true → s.dev.laneServes b h = true → s.dev.freeOf (8 * b.val + h.val) = e :: r →
    (s.dev.offers (8 * b.val + h.val) (fun _ => true)).isEmpty = true → s.dev.stealFrom b (stealOrder h) false = none →
    [b.val ^^^ 1, b.val ^^^ 2, b.val ^^^ 3].findSome? (fun v => if s.dev.kenRuns v then s.dev.stealFrom v (h.val :: stealOrder h.val) true else none) = some t →
    exec (.crossDieStealRequest b h) s = .next (s.after fun d => (d.dispatch { t with stolen := true, cross := true } e 1 4).count b 0 201 h 1)) ∧
  (∀ (b : Fin 4) (h : Fin 8) t e v k s, s.dev.kenRuns b = true → s.dev.laneServes b h = true → (s.dev.freeOf (8 * b.val + h.val)).isEmpty = true →
    s.dev.firstOf (8 * b.val + h.val) (s.dev.offers (8 * b.val + h.val) (fun t => !t.held && s.dev.flag F.KEN_QCFG_preemptor (qIx t.q) &&
      !(s.dev.ken.pre.filterMap (fun e => e.2)).contains t.id)) = some t →
    s.dev.victim (8 * b.val + h.val) (s.dev.prio t.q) = some (e, v, k) →
    exec (.preemptionStart b h) s = .next (s.after fun d =>
      let D := (d.setTask e (some { v with slot := some ((8 * b.val + h.val) * 32 + k) })).st F.PK_ENG_STAT_preempt_pending (engIx e) 1
      let D := { D with ken := { D.ken with pre := D.ken.pre.set none e (some t.id) } }
      (D.count b 0 202 h 1).decision 2 t.q e 5 (engCycles (D.root - t.readyAt)))) ∧
  (∀ (e : Fin 1024) t s, s.dev.taskOn e = some t → t.desc.wd ≠ 0 → t.budget = 0 → s.dev.engState e = 1 → (s.dev.eng e).acceptance = true →
    s.dev.mode.engines = true →
    exec (.watchdogExpiry e) s = .next (s.after fun d =>
      let D := (d.decision 5 t.q e 0 0).taskEnd e stWATCHDOG 0 0
      (D.engLeave e (D.eng e)).occur { die := e / 256, block := 6, inst := e % 256, cls := 12, sev := sevNote, detail := t.q }))

/-- Completions (R403, R405), lane takeover (R407), spilled tasks (R388), the return of a base die (R410). -/
def Obligations.KennelCompletionsAndFailuresComplete : Prop :=
  (∀ (b : Fin 4) (r : Fin 256) x rest w d' s, let a := Ix.on b r
    let size := 2 ^ s.dev.rd F.KEN_CR_BASE_size_log2 a
    let prod := s.dev.rd F.KEN_CR_PROD_prod a
    s.dev.flag F.KEN_CR_CFG_enable a = true → s.dev.dieOff b = false → (prod + 2 ^ 32 - s.dev.rd F.KEN_CR_CONS_cons a) % 2 ^ 32 < size →
    s.dev.nextRec (Tbl.get [] s.dev.ken.waiting (b * 256 + r)) = some (x, rest) →
    ({ s.dev with ken := { s.dev.ken with waiting := s.dev.ken.waiting.set [] (b * 256 + r) rest } } : Dev).devWrite none (s.dev.rd F.KEN_CR_BASE_key_id a)
      (s.dev.rd F.KEN_CR_BASE_cr_base a + prod % size * 32) 32 (wordBytes (s.dev.rd F.KEN_CR_BASE_cr_base a + prod % size * 32)
        (x.words.map (BitVec.ofNat 64))) false = some (w, d') →
    exec (.completionWrite b r) s = .next (s.after fun _ =>
      let D := (d'.addWrap F.KEN_CR_PROD_prod a).on x.token (fun d => d.endToken x.q)
      match D.rd F.KEN_CR_CFG_notify a with
      | 1 => D.emit (.hostIrq (D.rd F.KEN_CR_CFG_owner a) (D.rd F.KEN_CR_CFG_vec a))
      | 2 => D.releaseEvent (b * 2048 + D.rd F.KEN_CR_CFG_nq a)
      | _ => D)) ∧
  (∀ (b : Fin 4) (h : Fin 8) s, let up := s.dev.rd F.KEN_STATUS_lane_up (Ix.onDie b)
    bits up h 1 = 1 → bits up 8 1 = 1 → (s.dev.st F.KEN_STATUS_lane_up (Ix.onDie b) (up - 2 ^ h.val)).flag F.KEN_STATUS_spare_busy (Ix.onDie b) = false →
    exec (.dispatchLaneTakeover b h) s = .next (s.after fun d =>
      let D := (d.st F.KEN_STATUS_lane_up (Ix.onDie b) (up - 2 ^ h.val)).st F.KEN_STATUS_spare_busy (Ix.onDie b) 1
      ({ D with ken := { D.ken with standIn := D.ken.standIn.set none b (some h.val) } } : Dev).occur
        { die := b, block := 0, inst := h, cls := 12, sev := sevNote })) ∧
  (∀ (q : Fin 8192) t m s, (s.dev.queue q).find? (fun t => t.spilled) = some t →
    exec (.spillReadReturn q true m) s = .next (s.after fun d =>
      d.setQueue q ((d.queue q).map (fun x => if x.id = t.id then { x with spilled := false } else x)))) ∧
  (∀ (q : Fin 8192) t s, (s.dev.queue q).find? (fun t => t.spilled) = some t →
    exec (.spillReadReturn q false false) s = .next (s.after fun d => (d.unqueue t).complete t stLOST 4 0 none)) ∧
  (∀ (b : Fin 4) s, s.dev.kenRuns b = true → exec (.kennelDieReturn b) s = .next (s.after fun d =>
    let D := (d.ken.lost.filter (fun e => decide (e.1 / 2048 = b.val))).foldl (fun (d : Dev) (e : Nat × Nat) =>
      let d := (d.queueRec (b * 256 + d.rd F.KEN_QSQ_err_ring (qIx e.1))
        { words := d.recWords 0 0 stDIE 0 e.1 none 0 0 (min 65535 e.2) 0 0, eng := none, token := false, q := e.1 }).giveBack b 3 (e.1 % 2048) e.2
      { d with ken := { d.ken with lost := d.ken.lost.set 0 e.1 0 } }) d
    (List.range 2048).foldl (fun (d : Dev) (i : Nat) => d.on (d.flag F.KEN_QCFG_enable (qIx (b * 2048 + i)) && d.flag F.KEN_QCFG_tmpl (qIx (b * 2048 + i)) &&
      (d.tmplOf (b * 2048 + i)).isNone) (fun d => d.queueStart (b * 2048 + i))) D))

/-- Stacks in service (R415 to R420, R436). -/
def Obligations.StackEventsComplete : Prop :=
  (∀ (k : Fin 8) block s, s.dev.stackUp k = true → s.dev.flag F.HBM_CFG_patrol (ctlIx k) = true → block * 64 < stackBytes →
    exec (.patrolScrub k block .clean) s = .next (s.after id)) ∧
  (∀ (k : Fin 8) block s, s.dev.stackUp k = true → s.dev.flag F.HBM_CFG_patrol (ctlIx k) = true → block * 64 < stackBytes →
    exec (.patrolScrub k block .corrected) s = .next (s.after fun d => d.bump F.HBM_ERR_corrected (ctlIx k))) ∧
  (∀ (k : Fin 8) block s, s.dev.stackUp k = true → s.dev.flag F.HBM_CFG_patrol (ctlIx k) = true → block * 64 < stackBytes →
    exec (.patrolScrub k block .uncorrectable) s = .next (s.after fun d =>
      let D := ((d.bump F.HBM_ERR_uncorrectable (ctlIx k)).st F.HBM_ERRADDR_offset (ctlIx k) (block * 64)).st F.HBM_ERRADDR_pc (ctlIx k) (bits (block * 64) 10 5)
      let b := (k.val * stackBytes + block * 64) / 64
      D.setBlk b { D.blkMeta b with poison := true })) ∧
  (∀ (k : Fin 8) row s, s.dev.stackUp k = true → s.dev.flag F.HBM_CFG_ppr_auto (ctlIx k) = true →
    exec (.rowRepair k row false) s = .next (s.after fun d =>
      let D := (d.bump F.HBM_ERR_soft (ctlIx k)).memRecord k sevNote 2 (row % 4096)
      { D with mem := { D.mem with softRows := D.mem.softRows.modify 0 k (· + 1) } })) ∧
  (∀ (k : Fin 8) row s, s.dev.stackUp k = true → s.dev.flag F.HBM_CFG_ppr_auto (ctlIx k) = true →
    exec (.rowRepair k row true) s = .next (s.after fun d =>
      let D := (d.bump F.HBM_ERR_soft (ctlIx k)).memRecord k sevNote 2 (row % 4096)
      ({ D with mem := { D.mem with softRows := D.mem.softRows.modify 0 k (· + 1) } } : Dev).memRecord k sevDegrade 2 (row % 4096))) ∧
  (∀ (k : Fin 8) (pc : Fin 32) s, s.dev.stackUp k = true → let o := s.dev.rd F.HBM_STATUS_pc_failed (ctlIx k)
    bits o pc 1 ≠ 1 → (s.dev.st F.HBM_STATUS_pc_failed (ctlIx k) (o + 2 ^ pc.val)).flag F.HBM_STATUS_spare_used (ctlIx k) = false →
    exec (.pseudoChannelFailed k pc) s = .next (s.after fun d =>
      ((((d.st F.HBM_STATUS_pc_failed (ctlIx k) (o + 2 ^ pc.val)).st F.HBM_STATUS_spare_used (ctlIx k) 1).st F.HBM_STATUS_spare_pc (ctlIx k) pc).st
        F.HBM_STATUS_copying (ctlIx k) 1).memRecord k sevDegrade 2 pc)) ∧
  (∀ (k : Fin 8) (pc : Fin 32) s, s.dev.stackUp k = true → let o := s.dev.rd F.HBM_STATUS_pc_failed (ctlIx k)
    bits o pc 1 ≠ 1 → (s.dev.st F.HBM_STATUS_pc_failed (ctlIx k) (o + 2 ^ pc.val)).flag F.HBM_STATUS_spare_used (ctlIx k) = true →
    exec (.pseudoChannelFailed k pc) s = .next (s.after fun d => (d.st F.HBM_STATUS_pc_failed (ctlIx k) (o + 2 ^ pc.val)).failStack k)) ∧
  (∀ (k : Fin 8) bad s, s.dev.flag F.HBM_STATUS_copying (ctlIx k) = true →
    exec (.pcsCopyComplete k bad) s = .next (s.after fun d =>
      (bad.filter (fun b => decide (b * 64 < stackBytes) && decide (bits (b * 64) 10 5 = d.rd F.HBM_STATUS_spare_pc (ctlIx k)))).foldl
        (fun (d : Dev) (i : Nat) => d.setBlk ((k.val * stackBytes) / 64 + i) { d.blkMeta ((k.val * stackBytes) / 64 + i) with poison := true })
        (d.st F.HBM_STATUS_copying (ctlIx k) 0))) ∧
  (∀ (k : Fin 8) s, s.dev.rd F.HBM_STATUS_state (ctlIx k) ≠ 4 → exec (.stackFailed k) s = .next (s.after fun d =>
    let sev := if d.allMirrored k then sevDegrade else sevStream
    let D := (d.st F.HBM_STATUS_state (ctlIx k) 4).closeDom (.stack k)
    let D := (List.range 64).foldl (fun (d : Dev) (n : Nat) => if d.rd F.CRY_RGN_state (rgnIx k n) ≠ 0 then d.destroyRegion k n else d) D
    (D.unmirror k).occur { die := k.val / 2, block := 3, inst := k.val % 2 * 52, cls := 13, sev := sev, action := 11, detail := k, needs := true,
                           repair := true, res := [resStack k] })) ∧
  (∀ (k : Fin 8) s, s.dev.rd F.HBM_STATUS_state (ctlIx k) = 4 → exec (.stackFailed k) s = .next (s.after id)) ∧
  (∀ (k : Fin 8) (pipe : Fin 52) i r s, bits (s.dev.rd F.CRY_PIPE_up (ctlIx k)) pipe 1 ≠ 0 → s.dev.freePipes k = i :: r →
    exec (.pipelineMismatch k pipe) s = .next (s.after fun d =>
      (((d.st F.KLN_RES_failed (Ix.on (k.val / 2) (pipeUnit k pipe)) 1).setPipe k pipe false).setPipe k i true).occur
        { die := k.val / 2, block := 3, inst := k.val % 2 * 52 + pipe.val, cls := 15, sev := if r = [] then sevDegrade else sevNote, action := 4 }))

/-- KEY commands about keys (R424 to R428, R444) and link keys (R447). -/
def Obligations.KeyCommandsComplete : Prop :=
  (∀ c (key level : BitVec 8) src (kcv : BitVec 32) v d' s, s.dev.hostOpen c grpKEY 1 → badKeyId key.toNat = false →
    let D := s.dev.taken c.fn
    D.keyInPart c.fn key.toNat = true → 1 ≤ level.toNat → level.toNat ≤ 3 → D.rd F.CRY_KEYSTATE_state (Ix.at key.toNat) = 0 →
    D.takeKey c.fn src = (some v, d') → checkValue v = kcv.toNat →
    exec (.keyInstall c key level src kcv) s = .next (s.after fun _ => (d'.enterKey c.fn key.toNat level.toNat kcv.toNat v).succeed c grpKEY 1)) ∧
  (∀ c (key level : BitVec 8) src (kcv : BitVec 32) v d' s, s.dev.hostOpen c grpKEY 1 → badKeyId key.toNat = false →
    let D := s.dev.taken c.fn
    D.keyInPart c.fn key.toNat = true → 1 ≤ level.toNat → level.toNat ≤ 3 → D.rd F.CRY_KEYSTATE_state (Ix.at key.toNat) = 3 →
    D.takeKey c.fn src = (some v, d') → checkValue v = kcv.toNat → d'.rd F.CRY_KEYSTATE_kcv (Ix.at key.toNat) = kcv.toNat →
    d'.rd F.CRY_KEYSTATE_level (Ix.at key.toNat) = level.toNat →
    exec (.keyInstall c key level src kcv) s = .next (s.after fun _ =>
      ((d'.enterKey c.fn key.toNat level.toNat kcv.toNat v).keyReturns key.toNat).succeed c grpKEY 1)) ∧
  (∀ c (key level : BitVec 8) src (kcv : BitVec 32) v d' s, s.dev.hostOpen c grpKEY 1 → badKeyId key.toNat = false →
    let D := s.dev.taken c.fn
    D.keyInPart c.fn key.toNat = true → 1 ≤ level.toNat → level.toNat ≤ 3 → D.rd F.CRY_KEYSTATE_state (Ix.at key.toNat) = 0 →
    D.takeKey c.fn src = (some v, d') → checkValue v ≠ kcv.toNat →
    exec (.keyInstall c key level src kcv) s = .next (s.after fun _ => d'.respond c grpKEY 1 { status := 5 })) ∧
  (∀ c (key : BitVec 8) s, s.dev.hostOpen c grpKEY 2 → badKeyId key.toNat = false → let D := s.dev.taken c.fn
    D.keyInPart c.fn key.toNat = true → D.rd F.CRY_KEYSTATE_state (Ix.at key.toNat) = 1 → (D.keyLevel key.toNat = 3 → D.linkKeyInUse key.toNat = false) →
    exec (.keyRetire c key) s = .next (s.after fun _ =>
      (((D.keyRegions key.toNat).foldl (fun (d : Dev) (x : Nat × Nat) => d.destroyRegion x.1 x.2) D).st F.CRY_KEYSTATE_state (Ix.at key.toNat) 2).succeed c grpKEY 2)) ∧
  (∀ c (key : BitVec 8) s, s.dev.hostOpen c grpKEY 2 → badKeyId key.toNat = false → let D := s.dev.taken c.fn
    D.keyInPart c.fn key.toNat = true → D.rd F.CRY_KEYSTATE_state (Ix.at key.toNat) = 3 → (D.keyLevel key.toNat = 3 → D.linkKeyInUse key.toNat = false) →
    exec (.keyRetire c key) s = .next (s.after fun _ =>
      (((D.keyRegions key.toNat).foldl (fun (d : Dev) (x : Nat × Nat) => d.destroyRegion x.1 x.2) D).freeKey key.toNat).succeed c grpKEY 2)) ∧
  (∀ (key : Fin 128) s, s.dev.rd F.CRY_KEYSTATE_state (Ix.at key) = 2 →
    (List.range 8).any (fun k => decide (s.dev.ledOut (k / 2) 4 (k % 2 * 128 + key.val) ≠ 0)) = false →
    exec (.retirementComplete key) s = .next (s.after fun d => d.freeKey key)) ∧
  (∀ c src v d' s, s.dev.hostOpen c grpKEY 7 → (s.dev.taken c.fn).takeKey c.fn src = (some v, d') →
    exec (.keyBbk c src) s = .next (s.after fun _ =>
      (((({ d' with bbk := { d'.bbk with key := some v, tamperLow := false } } : Dev).st F.HRT_CFG_SEC_tamper_seen {} 0).st F.HRT_CFG_SEC_bbk_valid {} 1).succeed
        c grpKEY 7))) ∧
  (∀ c (key : BitVec 8) s, s.dev.hostOpen c grpKEY 8 → badKeyId key.toNat = false → (s.dev.taken c.fn).keyInPart c.fn key.toNat = true →
    exec (.keyStatus c key) s = .next (s.after fun d =>
      (d.taken c.fn).succeed c grpKEY 8 [(d.taken c.fn).regRead .CRY_KEYSTATE (Ix.at key.toNat)])) ∧
  (∀ (b : Fin 4) (g : Fin 2) s, 3 ≤ s.dev.rd F.CRD_FAR_STAT_state (Ix.on b g) → s.dev.rd F.CRY_LINK_next_key_id (Ix.on b g) ≠ 0 →
    exec (.linkKeySwitchFrame b g) s = .next (s.after fun d =>
      (d.st F.CRY_LINK_key_id (Ix.on b g) (d.rd F.CRY_LINK_next_key_id (Ix.on b g))).st F.CRY_LINK_next_key_id (Ix.on b g) 0)) ∧
  (∀ (b : Fin 4) (g : Fin 2) s, 3 ≤ s.dev.rd F.CRD_FAR_STAT_state (Ix.on b g) → s.dev.rd F.CRY_LINK_next_key_id (Ix.on b g) = 0 →
    exec (.linkKeySwitchFrame b g) s = .next (s.after fun d => d.bump F.CRD_FAR_STAT_bad_pkts (Ix.on b g)))

/-- Regions (R425, R426, R429, R433, R438, R439). -/
def Obligations.RegionCommandsComplete : Prop :=
  (∀ c (key stack n : BitVec 8) (base size metaBase metaUnits : BitVec 32) durable wide s, s.dev.hostOpen c grpKEY 3 → badKeyId key.toNat = false →
    let D := s.dev.taken c.fn
    let a := rgnIx stack.toNat n.toNat
    D.keyInPart c.fn key.toNat = true → stack.toNat < 8 → n.toNat < 64 → 1 ≤ size.toNat → size.toNat ≤ 12287 → 1 ≤ metaUnits.toNat → metaUnits.toNat ≤ 12287 →
    metaBytes (size.toNat * unitBytes) wide ≤ metaUnits.toNat * unitBytes → D.keyState key.toNat = 1 → D.keyLevel key.toNat = 2 → D.rd F.CRY_RGN_state a = 0 →
    D.stackUp stack.toNat = true → D.regionOverlaps stack.toNat base.toNat size.toNat metaBase.toNat metaUnits.toNat = false →
    exec (.keyRegion c key stack n base size metaBase metaUnits durable wide) s = .next (s.after fun _ =>
      let D := (D.clearPages stack.toNat n.toNat).setRgnRec stack.toNat n.toNat RgnRec.fresh
      let D := ((((D.st F.CRY_RGN_state a 1).st F.CRY_RGN_key_id a key.toNat).stB F.CRY_RGN_durable a durable).stB F.CRY_RGN_wide a wide).st F.CRY_RGN_owner a c.fn
      let D := (((D.st F.CRY_RGN_EXT_base a base.toNat).st F.CRY_RGN_EXT_size a size.toNat).st F.CRY_RGN_EXT_meta_base a metaBase.toNat).st
        F.CRY_RGN_EXT_meta_units a metaUnits.toNat
      (D.countRegions key.toNat).succeed c grpKEY 3)) ∧
  (∀ (k : Fin 8) (n : Fin 64) s, s.dev.rd F.CRY_RGN_state (rgnIx k n) = 1 →
    exec (.regionInitComplete k n) s = .next (s.after fun d => d.st F.CRY_RGN_state (rgnIx k n) 2)) ∧
  (∀ c (stack n : BitVec 8) s, s.dev.hostOpen c grpKEY 4 → (s.dev.taken c.fn).regionBad c.fn stack.toNat n.toNat = none →
    exec (.keyRegionFree c stack n) s = .next (s.after fun d => ((d.taken c.fn).destroyRegion stack.toNat n.toNat).succeed c grpKEY 4)) ∧
  (∀ c (stack n : BitVec 8) e s, s.dev.hostOpen c grpKEY 4 → (s.dev.taken c.fn).regionBad c.fn stack.toNat n.toNat = some e →
    exec (.keyRegionFree c stack n) s = .next (s.after fun d => (d.taken c.fn).respond c grpKEY 4 { status := e })) ∧
  (∀ c (stack n : BitVec 8) s, s.dev.hostOpen c grpKEY 5 → let D := s.dev.taken c.fn
    let a := rgnIx stack.toNat n.toNat
    D.regionBad c.fn stack.toNat n.toNat = none → D.flag F.CRY_RGN_wide a = false → D.rd F.CRY_RGN_state a = 2 → D.stackUp stack.toNat = true →
    D.rd F.CRY_RGN_generation a ≠ 2 ^ 24 - 1 →
    exec (.keyRekey c stack n) s = .next (s.after fun _ => (D.startSweep stack.toNat n.toNat).succeed c grpKEY 5)) ∧
  (∀ (k : Fin 8) (n : Fin 64) s, s.dev.rd F.CRY_RGN_state (rgnIx k n) = 3 →
    exec (.rekeySweepComplete k n) s = .next (s.after fun d =>
      let pages := d.rd F.CRY_RGN_EXT_size (rgnIx k n) * 512
      (((List.range pages).foldl (fun (d : Dev) (p : Nat) => d.sweepPage k n p) d).st F.CRY_RGN_CTR_sweep (rgnIx k n) pages).st F.CRY_RGN_state (rgnIx k n) 2)) ∧
  (∀ c (stack n : BitVec 8) (first count : BitVec 32) s, s.dev.hostOpen c grpKEY 6 → let D := s.dev.taken c.fn
    let a := rgnIx stack.toNat n.toNat
    let r := D.rgnRec stack.toNat n.toNat
    D.regionBad c.fn stack.toNat n.toNat = none → D.rd F.CRY_RGN_state a = 4 → D.stackUp stack.toNat = true → r.extents.contains (first.toNat, count.toNat) = true →
    exec (.keyReinit c stack n first count) s = .next (s.after fun _ =>
      let major := D.rd F.CRY_RGN_CTR_major_hw a + 1
      let rest := remove r.extents (first.toNat, count.toNat)
      let D := (D.setRgnRec stack.toNat n.toNat { r with extents := rest }).st F.CRY_RGN_CTR_major_hw a major
      let D' := (List.range count.toNat).foldl (fun (d : Dev) (i : Nat) =>
        d.setPage stack.toNat n.toNat (first.toNat + i) { major := major, minors := [], gen := D.rd F.CRY_RGN_generation a }) D
      ((D'.st F.CRY_RGN_state a (if rest.isEmpty then 2 else 4)).bump F.CRY_CNT_reinits (ctlIx stack.toNat)).succeed c grpKEY 6)) ∧
  (∀ (k : Fin 8) (n : Fin 64) first count s, 2 ≤ s.dev.rd F.CRY_RGN_state (rgnIx k n) → s.dev.flag F.CRY_RGN_durable (rgnIx k n) = false →
    exec (.metadataFailure k n first count) s = .next (s.after fun d =>
      (d.reinitRegion k n).integrity k n (if d.storeOnRegion k n then sevDegrade else sevStream) 9 0)) ∧
  (∀ (k : Fin 8) (n : Fin 64) first count s, 2 ≤ s.dev.rd F.CRY_RGN_state (rgnIx k n) → s.dev.flag F.CRY_RGN_durable (rgnIx k n) = true →
    exec (.metadataFailure k n first count) s = .next (s.after fun d =>
      let r := d.rgnRec k n
      ((d.setRgnRec k n { r with extents := addNew r.extents (first, count) }).st F.CRY_RGN_state (rgnIx k n) 4).integrity k n sevStream 13
        (first + count * 2 ^ 32)))

/-- IMAGE (R101, R104, R105, R112, R463, R464), firmware (R472), the takeover (R469 to R471). -/
def Obligations.ImageCommandsComplete : Prop :=
  (∀ c (slot : BitVec 8) addr (len : BitVec 32) bytes tagOk bad s, s.dev.hostOpen c grpIMAGE 1 → slot.toNat ≤ 1 → 1 ≤ len.toNat → len.toNat ≤ slotBytes →
    let D := s.dev.taken c.fn
    let data := bytes.take len.toNat
    let units := slotBytes / 4096
    let W := (D.bothDirs (fun x => x.setSlot slot.toNat false 0 0)).peatPut (slot.toNat * slotBytes) data
    let W : Dev := { W with peat := { W.peat with badUnits := W.peat.badUnits.filter (fun u => decide (u / units ≠ slot.toNat)) ++
      (bad.filter (fun u => decide (u < units))).map (fun u => slot.toNat * units + u) } }
    D.slotsShut = false → D.slotInUse slot.toNat = false → D.flag F.HRT_CFG_STAT_busy {} = false → data.length = len.toNat →
    W.storedError data (fun k => k = 0) tagOk (fun o m => W.slotBad slot.toNat o m) = none →
    exec (.imageSlotWrite c slot addr len bytes tagOk bad) s = .next (s.after fun _ =>
      (W.newerDir (fun x => x.setSlot slot.toNat true (Hdr.parse data).svn (Hdr.parse data).total)).succeed c grpIMAGE 1 [(Hdr.parse data).svn])) ∧
  (∀ c (slot : BitVec 8) addr (len : BitVec 32) bytes tagOk bad code o s, s.dev.hostOpen c grpIMAGE 1 → slot.toNat ≤ 1 → 1 ≤ len.toNat → len.toNat ≤ slotBytes →
    let D := s.dev.taken c.fn
    let data := bytes.take len.toNat
    let units := slotBytes / 4096
    let W := (D.bothDirs (fun x => x.setSlot slot.toNat false 0 0)).peatPut (slot.toNat * slotBytes) data
    let W : Dev := { W with peat := { W.peat with badUnits := W.peat.badUnits.filter (fun u => decide (u / units ≠ slot.toNat)) ++
      (bad.filter (fun u => decide (u < units))).map (fun u => slot.toNat * units + u) } }
    D.slotsShut = false → D.slotInUse slot.toNat = false → D.flag F.HRT_CFG_STAT_busy {} = false → data.length = len.toNat →
    W.storedError data (fun k => k = 0) tagOk (fun o m => W.slotBad slot.toNat o m) = some (code, o) →
    exec (.imageSlotWrite c slot addr len bytes tagOk bad) s = .next (s.after fun _ =>
      (W.streamErr code 0 o 0 0).respond c grpIMAGE 1 { status := 2, detail := code })) ∧
  (∀ c (src : BitVec 8) addr (len : BitVec 32) s, s.dev.hostOpen c grpIMAGE 2 → src.toNat ≤ 1 → let D := s.dev.taken c.fn
    (D.mode = .rehearse ∨ D.mode = .safe) → D.flag F.HRT_MODE_fence_pin {} = false → D.flag F.HRT_CFG_STAT_busy {} = false →
    D.slotsShut = false → D.slotDir.valid src.toNat = true →
    exec (.imageLoad c src addr len) s = .next (s.after fun _ => D.enterLoad.beginStream .hostLoad src.toNat (some c) c.fn)) ∧
  (∀ c (addr : Word64) (len : BitVec 32) s, s.dev.hostOpen c grpIMAGE 2 → 1 ≤ len.toNat → addr.toNat + len.toNat < 2 ^ 64 → let D := s.dev.taken c.fn
    (D.mode = .rehearse ∨ D.mode = .safe) → D.flag F.HRT_MODE_fence_pin {} = false → D.flag F.HRT_CFG_STAT_busy {} = false →
    exec (.imageLoad c 2#8 addr len) s = .next (s.after fun _ => D.enterLoad.beginStream .hostLoad (if c.fn.val = 63 then 3 else 2) (some c) c.fn)) ∧
  (∀ c s, s.dev.hostOpen c grpIMAGE 3 → (s.dev.taken c.fn).cfg.path = .startup →
    exec (.imageAbort c) s = .next (s.after fun d =>
      let D := d.taken c.fn
      let D := D.streamErr eABORTED (match D.cfg.err with | some e => e.code | none => 0) D.cfg.pos 0 0
      (({ D with pl := { D.pl with shadow := [] } } : Dev).freeController.safeTrigger 1 true).succeed c grpIMAGE 3)) ∧
  (∀ c s, s.dev.hostOpen c grpIMAGE 3 → (s.dev.taken c.fn).cfg.path = .hostLoad →
    exec (.imageAbort c) s = .next (s.after fun d => (d.taken c.fn).abortStream.succeed c grpIMAGE 3)) ∧
  (∀ c (slot : BitVec 8) s, s.dev.hostOpen c grpIMAGE 4 → slot.toNat ≤ 1 →
    exec (.imageBootPref c slot) s = .next (s.after fun d => ((d.taken c.fn).bothDirs (fun x => { x with bootPref := slot.toNat })).succeed c grpIMAGE 4)) ∧
  (∀ c s, s.dev.hostOpen c grpIMAGE 5 → let D := s.dev.taken c.fn
    D.pl.image = true → D.cfg.reached = true → D.fuse.svnFuse < D.cfg.runSvn →
    exec (.imageSvnCommit c) s = .next (s.after fun _ =>
      ({ D with fuse := { D.fuse with svnFuse := D.cfg.runSvn } } : Dev).fuseRegs.succeed c grpIMAGE 5)) ∧
  (∀ c (off : BitVec 32) addr (len : BitVec 32) bytes tagOk s, s.dev.hostOpen c grpIMAGE 6 → let D := s.dev.taken c.fn
    let data := bytes.take len.toNat
    1 ≤ len.toNat → off.toNat + len.toNat ≤ areaSize → D.flag F.HRT_CFG_STAT_busy {} = false → data.length = len.toNat →
    D.storedError data (fun _ => true) tagOk (fun _ _ => false) = none →
    exec (.imageRegionPut c off addr len bytes tagOk) s = .next (s.after fun _ => (D.peatPut (0x69500000 + off.toNat) data).succeed c grpIMAGE 6)) ∧
  (∀ c addr (len : BitVec 32) (x : FwImage) s, s.dev.hostOpen c grpIMAGE 7 → 1 ≤ len.toNat → len.toNat ≤ bankBytes → x.sigOk = true → x.journalOk = true →
    let D := s.dev.taken c.fn
    let B := (D.st F.HRT_HEARTH_fw_staged {} 0).setBank (1 - D.hst.runBank) { version := x.version, svn := x.svn, content := x.content }
    B.fuse.fwSvn ≤ x.svn.val →
    exec (.imageFwStage c addr len (some x)) s = .next (s.after fun _ => (B.st F.HRT_HEARTH_fw_staged {} 1).succeed c grpIMAGE 7)) ∧
  (∀ c commit s, s.dev.hostOpen c grpIMAGE 8 → let D := s.dev.taken c.fn
    D.flag F.HRT_HEARTH_fw_staged {} = true → D.flag F.HRT_HEARTH_standby_ready {} = true →
    exec (.imageFwActivate c commit true true) s = .next (s.after fun _ =>
      let n := 1 - D.hst.runBank
      let v := (D.bank n).version
      let E := (D.st F.HRT_HEARTH_active {} (1 - D.rd F.HRT_HEARTH_active {})).st F.HRT_HEARTH_fw_active {} v
      let E := ({ E with hst := { E.hst with runBank := n, standbyBank := n } } : Dev).st F.HRT_HEARTH_fw_staged {} 0
      let E := { E with hst := { E.hst with bootBank := n },
                        fuse := { E.fuse with fwSvn := if commit then max E.fuse.fwSvn (E.bank n).svn else E.fuse.fwSvn } }
      ((E.st F.HRT_HEARTH_fw_standby {} v).st F.HRT_HEARTH_fw_svn {} E.fuse.fwSvn).succeed c grpIMAGE 8)) ∧
  (∀ missed s, s.dev.clk.held = false → s.dev.mode ≠ .ember → s.dev.flag F.HRT_HEARTH_standby_ready {} = true →
    exec (.hearthTakeover missed) s = .next (s.after fun d => d.takeover missed true))

/-- MODE (R61, R62, R77, R81, R463). -/
def Obligations.ModeCommandsComplete : Prop :=
  (∀ c trig s, s.dev.hostOpen c grpMODE 1 → let D := s.dev.taken c.fn
    modeAllowed D.mode .safe = true → D.mode ≠ .safe →
    exec (.modeSet c 7#8 trig) s = .next (s.after fun _ => let E := D.hostMode .safe; E.respond c grpMODE 1 { status := 0, result := [timeWord D.ht] })) ∧
  (∀ c (mode : BitVec 8) trig t s, s.dev.hostOpen c grpMODE 1 → let D := s.dev.taken c.fn
    mode.toNat ≤ 7 → Mode.ofCode mode.toNat ≠ .safe → modeAllowed D.mode (Mode.ofCode mode.toNat) = true → D.pl.modeWait = none → D.mode ≠ .safe →
    D.mode ≠ .bench → D.trigger trig = .ok t →
    exec (.modeSet c mode trig) s = .next (s.after fun _ =>
      { D with pl := { D.pl with modeWait := some { mode := Mode.ofCode mode.toNat, time := t, trig := trig, cmd := some c } } })) ∧
  (∀ c (mode : BitVec 8) trig s, s.dev.hostOpen c grpMODE 1 → let D := s.dev.taken c.fn
    mode.toNat ≤ 7 → modeAllowed D.mode (Mode.ofCode mode.toNat) = false →
    exec (.modeSet c mode trig) s = .next (s.after fun _ => D.respond c grpMODE 1 { status := 1, detail := D.mode.code })) ∧
  (∀ c railsOk selfCheckOk kept s, s.dev.hostOpen c grpMODE 2 →
    exec (.modeReset c railsOk selfCheckOk kept) s = .next (s.after fun d =>
      ((d.taken c.fn).deviceReset (some F.HRT_RST_CAUSE_host_reset)).powerOn railsOk selfCheckOk kept)) ∧
  (∀ c allow s, s.dev.hostOpen c grpMODE 3 →
    exec (.modeLeash c allow) s = .next (s.after fun d =>
      ({ d.taken c.fn with lsh := { (d.taken c.fn).lsh with allow := allow } } : Dev).succeed c grpMODE 3))

/-- REPAIR (R71 to R76, R187, R418, R463). -/
def Obligations.RepairCommandsComplete : Prop :=
  (∀ c (die : BitVec 8) s, s.dev.hostOpen c grpREPAIR 1 → die.toNat ≤ 3 → let D := s.dev.taken c.fn
    D.dieGone die.toNat = false → die.toNat ≠ D.hearthDie →
    exec (.repairBaseReset c die) s = .next (s.after fun _ => (D.baseReset die.toNat false).succeed c grpREPAIR 1)) ∧
  (∀ c (die : BitVec 8) s, s.dev.hostOpen c grpREPAIR 1 → die.toNat ≤ 3 → let D := s.dev.taken c.fn
    D.dieGone die.toNat = false → die.toNat = D.hearthDie → D.flag F.HRT_HEARTH_standby_ready {} = true →
    exec (.repairBaseReset c die) s = .next (s.after fun _ => ((D.takeover [] false).baseReset die.toNat false).succeed c grpREPAIR 1)) ∧
  (∀ c (die : BitVec 8) s, s.dev.hostOpen c grpREPAIR 1 → die.toNat ≤ 3 → let D := s.dev.taken c.fn
    D.dieGone die.toNat = false → die.toNat = D.hearthDie → D.flag F.HRT_HEARTH_standby_ready {} = false →
    exec (.repairBaseReset c die) s = .next (s.after fun _ => D.respond c grpREPAIR 1 { status := 6 })) ∧
  (∀ c (die : BitVec 8) s, s.dev.hostOpen c grpREPAIR 2 → die.toNat ≤ 11 → let D := s.dev.taken c.fn
    D.dieGone (4 + die.toNat) = false → D.dieGone (die.toNat / 3) = false →
    exec (.repairFabricReset c die) s = .next (s.after fun _ => (D.fabricReset die.toNat).succeed c grpREPAIR 2)) ∧
  (∀ c (die block : BitVec 8) (inst : BitVec 32) s, s.dev.hostOpen c grpREPAIR 3 → die.toNat ≤ 3 → block.toNat ≤ 15 → inst.toNat < blockInsts block.toNat →
    (s.dev.taken c.fn).dieGone die.toNat = false →
    exec (.repairBlockReset c die block inst) s = .next (s.after fun d => ((d.taken c.fn).blockReset die.toNat block.toNat inst.toNat).succeed c grpREPAIR 3)) ∧
  (∀ c (die : BitVec 8) (n : BitVec 32) retest k s, s.dev.hostOpen c grpREPAIR 4 → die.toNat ≤ 3 → n.toNat ≤ 223 → cordAt die.toNat n.toNat = some k →
    let D := s.dev.taken c.fn
    D.cordEndReset k = false → D.cordState k = 5 →
    exec (.repairCord c die n retest) s = .next (s.after fun _ => (D.retrain k retest).succeed c grpREPAIR 4)) ∧
  (∀ c (die : BitVec 8) (n : BitVec 32) retest k s, s.dev.hostOpen c grpREPAIR 4 → die.toNat ≤ 3 → n.toNat ≤ 223 → cordAt die.toNat n.toNat = some k →
    let D := s.dev.taken c.fn
    D.cordEndReset k = false → D.cordState k = 3 →
    exec (.repairCord c die n retest) s = .next (s.after fun _ => ((D.cordOut k).retrain k retest).succeed c grpREPAIR 4)) ∧
  (∀ c (die ctl : BitVec 8) s, s.dev.hostOpen c grpREPAIR 5 → die.toNat ≤ 3 → ctl.toNat ≤ 1 → (s.dev.taken c.fn).dieGone die.toNat = false →
    exec (.repairPpr c die ctl) s = .next (s.after fun d => ((d.taken c.fn).hardRepair (2 * die.toNat + ctl.toNat)).succeed c grpREPAIR 5)) ∧
  (∀ c s, s.dev.hostOpen c grpREPAIR 6 → let D := s.dev.taken c.fn
    D.flag F.HRT_HEARTH_standby_ready {} = false → D.dieGone (2 - D.hearthDie) = false →
    exec (.repairHearth c true) s = .next (s.after fun _ =>
      ((({ D with hst := { D.hst with standbyBank := D.hst.bootBank } } : Dev).st F.HRT_HEARTH_standby_ready {} 1).st F.HRT_HEARTH_fw_standby {}
        (D.bank D.hst.bootBank).version).succeed c grpREPAIR 6)) ∧
  (∀ c s, s.dev.hostOpen c grpREPAIR 6 → (s.dev.taken c.fn).flag F.HRT_HEARTH_standby_ready {} = true →
    exec (.repairHearth c true) s = .next (s.after fun d => (d.taken c.fn).respond c grpREPAIR 6 { status := 1, detail := (d.taken c.fn).mode.code }))

/-- Kiln (R491 to R498, R463, R464). -/
def Obligations.KilnCommandsComplete : Prop :=
  (∀ (b : Fin 4) (u : Fin 410) s, s.dev.mode.kiln = true → s.dev.dieOff b = false → s.dev.slice b = none → s.dev.repairNames b u = false →
    s.dev.kln.wait.find? (fun w => decide (w.die = b.val) && decide (w.unit = u.val)) = none → s.dev.scheduled b u = true → s.dev.unitFailed b u = false →
    s.dev.spareTaken b u = false → s.dev.unitReady b u = true →
    exec (.kilnSliceStart b u true) s = .next (s.after fun d => d.sliceBegin b u none)) ∧
  (∀ (b : Fin 4) (u : Fin 410) s, s.dev.mode.kiln = true → s.dev.dieOff b = false → s.dev.slice b = none → s.dev.repairNames b u = false →
    s.dev.kln.wait.find? (fun w => decide (w.die = b.val) && decide (w.unit = u.val)) = none → s.dev.scheduled b u = true → s.dev.unitFailed b u = false →
    exec (.kilnSliceStart b u false) s = .next (s.after fun d => d.sliceRefused b u none)) ∧
  (∀ (b : Fin 4) (u : Fin 410) w s, s.dev.mode.kiln = true → s.dev.dieOff b = false → s.dev.slice b = none → s.dev.repairNames b u = false →
    s.dev.kln.wait.find? (fun w => decide (w.die = b.val) && decide (w.unit = u.val)) = some w →
    ({ s.dev with kln := { s.dev.kln with wait := s.dev.kln.wait.erase w } } : Dev).unitFailed b u = true →
    exec (.kilnSliceStart b u true) s = .next (s.after fun d =>
      ({ d with kln := { d.kln with wait := d.kln.wait.erase w } } : Dev).sliceBegin b u (some w.cmd))) ∧
  (∀ (b : Fin 4) n sigOk sig err x s, s.dev.slice b = some x →
    exec (.kilnSliceEnd b n sigOk sig err) s = .next (s.after fun d => d.sliceDone b x n sigOk sig.toNat err)) ∧
  (∀ (b : Fin 4) n sig err x s, s.dev.slice b = some x → x.full = false →
    exec (.kilnRecall b n sig err) s = .next (s.after fun d => d.sliceDone b x n true sig.toNat err)) ∧
  (∀ (b : Fin 4) n sig err x s, s.dev.slice b = some x → x.full = true → exec (.kilnRecall b n sig err) s = .next (s.after id)) ∧
  (∀ (b : Fin 4) (u : Fin 410) s, s.dev.flag F.KLN_RES_overdue (Ix.on b u) = false → s.dev.clk.held = false →
    exec (.kilnOverdue b u) s = .next (s.after fun d =>
      let D := d.st F.KLN_RES_overdue (Ix.on b u) 1
      (D.st F.KLN_STATUS_overdue (Ix.onDie b) (min 65535 (D.rd F.KLN_STATUS_overdue (Ix.onDie b) + 1))).occur
        { die := b, block := klnBlock u, inst := klnInst u, cls := 17, sev := sevNote })) ∧
  (∀ c (die block : BitVec 8) (inst : BitVec 32) u s, s.dev.hostOpen c grpKILN 1 → klnUnit block.toNat inst.toNat = some u → die.toNat ≤ 3 →
    let D := s.dev.taken c.fn
    D.dieGone die.toNat = false → D.repairNames die.toNat u = false → (D.unitFailed die.toNat u = true ∨ D.spareTaken die.toNat u = false) →
    exec (.kilnRun c die block inst) s = .next (s.after fun _ =>
      Dev.kilnNext { D with kln := { D.kln with wait := D.kln.wait ++ [{ die := die.toNat, unit := u, cmd := c }] } } die.toNat)) ∧
  (∀ c (die block : BitVec 8) (inst : BitVec 32) u s, s.dev.hostOpen c grpKILN 2 → klnUnit block.toNat inst.toNat = some u → die.toNat ≤ 3 →
    exec (.kilnResult c die block inst) s = .next (s.after fun d =>
      let D := d.taken c.fn
      D.succeed c grpKILN 2 [D.regRead .KLN_RES (Ix.on die.toNat u), D.regRead .KLN_SIG (Ix.on die.toNat u)]))

/-- SPDM without a session (R465, R467). The message codes are those of DMTF DSP0274, the model's choice (log entry 40). -/
def Obligations.SpdmRequestsComplete : Prop :=
  (∀ (fn : Fin 64) s, s.dev.mailOpen fn → exec (.spdmGetVersion fn true) s = .next (s.after fun d => d.emit (.spdm fn 4 [0x12]))) ∧
  (∀ (fn : Fin 64) s, s.dev.mailOpen fn → exec (.spdmGetVersion fn false) s = .next (s.after fun d =>
    (d.bump F.HRT_FN_STAT_ring_err (Ix.at fn)).emit (.spdm fn 0x7F [1]))) ∧
  (∀ (fn : Fin 64) s, s.dev.mailOpen fn → exec (.spdmGetCapabilities fn true) s = .next (s.after fun d => d.emit (.spdm fn 0x61 [spdmCaps]))) ∧
  (∀ (fn : Fin 64) s, s.dev.mailOpen fn → exec (.spdmNegotiateAlgorithms fn true) s = .next (s.after fun d => d.emit (.spdm fn 0x63 [0x80, 2, 0x10, 2]))) ∧
  (∀ (fn : Fin 64) s, s.dev.mailOpen fn → exec (.spdmGetDigests fn true) s = .next (s.after fun d =>
    d.emit (.spdm fn 1 [1, Config.sha384 ((Config.identityChain d.fuse.deviceSn).map (·.toNat))]))) ∧
  (∀ (fn : Fin 64) (off len : Fin 65536) s, s.dev.mailOpen fn → exec (.spdmGetCertificate fn true 0 off len) s = .next (s.after fun d =>
    let part := ((Config.identityChain d.fuse.deviceSn).drop off).take len
    d.emit (.spdm fn 2 ([part.length, (Config.identityChain d.fuse.deviceSn).length - off - part.length] ++ part.map (·.toNat))))) ∧
  (∀ (fn : Fin 64) (slot : Fin 16) (off len : Fin 65536) s, s.dev.mailOpen fn → slot.val ≠ 0 →
    exec (.spdmGetCertificate fn true slot off len) s = .next (s.after fun d => d.emit (.spdm fn 0x7F [1]))) ∧
  (∀ (fn : Fin 64) (nonce : BitVec 256) s, s.dev.mailOpen fn → exec (.spdmChallenge fn true 0 nonce) s = .next (s.after fun d =>
    let (n, d') := d.draw 256
    let (g, d') := d'.draw 768
    d'.emit (.spdm fn 3 [Config.sha384 ((Config.identityChain d.fuse.deviceSn).map (·.toNat)), nonce.toNat, n, g]))) ∧
  (∀ (fn : Fin 64) (index : Byte) (nonce : BitVec 256) s, s.dev.mailOpen fn → 1 ≤ index.toNat → index.toNat ≤ 6 →
    exec (.spdmGetMeasurements fn true index false nonce) s = .next (s.after fun d => d.emit (.spdm fn 0x60 [d.measurement index.toNat]))) ∧
  (∀ (fn : Fin 64) (index : Byte) (nonce : BitVec 256) s, s.dev.mailOpen fn → 1 ≤ index.toNat → index.toNat ≤ 6 →
    exec (.spdmGetMeasurements fn true index true nonce) s = .next (s.after fun d =>
      let (n, d') := d.draw 256
      let (g, d') := d'.draw 768
      d'.emit (.spdm fn 0x60 [d.measurement index.toNat, nonce.toNat, n, g])))

/-- SPDM sessions and key delivery (R466), the sideband (R468). -/
def Obligations.SpdmSessionsAndSidebandComplete : Prop :=
  (∀ (fn : Fin 64) (nonce : BitVec 256) n s, s.dev.mailOpen fn → (List.range 4).find? (fun n => (s.dev.session n).isNone) = some n →
    exec (.spdmKeyExchange fn true nonce) s = .next (s.after fun d =>
      let (x, d') := (d.setSession n (some { fn := fn, finished := false })).draw 768
      let (r, d') := d'.draw 256
      let (g, d') := d'.draw 768
      d'.emit (.spdm fn 0x64 [n, 10, nonce.toNat, r, x, g]))) ∧
  (∀ (fn : Fin 64) (nonce : BitVec 256) s, s.dev.mailOpen fn → (List.range 4).find? (fun n => (s.dev.session n).isNone) = none →
    exec (.spdmKeyExchange fn true nonce) s = .next (s.after fun d => d.emit (.spdm fn 0x7F [0x0A]))) ∧
  (∀ (fn : Fin 64) (n : Fin 4) x s, s.dev.mailOpen fn → s.dev.session n = some x → x.fn = fn.val → x.finished = false →
    exec (.spdmFinish fn true n true) s = .next (s.after fun d => (d.setSession n (some { x with finished := true })).emit (.spdm fn 0x65 [n.val]))) ∧
  (∀ (fn : Fin 64) (n : Fin 4) x s, s.dev.mailOpen fn → s.dev.session n = some x → x.fn = fn.val → x.finished = false →
    exec (.spdmFinish fn true n false) s = .next (s.after fun d => (d.endSession n).emit (.spdm fn 0x7F [6]))) ∧
  (∀ (fn : Fin 64) (n : Fin 4) s, s.dev.mailOpen fn → s.dev.sessionOpen fn n →
    exec (.spdmHeartbeat fn true n) s = .next (s.after fun d => d.emit (.spdm fn 0x68 [n.val]))) ∧
  (∀ (fn : Fin 64) (n : Fin 4) s, s.dev.mailOpen fn → s.dev.sessionOpen fn n →
    exec (.spdmKeyUpdate fn true n) s = .next (s.after fun d => d.emit (.spdm fn 0x69 [n.val]))) ∧
  (∀ (fn : Fin 64) (n : Fin 4) s, s.dev.mailOpen fn → s.dev.sessionOpen fn n →
    exec (.spdmEndSession fn true n) s = .next (s.after fun d => (d.endSession n).emit (.spdm fn 0x6C [n.val]))) ∧
  (∀ (fn : Fin 64) (n : Fin 4) s, s.dev.mailOpen fn → s.dev.session n = none →
    exec (.spdmEndSession fn true n) s = .next (s.after fun d => d.emit (.spdm fn 0x7F [2]))) ∧
  (∀ (fn : Fin 64) (n : Fin 4) (target buffer : BitVec 8) (key : BitVec 256) s, s.dev.mailOpen fn → s.dev.sessionOpen fn n → buffer.toNat ≤ 7 → target.toNat ≤ 63 →
    (target.toNat = fn.val ∨ (fn.val = 0 ∧ s.dev.isVf target.toNat = true)) →
    exec (.keyDeliver fn true n target buffer key) s = .next (s.after fun d =>
      ({ d with hst := { d.hst with keyBuf := d.hst.keyBuf.set none (target.toNat * 8 + buffer.toNat) (some { key := key.toNat, session := n }) } } : Dev).emit
        (.spdm fn 0x7E []))) ∧
  (∀ (fn : Fin 64) (buffer : Fin 8) s, exec (.keyBufferExpiry fn buffer) s = .next (s.after fun d =>
    { d with hst := { d.hst with keyBuf := d.hst.keyBuf.set none (fn.val * 8 + buffer.val) none } })) ∧
  (∀ (n : Fin 4) x s, s.dev.session n = some x → exec (.spdmHeartbeatTimeout n) s = .next (s.after fun d => d.endSession n)) ∧
  (∀ s, s.dev.bmcServed = true → exec (.bmcMessage .malformed) s = .next (s.after fun d =>
    { d with hst := { d.hst with bmcDropped := d.hst.bmcDropped + 1 } })) ∧
  (∀ s, s.dev.bmcServed = true → exec (.bmcMessage .pldm) s = .next (s.after fun d => d.pldm.2.emit (.bmc d.pldm.1))) ∧
  (∀ r s, s.dev.bmcServed = true → exec (.bmcMessage (.spdm r)) s = .next (s.after fun d =>
    (d.spdmAnswer r).2.emit (.bmc ((d.spdmAnswer r).1.1 :: (d.spdmAnswer r).1.2)))) ∧
  (∀ s, s.dev.bmcServed = true → s.dev.fuse.bmcSafe = true → modeAllowed s.dev.mode .safe = true →
    exec .bmcRequestSafe s = .next (s.after fun d => d.safeTrigger 1 true)) ∧
  (∀ s, s.dev.fuse.bmcSafe = false → exec .bmcRequestSafe s = .next (s.after id)) ∧
  (∀ s, exec .bmcClockHeldTimeout s = .next (s.after id))

/-- Faults (R475 to R484, R488 to R490, R501, R502). -/
def Obligations.FaultCommandsComplete : Prop :=
  (∀ (o : FaultIn) s, s.dev.clk.held = false → o.cls.val ≠ 19 → exec (.faultOccurrence o) s = .next (s.after fun d =>
    d.occur { die := o.die, block := o.block, inst := o.inst, cls := o.cls, sev := o.sev, action := o.action, sub := o.sub, fn := o.fn,
              detail := o.detail.toNat, needs := o.needs, repair := o.repair, res := o.res })) ∧
  (∀ (o : FaultIn) s, s.dev.clk.held = false → o.cls.val = 19 → o.die.val < 4 → exec (.faultOccurrence o) s = .next (s.after fun d =>
    (d.st F.LDG_STATUS_tmr_uncorr (Ix.onDie o.die) 1).occur
      { die := o.die, block := o.block, inst := o.inst, cls := o.cls, sev := o.sev, action := o.action, sub := o.sub, fn := o.fn,
        detail := o.detail.toNat, needs := o.needs, repair := o.repair, res := o.res })) ∧
  (∀ k r a res s, Tbl.get none s.dev.flt.ring k = some r → (r.stage = 1 ∨ r.stage = 2) →
    exec (.handlingActionDone k (.proceeds a res)) s = .next (s.after fun d => ((d.putRec k (some { r with action := a, res := res })).resched).repairMode)) ∧
  (∀ k r a s, Tbl.get none s.dev.flt.ring k = some r → r.stage = 1 → k < 256 →
    exec (.handlingActionDone k (.closes a)) s = .next (s.after fun d =>
      ((d.putRec k (some { r with action := a, openR := false, stage := 0, res := [] })).entryFreed.resched).repairMode)) ∧
  (∀ k r s, Tbl.get none s.dev.flt.ring k = some r → r.stage = 1 → k < 256 → r.sev ≠ sevDevice →
    exec (.handlingActionDone k .unresolved) s = .next (s.after fun d =>
      ((d.putRec k (some { r with unresolved := true, openR := false, stage := 0, res := [] })).entryFreed.resched).repairMode)) ∧
  (∀ k r s, Tbl.get none s.dev.flt.ring k = some r → r.stage = 1 → k < 256 → r.sev = sevDevice →
    exec (.handlingActionDone k .unresolved) s = .next (s.after fun d =>
      (((d.putRec k (some { r with unresolved := true, openR := false, stage := 0, res := [] })).entryFreed.resched).repairMode).safeTrigger 5 false)) ∧
  (∀ k old s, s.dev.flag F.FLT_STATUS_overflow {} = true → s.dev.lowestOpen = some (k, old) →
    exec .ringOverflowEscalation s = .next (s.after fun d =>
      let r : FltRec :=
        { sec := d.sec % 2 ^ 32, ns := d.ns, seq := d.rd F.FLT_STATUS_seq_next {}, era := d.flt.era, die := d.hearthDie, block := 12, inst := 0, sub := 0, cls := 22,
          sev := sevDevice, action := 15, openR := false, merged := false, preempted := false, unresolved := false, count := 1, fn := 255, detail := 5,
          repair := false, stage := 0, res := [] }
      let D := (d.addWrap F.FLT_STATUS_seq_next {}).bump (sevFld F.FLT_OVF_note F.FLT_OVF_degrade F.FLT_OVF_stream F.FLT_OVF_device old.sev) {}
      let D := (D.putRec (256 + old.seq) (some old)).storeRec k r
      ((D.st F.FLT_STATUS_escalated {} 1).st F.FLT_STATUS_overflow {} 0).resched.safeTrigger 5 true)) ∧
  (∀ w (b : Fin 4) v s d', s.dev.writeLands w (F.FLT_INJECT_go.addr {} + 0x10000000 * b) v.toNat d' →
    exec (.fltInject w b v true) s = .next (s.after fun _ => d')) ∧
  (∀ (f : Fin 12) s, s.dev.clk.held = false → s.dev.clk.failed.contains (4 + f) = false → s.dev.clk.inReset.contains (4 + f) = false →
    exec (.fabricDieFailed f) s = .next (s.after fun d =>
      let D := d.fabricReset f
      ({ D with clk := { D.clk with failed := addNew D.clk.failed (4 + f) } } : Dev).occur
        { die := 4 + f, block := 0, inst := 0, cls := 1, sev := if d.allTwinned f then sevDegrade else sevStream, action := 11, detail := f, needs := true,
          repair := true, res := [resDie (4 + f)] })) ∧
  (∀ (b : Fin 4) s, s.dev.clk.held = false → s.dev.clk.failed.contains b.val = false → s.dev.clk.inReset.contains b.val = false → b.val ≠ s.dev.hearthDie →
    exec (.baseDieFailed b) s = .next (s.after fun d =>
      let D := d.baseReset b true
      let D := { D with clk := { D.clk with failed := addNew D.clk.failed b.val } }
      let D := (List.range 3).foldl (fun (d : Dev) (i : Nat) => d.fabricDieFailed (3 * b + i)) D
      let D := (D.failStack (2 * b)).failStack (2 * b + 1)
      let D := (cordsOf b).foldl (fun (d : Dev) (c : CordId) =>
        match cordEnds c with
        | (some x, some y) => if x.die = b ∧ y.die ≠ b then d.heldCredits y.die 1 (d.cord c).outst.sum else d
        | _ => d) D
      D.occur { die := b, block := 15, inst := 0, cls := 16, sev := if d.dieProtected b then sevDegrade else sevStream, action := 11, detail := b, needs := true,
                repair := true, res := [resDie b] }))

/-- The credit ledger (R31, R499, R500). -/
def Obligations.LedgerCommandsComplete : Prop :=
  (∀ (b : Fin 4) s, s.dev.clk.held = false → s.dev.dieOff b = false → exec (.ledgerAudit b) s = .next (s.after fun d =>
    (d.st F.LDG_AUDIT_ns (Ix.onDie b) d.ns).st F.LDG_AUDIT_sec (Ix.onDie b) d.sec)) ∧
  (∀ (b : Fin 4) (kind : Fin 5) (inst : Fin 4096) (diff : BitVec 32) s, s.dev.clk.held = false → s.dev.dieOff b = false →
    s.dev.led.draining.contains (ledKey b kind inst) = false →
    exec (.ledgerMismatch b kind inst diff) s = .next (s.after fun d =>
      let k := ledKey b kind inst
      let again := match Tbl.get none d.led.last k with
        | some t => decide (d.root - t < 1000 * msCycles)
        | none => false
      let D := { d with led := { d.led with draining := addNew d.led.draining k, last := d.led.last.set none k (some d.root) } }
      let D := ((D.st F.LDG_MISMATCH_kind (Ix.onDie b) kind).st F.LDG_MISMATCH_instance (Ix.onDie b) inst).st F.LDG_MISMATCH_diff (Ix.onDie b) diff.toNat
      ((D.bump F.LDG_STATUS_mismatches (Ix.onDie b)).st F.LDG_STATUS_resyncing (Ix.onDie b) 1).ledgerRecord b kind inst diff.toNat
        (if again then sevDegrade else sevNote))) ∧
  (∀ (b : Fin 4) (kind : Fin 5) (inst : Fin 4096) s, s.dev.led.draining.contains (ledKey b kind inst) = true → (kind.val = 0 → s.dev.inputEmpty b inst = true) →
    exec (.ledgerDrainComplete b kind inst) s = .next (s.after fun d => (d.resync b kind inst).drained b kind inst)) ∧
  (∀ (b : Fin 4) (inst : Fin 4096) (slot : Fin 1024) s, s.dev.led.draining.contains (ledKey b 0 inst) = true →
    exec (.ledgerDrainTimeout b 0 inst slot) s = .next (s.after fun d =>
      ((d.blockReset b 2 (inst / 64)).drained b 0 inst).ledgerRecord b 0 inst
        ((d.blockReset b 2 (inst / 64)).rd F.LDG_MISMATCH_diff (Ix.onDie b)) sevStream)) ∧
  (∀ (b : Fin 4) (inst : Fin 4096) (slot : Fin 1024) s, s.dev.led.draining.contains (ledKey b 2 inst) = true →
    exec (.ledgerDrainTimeout b 2 inst slot) s = .next (s.after fun d =>
      ((d.blockReset b 1 slot).drained b 2 inst).ledgerRecord b 2 inst ((d.blockReset b 1 slot).rd F.LDG_MISMATCH_diff (Ix.onDie b)) sevStream))

/-- Rails and domains (R507 to R511), EMBER (R511 to R520). -/
def Obligations.PowerCommandsComplete : Prop :=
  (∀ (b : Fin 4) (r : Fin 8) (mv : Fin 2048) s, s.dev.clk.held = false → (s.dev.railRead b r mv).flag F.PWR_RAIL_valid (Ix.on b r) = true →
    exec (.railExcursion b r mv) s = .next (s.after fun d => d.railRead b r mv)) ∧
  (∀ (b : Fin 4) (r : Fin 8) (mv : Fin 2048) s, s.dev.clk.held = false → let D := (s.dev.railRead b r mv).bump F.PWR_RAIL_excursions (Ix.on b r)
    (s.dev.railRead b r mv).flag F.PWR_RAIL_valid (Ix.on b r) = false → D.mode ≠ .cold → Tbl.get none D.pwr.railAt (b * 8 + r) = none →
    exec (.railExcursion b r mv) s = .next (s.after fun _ =>
      ({ D with pwr := { D.pwr with railAt := D.pwr.railAt.set none (b * 8 + r) (some D.root) } } : Dev).powerRecord b r sevNote)) ∧
  (∀ (b : Fin 4) (r : Fin 8) (mv : Fin 2048) t s, s.dev.clk.held = false → let D := (s.dev.railRead b r mv).bump F.PWR_RAIL_excursions (Ix.on b r)
    (s.dev.railRead b r mv).flag F.PWR_RAIL_valid (Ix.on b r) = false → D.mode ≠ .cold → Tbl.get none D.pwr.railAt (b * 8 + r) = some t →
    D.root < t + 1000 * msCycles →
    exec (.railExcursion b r mv) s = .next (s.after fun _ => D)) ∧
  (∀ (b : Fin 4) (p : Fin 8) x s, let n : Fin 54 := ⟨p, by omega⟩
    bits (s.dev.plainValue' .PWR_GATE (Ix.onDie b)) n 1 ≠ 1 → s.dev.dieOff b = false → gateDom b n = some x → s.dev.domShut x = true →
    exec (.domainWake b n) s = .next (s.after fun d =>
      (((List.range 32).foldl (fun (d : Dev) (i : Nat) => d.on (decide (d.engState ((8 * b.val + p.val) * 32 + i) = 6))
        (fun d => d.setEngState ((8 * b.val + p.val) * 32 + i) 0)) d).openDom x).retryHeld)) ∧
  (∀ pin s, s.dev.clk.held = false → s.dev.mode ≠ .cold → s.dev.mode ≠ .ember →
    exec (.sagDetected pin) s = .next (s.after fun d =>
      let D := ((List.range 4).foldl (fun (d : Dev) (b : Nat) => d.bump F.PWR_STATUS_sags (Ix.onDie b)) d).on pin (fun d => d.pwrAll F.PWR_STATUS_sag_pin 1)
      let E := { D with pwr := { D.pwr with seq := (D.pwr.seq + 1) % 2 ^ 32, cause := if pin then 2 else 1, sagAt := D.root, sagHt := D.ht, newer := true,
                                            repairReturn := D.rd F.HRT_MODE_return_mode {} } }
      let E := ((E.setMode .ember D.mode).emit (.pin "EMBER_N" false)).fence
      let E := (E.pwrAll F.PWR_STATUS_ember 1).pwrAll F.PWR_STATUS_retention_lost 0
      (((E.pwrAll F.PWR_EMBER_seq E.pwr.seq).pwrAll F.PWR_EMBER_complete 0).pwrAll F.PWR_EMBER_resumed 0).emberStop.charge)) ∧
  (∀ s, s.dev.mode = .ember → s.dev.flag F.PWR_EMBER_complete {} = false →
    exec .emberRecordComplete s = .next (s.after fun d =>
      let D := { d with pwr := { d.pwr with record := some d.emberRecord, newer := false } }
      ((D.pwrAll F.PWR_EMBER_complete 1).pwrAll F.PWR_EMBER_us ((D.root - D.pwr.sagAt) / 3200)).pwrAll F.PWR_STATUS_ember 2)) ∧
  (∀ s, s.dev.mode = .ember → s.dev.flag F.PWR_EMBER_complete {} = true → s.dev.flag F.PWR_STATUS_retention_lost {} = false →
    exec .emberResume s = .next (s.after fun d =>
      let D := (d.railsValid.pwrAll F.PWR_STATUS_sag_pin 0).pwrAll F.PWR_STATUS_ember 0
      let D := { D with pwr := { D.pwr with record := D.pwr.record.map (fun (r : EmberRec) => { r with consumed := true }) } }
      ((D.pwrAll F.PWR_EMBER_resumed 1).emit (.pin "EMBER_N" true)).emberGoOn.emberMode.charge)) ∧
  (∀ s, s.dev.mode = .ember → exec .emberWindowEnd s = .next (s.after fun d =>
    (d.deviceReset (some F.HRT_RST_CAUSE_ember_cold)).emit (.pin "EMBER_N" true))) ∧
  (∀ s, s.dev.mode = .ember → exec .vholdDepleted s = .next (s.after fun d =>
    (d.deviceReset (some F.HRT_RST_CAUSE_ember_cold)).emit (.pin "EMBER_N" true))) ∧
  (∀ (b : Fin 4) (r : Fin 8) s, s.dev.mode = .ember → 1 ≤ r.val → r.val < 4 →
    exec (.retentionLevelCrossed b r) s = .next (s.after fun d => (d.pwrAll F.PWR_STATUS_retention_lost 1).st F.PWR_RAIL_valid (Ix.on b r) 0)) ∧
  (∀ (mv : Fin 16384) s, s.dev.clk.held = false → exec (.vholdThreshold mv) s = .next (s.after fun d => (d.pwrAll F.PWR_STATUS_vhold_mv mv).charge)) ∧
  (∀ (uf : Fin 16384) s, s.dev.clk.held = false → s.dev.mode ≠ .ember → s.dev.flag F.PWR_HOLD_cap_test {} = true → 1720 ≤ uf.val →
    exec (.capacitanceMeasurement uf) s = .next (s.after fun d =>
      ({ d with pwr := { d.pwr with capOk := true, capAsked := false } } : Dev).st F.PWR_HOLD_cap_uf {} uf)) ∧
  (∀ (uf : Fin 16384) s, s.dev.clk.held = false → s.dev.mode ≠ .ember → s.dev.flag F.PWR_HOLD_cap_test {} = true → uf.val < 1720 →
    exec (.capacitanceMeasurement uf) s = .next (s.after fun d =>
      (({ d with pwr := { d.pwr with capOk := false, capAsked := false } } : Dev).st F.PWR_HOLD_cap_uf {} uf).powerRecord 0 0 sevDegrade))

/-- Temperature (R568, R571). -/
def Obligations.TemperatureCommandsComplete : Prop :=
  (∀ (b : Fin 4) (k : Fin 6) valid (v : BitVec 11) long i t s, (s.dev.tempRead b k valid v).clk.held = false →
    (s.dev.tempRead b k valid v).hottest = some (i, t) → (s.dev.tempRead b k valid v).thermalLevel t long = 0 →
    exec (.thermalReading b k valid v long) s = .next (s.after fun d =>
      let D := d.tempRead b k valid v
      { D with pwr := { D.pwr with level := 0 } })) ∧
  (∀ (b : Fin 4) (k : Fin 6) valid (v : BitVec 11) long i t s, (s.dev.tempRead b k valid v).clk.held = false →
    (s.dev.tempRead b k valid v).hottest = some (i, t) → (s.dev.tempRead b k valid v).thermalLevel t long = 1 → (s.dev.tempRead b k valid v).pwr.level = 0 →
    exec (.thermalReading b k valid v long) s = .next (s.after fun d =>
      let D := d.tempRead b k valid v
      ({ D with pwr := { D.pwr with level := 1 } } : Dev).thermalRecord i sevNote 0)) ∧
  (∀ (b : Fin 4) (k : Fin 6) valid (v : BitVec 11) long i t s, (s.dev.tempRead b k valid v).clk.held = false →
    (s.dev.tempRead b k valid v).hottest = some (i, t) → (s.dev.tempRead b k valid v).thermalLevel t long = 3 → (s.dev.tempRead b k valid v).pwr.level = 2 →
    exec (.thermalReading b k valid v long) s = .next (s.after fun d =>
      let D := d.tempRead b k valid v
      (({ D with pwr := { D.pwr with level := 3 } } : Dev).thermalRecord i sevDevice 14).safeTrigger 5 true)) ∧
  (∀ (b : Fin 4) (k : Fin 6) (t : BitVec 11) s, 920 < tempOf t.toNat →
    exec (.thermtrip (.hot b k t)) s = .next (s.after fun d =>
      let D := (((d.tempRead b k true t).thermalRecord (b * 6 + k) sevDevice 8).emit (.pin "THERMTRIP_N" false)).deviceReset none
      { D with pwr := { D.pwr with trip := true } })) ∧
  (∀ (b : Fin 4) s, exec (.thermtrip (.invalid b)) s = .next (s.after fun d =>
      let D := ((d.thermalRecord (b * 6) sevDevice 8).emit (.pin "THERMTRIP_N" false)).deviceReset none
      { D with pwr := { D.pwr with trip := true } })) ∧
  (∀ (b : Fin 4) (k : Fin 6) (t : BitVec 11) s, tempOf t.toNat ≤ 920 → exec (.thermtrip (.hot b k t)) s = .next (s.after id))

/-- Observation (R522, R526 to R533). -/
def Obligations.ObservationCommandsComplete : Prop :=
  (∀ w (b : Fin 4) (n : Fin 256) (v : Word64) same s d', s.dev.writeLands w (F.EVT_CNT_count.addr (Ix.on b n)) v.toNat d' →
    s.dev.obs.evtOn.contains (b * 256 + n) = true → exec (.evtCntWrite w b n v same) s = .next (s.after fun _ => d'.addCount (Ix.on b n) same)) ∧
  (∀ w (b : Fin 4) (n : Fin 256) (v : Word64) same s d', s.dev.writeLands w (F.EVT_CNT_count.addr (Ix.on b n)) v.toNat d' →
    s.dev.obs.evtOn.contains (b * 256 + n) = false → exec (.evtCntWrite w b n v same) s = .next (s.after fun _ => d')) ∧
  (∀ (b : Fin 4) s, s.dev.clk.held = false → s.dev.mode ≠ .cold → s.dev.dieOff b = false → s.dev.rd F.EVT_SNAP_snap_mode (Ix.onDie b) ≠ 0 →
    s.dev.flag F.EVT_TR_CFG_src_snap (Ix.onDie b) = true →
    exec (.eventSnapshot b) s = .next (s.after fun d =>
      let D := ((List.range 256).filter (fun n => d.flag F.EVT_SEL_snap (Ix.on b n))).foldl (fun (d : Dev) (n : Nat) =>
        d.trace b 4 3 b n [d.rd F.EVT_CNT_count (Ix.on b n), d.rd F.EVT_SEL_ovf (Ix.on b n)]) d
      (List.range 3).foldl (fun (d : Dev) (k : Nat) =>
        ((List.range 32).filter (fun n => d.flag F.FAB_EVT_SEL_snap (Ix.on (3 * b.val + k) n))).foldl (fun (d : Dev) (n : Nat) =>
          d.trace b 4 3 (4 + (3 * b.val + k)) n
            [d.rd F.FAB_EVT_CNT_count (Ix.on (3 * b.val + k) n), d.rd F.FAB_EVT_SEL_ovf (Ix.on (3 * b.val + k) n)]) d) D)) ∧
  (∀ (b : Fin 4) s, s.dev.clk.held = false → s.dev.mode ≠ .cold → s.dev.dieOff b = false → s.dev.rd F.EVT_TR_CFG_sink (Ix.onDie b) ≠ 0 →
    exec (.traceSync b) s = .next (s.after fun d =>
      let D := d.traceLoss b 6
      let t := D.rd F.EVT_TR_STAT_tseq (Ix.onDie b)
      D.trace b 6 6 b 0 [D.fuse.deviceSn, D.sec % 2 ^ 48 + t % 2 ^ 16 * 2 ^ 48, t / 2 ^ 16])) ∧
  (∀ (b : Fin 4) p r s, s.dev.clk.held = false → s.dev.mode ≠ .cold → s.dev.mode ≠ .ember → s.dev.dieOff b = false → Tbl.get [] s.dev.obs.fifo b = p :: r →
    s.dev.rd F.EVT_TR_CFG_sink (Ix.onDie b) = 1 → exec (.tracePacketOut b) s = .next (s.after fun d => d.traceHbm b p)) ∧
  (∀ (b : Fin 4) p r s, s.dev.clk.held = false → s.dev.mode ≠ .cold → s.dev.mode ≠ .ember → s.dev.dieOff b = false → Tbl.get [] s.dev.obs.fifo b = p :: r →
    s.dev.rd F.EVT_TR_CFG_sink (Ix.onDie b) = 2 → 2 ≤ s.dev.rd F.LN_NL_STAT_state (Ix.on b (s.dev.rd F.EVT_TR_CFG_link (Ix.onDie b))) →
    exec (.tracePacketOut b) s = .next (s.after fun d =>
      ((d.tracePop b).emit (.traceOut b 2 p)).nlOffer b (d.rd F.EVT_TR_CFG_link (Ix.onDie b)) (BitVec.ofNat 512 (leNat p.bytes)))) ∧
  (∀ (b : Fin 4) p r s, s.dev.clk.held = false → s.dev.mode ≠ .cold → s.dev.mode ≠ .ember → s.dev.dieOff b = false → Tbl.get [] s.dev.obs.fifo b = p :: r →
    s.dev.rd F.EVT_TR_CFG_sink (Ix.onDie b) = 4 →
    exec (.tracePacketOut b) s = .next (s.after fun d => d.traceForward b (d.rd F.EVT_TR_CFG_fwd_die (Ix.onDie b)) p)) ∧
  (∀ w (b : Fin 4) (v : Word64) s d', s.dev.writeLands w (F.EVT_TR_POP_pop.addr (Ix.onDie b)) v.toNat d' →
    exec (.evtTrPop w b v) s = .next (s.after fun _ => d')) ∧
  (∀ (f : Fin 12) (port : Fin 256) (data : Word64) s, let a := Ix.on f (port.val / 32)
    s.dev.fab.step9 = true → s.dev.mode ≠ .ember → s.dev.mode ≠ .cold → s.dev.clk.inReset.contains (4 + f.val) = false →
    s.dev.fab.ungated.contains (netKey f (s.dev.rd F.FAB_STIM_st_clk a)) = true → bits (s.dev.rd F.FAB_STIM_en a) (port % 32) 1 ≠ 0 →
    (Tbl.get [] s.dev.obs.stim (f.val * 8 + port.val / 32)).length < 64 →
    exec (.fabricStimulusWrite f port data) s = .next (s.after fun d =>
      let q := Tbl.get [] d.obs.stim (f.val * 8 + port.val / 32) ++ [(port.val, data.toNat, d.sec, d.ns)]
      { d with obs := { d.obs with stim := d.obs.stim.set [] (f.val * 8 + port.val / 32) q } })) ∧
  (∀ (f : Fin 12) (port : Fin 256) (data : Word64) s, let a := Ix.on f (port.val / 32)
    s.dev.fab.step9 = true → s.dev.mode ≠ .ember → s.dev.mode ≠ .cold → s.dev.clk.inReset.contains (4 + f.val) = false →
    s.dev.fab.ungated.contains (netKey f (s.dev.rd F.FAB_STIM_st_clk a)) = true → bits (s.dev.rd F.FAB_STIM_en a) (port % 32) 1 ≠ 0 →
    64 ≤ (Tbl.get [] s.dev.obs.stim (f.val * 8 + port.val / 32)).length →
    exec (.fabricStimulusWrite f port data) s = .next (s.after fun d => d.bump F.FAB_STIM_stim_drop a))

/-- Frames (R536 to R538), unlock (R539 to R543), boundary scan (R535, R566). -/
def Obligations.LeashSessionCommandsComplete : Prop :=
  (∀ fr s, s.dev.portOpen fr → exec (.ident fr) s = .next (s.after fun d => d.ack 1 (numBytes (d.regRead .HRT_ID {}) 8 ++ numBytes d.fuse.deviceSn 8))) ∧
  (∀ fr s, s.dev.lshOpen = true → fr.parityOk = false → exec (.ident fr) s = .next (s.after fun d => (d.bump F.LSH_STAT_parity_err {}).ack 2)) ∧
  (∀ fr s, s.dev.portOpen fr → exec (.leashChallenge fr) s = .next (s.after fun d =>
    let (v, d') := d.draw 384
    ({ d' with lsh := { d'.lsh with nonce := some v } } : Dev).ack 1 (numBytes v 48))) ∧
  (∀ fr (rights slot : Byte) pub s, s.dev.portOpen fr → slot.toNat ≤ 3 → (rights = 1#8 ∨ (rights = 2#8 ∧ s.dev.controlBarred = false)) →
    s.dev.fuse.ownerHash.getD slot.toNat 0 = Config.sha384 [pub] → bits s.dev.fuse.ownerRevoke slot.toNat 1 = 0 → s.dev.lsh.nonce.isSome = true →
    s.dev.lsh.lockUntil ≤ s.dev.root →
    exec (.unlockSig fr rights slot pub true) s = .next (s.after fun d =>
      let D := { d with lsh := { d.lsh with nonce := none, fails := 0, lockUntil := 0 } }
      let D := ((D.st F.LSH_STAT_rights {} rights.toNat).st F.LSH_STAT_method {} 0).st F.LSH_STAT_owner_slot {} slot.toNat
      (D.on (rights.toNat = 2) (fun d => d.st F.LSH_STAT_ctl_held {} 1)).ack 1)) ∧
  (∀ fr (rights slot : Byte) pub s, s.dev.portOpen fr → slot.toNat ≤ 3 → (rights = 1#8 ∨ (rights = 2#8 ∧ s.dev.controlBarred = false)) →
    exec (.unlockSig fr rights slot pub false) s = .next (s.after fun d =>
      let k := d.lsh.fails + 1
      let D := { d with lsh := { d.lsh with fails := k, nonce := none, lockUntil := d.root + 2 ^ min (k - 1) 6 * 1000 * msCycles } }
      ((D.bump F.LSH_STAT_unlock_fail {}).occur { die := 0, block := 14, inst := 0, cls := 16, sev := sevNote }).ack 4)) ∧
  (∀ fr (rights : Byte) s, s.dev.portOpen fr → (rights = 1#8 ∨ (rights = 2#8 ∧ s.dev.controlBarred = false)) → s.dev.fuse.leashPassOff = false →
    s.dev.fuse.leashPassHash ≠ 0 → s.dev.lsh.nonce.isSome = true → s.dev.lsh.lockUntil ≤ s.dev.root →
    exec (.unlockPass fr rights true) s = .next (s.after fun d =>
      let D := { d with lsh := { d.lsh with nonce := none, fails := 0, lockUntil := 0 } }
      let D := ((D.st F.LSH_STAT_rights {} rights.toNat).st F.LSH_STAT_method {} 1).st F.LSH_STAT_owner_slot {} 0
      (D.on (rights.toNat = 2) (fun d => d.st F.LSH_STAT_ctl_held {} 1)).ack 1)) ∧
  (∀ fr s, s.dev.portOpen fr → s.dev.controlBarred = true → exec (.unlockPass fr 2#8 true) s = .next (s.after fun d => d.ack 3)) ∧
  (∀ fr s, s.dev.sessionPort fr → exec (.close fr) s = .next (s.after fun d => d.closeSession.ack 1)) ∧
  (∀ fr s, s.dev.portOpen fr → s.dev.rd F.LSH_STAT_rights {} = 0 → exec (.close fr) s = .next (s.after fun d => d.ack 4)) ∧
  (∀ fr s, s.dev.lshOpen = true → fr.parityOk = true → exec (.unknownLeashCommand fr 0x05#8) s = .next (s.after fun d => (d.bump F.LSH_STAT_bad_pkts {}).ack 5)) ∧
  (∀ s, exec .leashFrameReset s = .next (s.after fun d => { d with lsh := { d.lsh with wait := none } })) ∧
  (∀ s, s.dev.lshOpen = true → exec .leashCkStall s = .next (s.after fun d => d.bump F.LSH_STAT_bad_pkts {})) ∧
  (∀ s, s.dev.lsh.wait.isSome = true → exec .leashCommandTimeout s = .next (s.after fun d =>
    ({ d with lsh := { d.lsh with wait := none } } : Dev).ack 6 (numBytes Resp.timeout.code 1))) ∧
  (∀ s, s.dev.rd F.LSH_STAT_rights {} ≠ 0 → s.dev.mode ≠ .ember → exec .leashIdleTimeout s = .next (s.after fun d => d.closeSession)) ∧
  (∀ s, exec .nonceExpiry s = .next (s.after fun d => { d with lsh := { d.lsh with nonce := none } })) ∧
  (∀ s, exec .idcode s = .next (s.after fun d => d.tapShift 0x01 0x1129616F)) ∧
  (∀ pins load s, exec (.samplePreload pins load) s = .next (s.after fun d => d.tapScan 0x02 pins load)) ∧
  (∀ pins load s, s.dev.tapActs = true → exec (.extest pins load) s = .next (s.after fun d => d.tapScan 0x03 pins load)) ∧
  (∀ pins load s, s.dev.tapActs = false → exec (.extest pins load) s = .next (s.after fun d => d.tapShift 0x03 0)) ∧
  (∀ pins load s, s.dev.tapActs = true → exec (.extestPulse pins load) s = .next (s.after fun d => d.tapScan 0x04 pins load)) ∧
  (∀ pins load s, s.dev.tapActs = true → exec (.extestTrain pins load) s = .next (s.after fun d => d.tapScan 0x05 pins load)) ∧
  (∀ s, exec .clamp s = .next (s.after fun d => d.tapShift 0x06 0)) ∧
  (∀ s, exec .highz s = .next (s.after fun d => d.tapShift 0x07 0)) ∧
  (∀ s, exec .bypass s = .next (s.after fun d => d.tapShift 0xFF 0))

/-- Accesses (R544 to R546), run control (R547 to R549). -/
def Obligations.LeashAccessAndRunControlComplete : Prop :=
  (∀ fr (addr : Word64) ans a s, s.dev.sessionPort fr → s.dev.lshReads = true → lshAddr addr = some (0, a) → isControl a = true → s.dev.dieOff (baseOfAddr a) = false →
    exec (.leashRead fr addr ans) s = .next (s.after fun d => d.ack 1 (numBytes (d.peekAt a).1 8 ++ numBytes (d.peekAt a).2.toNat 1))) ∧
  (∀ fr (addr : Word64) ans key a l d' s, s.dev.sessionPort fr → s.dev.lshReads = true → lshAddr addr = some (key, a) → (key = 0 ∨ key = 126) →
    isControl a = false → s.dev.lshMemory key a 8 = true → s.dev.serveRead key a 8 ans = some (.done, l, d') →
    exec (.leashRead fr addr ans) s = .next (s.after fun _ => d'.ack 1 (l ++ [0#8]))) ∧
  (∀ fr (addr : Word64) ans s, s.dev.portOpen fr → s.dev.rd F.LSH_STAT_rights {} = 0 → exec (.leashRead fr addr ans) s = .next (s.after fun d => d.ack 4)) ∧
  (∀ fr (addr : Word64) ans a v d' s, s.dev.sessionPort fr → s.dev.lshReads = true → s.dev.lshControl = true → lshAddr addr = some (0, a) → isControl a = true →
    s.dev.dieOff (baseOfAddr a) = false → s.dev.readAt a = (v, d') →
    exec (.consume fr addr ans) s = .next (s.after fun _ => d'.ack 1 (numBytes v 8 ++ [0#8]))) ∧
  (∀ fr (addr : Word64) ans s, s.dev.sessionPort fr → s.dev.lshControl = false → exec (.consume fr addr ans) s = .next (s.after fun d => d.ack 3)) ∧
  (∀ fr (addr value : Word64) ans a d' s, s.dev.sessionPort fr → s.dev.lshWrites = true → lshAddr addr = some (0, a) → isControl a = true → lshNever a = false →
    s.dev.dieOff (baseOfAddr a) = false → s.dev.writeAt .leash a value.toNat true = (.done, d') →
    exec (.leashWrite fr addr value ans) s = .next (s.after fun _ => d'.ack 1)) ∧
  (∀ fr (addr value : Word64) ans a s, s.dev.sessionPort fr → s.dev.lshWrites = true → lshAddr addr = some (0, a) → isControl a = true → lshNever a = true →
    exec (.leashWrite fr addr value ans) s = .next (s.after fun d => d.ack 3)) ∧
  (∀ fr (addr value : Word64) ans s, s.dev.sessionPort fr → s.dev.lshWrites = false → exec (.leashWrite fr addr value ans) s = .next (s.after fun d => d.ack 3)) ∧
  (∀ fr (addr : Word64) (count : Byte) ans key a l d' s, s.dev.sessionPort fr → s.dev.lshReads = true → lshAddr addr = some (key, a) → 1 ≤ count.toNat →
    count.toNat ≤ 28 → isControl a = false → s.dev.lshMemory key a (8 * count.toNat) = true → Dev.lshBlock key ans count.toNat a 0 s.dev = (.ok l, d') →
    exec (.readBlk fr addr count ans) s = .next (s.after fun _ => d'.ack 1 l)) ∧
  (∀ fr s, s.dev.sessionPort fr → s.dev.lshBench = true → s.dev.mode = .rehearse →
    exec (.benchEnter fr) s = .next (s.after fun d => (d.setMode .bench .bench).ack 1)) ∧
  (∀ fr s, s.dev.sessionPort fr → s.dev.lshBench = true → s.dev.mode = .bench → exec (.benchLeave fr) s = .next (s.after fun d => d.leaveBench.ack 1)) ∧
  (∀ fr (eng : BitVec 16) s, s.dev.enginePort fr eng.toNat → s.dev.engState eng.toNat = 0 → exec (.leashHalt fr eng) s = .next (s.after fun d =>
    (d.setEngState eng.toNat 3).ack 1 ((d.setEngState eng.toNat 3).haltInfo eng.toNat))) ∧
  (∀ fr (eng : BitVec 16) s, s.dev.enginePort fr eng.toNat → s.dev.engState eng.toNat = 1 → exec (.leashHalt fr eng) s = .next (s.after fun d =>
    { d.setEng eng.toNat { d.eng eng.toNat with debug := true } with lsh := { d.lsh with wait := some (.halt eng.toNat) } })) ∧
  (∀ fr (eng : BitVec 16) (n : Byte) s, s.dev.enginePort fr eng.toNat → 1 ≤ n.toNat → s.dev.engState eng.toNat = 3 → exec (.step fr eng n) s = .next (s.after fun d =>
    Dev.stepRun eng.toNat n.toNat (d.setEng eng.toNat { d.eng eng.toNat with excHeld := none }))) ∧
  (∀ fr (eng : BitVec 16) s, s.dev.enginePort fr eng.toNat → s.dev.engState eng.toNat = 3 → exec (.leashResume fr eng 0#8) s = .next (s.after fun d =>
    (d.resumeEngine eng.toNat).ack 1)) ∧
  (∀ fr (eng : BitVec 16) s, s.dev.enginePort fr eng.toNat → s.dev.engState eng.toNat = 3 → exec (.leashResume fr eng 1#8) s = .next (s.after fun d =>
    ((d.taskEnd eng.toNat stEXCEPTION ((d.eng eng.toNat).excHeld.getD 0) 0).engLeave eng.toNat (d.eng eng.toNat)).ack 1)) ∧
  (∀ fr (eng off : BitVec 16) s, s.dev.enginePort fr eng.toNat → off.toNat % 4 = 0 → off.toNat ≤ 0x1B4 → s.dev.engState eng.toNat = 3 →
    exec (.engRead fr eng off) s = .next (s.after fun d => d.ack 1 (numBytes ((d.eng eng.toNat).areaWord (off.toNat / 4)) 4))) ∧
  (∀ fr (eng off : BitVec 16) (v : BitVec 32) s, s.dev.enginePort fr eng.toNat → off.toNat % 4 = 0 → off.toNat ≤ 0x1B4 →
    areaWritable (off.toNat / 4) v.toNat = true → s.dev.engState eng.toNat = 3 →
    exec (.engWrite fr eng off v) s = .next (s.after fun d => (d.setEng eng.toNat ((d.eng eng.toNat).putArea (off.toNat / 4) v.toNat)).ack 1)) ∧
  (∀ fr (eng off : BitVec 16) (v : BitVec 32) s, s.dev.enginePort fr eng.toNat → off.toNat % 4 = 0 → off.toNat ≤ 0x1B4 →
    areaWritable (off.toNat / 4) v.toNat = true → s.dev.engState eng.toNat ≠ 3 →
    exec (.engWrite fr eng off v) s = .next (s.after fun d => d.ack 7 (numBytes (d.engState eng.toNat) 1))) ∧
  (∀ fr (eng : BitVec 16) (on : Byte) s, s.dev.enginePort fr eng.toNat → on.toNat ≤ 1 → exec (.excHalt fr eng on) s = .next (s.after fun d =>
    let e := eng.toNat
    let v := d.rd F.LSH_EXC_exc (Ix.at (e / 64))
    let D := d.st F.LSH_EXC_exc (Ix.at (e / 64)) (v - bits v (e % 64) 1 * 2 ^ (e % 64) + on.toNat * 2 ^ (e % 64))
    (D.setEng e { D.eng e with excHalt := decide (on.toNat = 1) }).ack 1))

/-- The queue is first in, first out; what the empty queue does is the model's choice (log entry 1). -/
def Obligations.StepTakesTheFrontCommand : Prop :=
  (∀ c r (s : State), step { s with pending := c :: r } = exec c { s with pending := r }) ∧
  (∀ s, s.pending = [] → step s = .next (s.after Dev.rootCycle))

/-- The meanings are total; the one fault is that of a stream header of another length than R87 gives it. -/
def Obligations.EveryWellFormedCommandCompletes : Prop :=
  (∀ (c : Instr) s, c.wf = true → ∃ t, exec c s = .next t) ∧
  (∀ x s, x.length ≠ 256 → exec (.streamHeader x) s = .fault (.illFormed "STREAM_HEADER")) ∧
  (∀ (c : Instr) s r, exec c s ≠ .refused r)

/-- The effect of a command is on everything but the queue. -/
def Obligations.CommandsLeaveTheQueue : Prop :=
  (∀ c s t, exec c s = .next t → t.pending = s.pending) ∧
  (∀ s t, step s = .next t → t.pending = s.pending.tail)

/-- R64, R77, R80, R82, R544, over every command of the table and over idle steps: what no command may break. -/
def Obligations.EveryStepEndsInASafeState : Prop :=
  ∀ s t, step s = .next t → t.safe

/-- The invariant of `EveryStepEndsInASafeState` at reset; the memory's form is the model's (log entry 6). -/
def Obligations.ResetIsSafe : Prop :=
  State.reset.safe ∧ Memory.wf State.reset.dev.mem.hbm = true ∧ State.reset.dev.mode = .cold ∧ State.reset.dev.flag F.HRT_MODE_fenced {} = true ∧
  State.reset.dev.rd F.LSH_STAT_rights {} = 0 ∧ State.reset.pending = []

/-- Completion and safety together, over runs of any length: R64, R77, R80, R82. -/
def Obligations.RunsOfWellFormedCommandsAreSafe : Prop :=
  ∀ n (s : State), s.safe → (∀ c ∈ s.pending, c.wf = true) → s.safeFor n

/-- R43, R61, R66; values the spec does not give are the model's (log entry 7). -/
def Obligations.ResetValues : Prop :=
  (∀ f a, State.reset.dev.rd f a = f.reset) ∧ State.reset.dev.rd F.HT_RATE_rate {} = 0x5000000000 ∧ State.reset.dev.clk.held = true ∧ State.reset.dev.ht = 0 ∧
  State.reset.dev.mem.hbm = [] ∧ State.reset.dev.pl.active = [] ∧ State.reset.dev.pl.txn = [] ∧ State.reset.dev.ln.lanes = [] ∧
  (∀ e, State.reset.dev.eng e = EngSt.fresh) ∧ (∀ p, State.reset.dev.packOf p = PackSt.fresh) ∧ (∀ e, State.reset.dev.taskOn e = none) ∧
  State.reset.dev.hst.sessions = [] ∧ State.reset.dev.lsh.nonce = none

/-- R333. A branch resolves on the flags and registers as branches see them (`cond`, `gB`); the two instructions after it issue, then pc is its target. -/
def Obligations.DelaySlots : Prop :=
  (∀ (e : Fin 1024) (c : Fin 16) (off : BitVec 16) t z, z.dev.engReady e → (z.dev.engView e).cond c = some t → exec (.b e c off) z = .next (z.after fun D => D.engBranch e ((D.engView e).branch t ((D.engView e).relTarget off)))) ∧
  (∀ (e : Fin 1024) (s : Fin 32) (off : BitVec 16) z, z.dev.engReady e → exec (.bz e s off) z = .next (z.after fun D => D.engBranch e ((D.engView e).branch (decide ((D.engView e).gB s = 0)) ((D.engView e).relTarget off)))) ∧
  (∀ (e : Fin 1024) (s : Fin 32) (off : BitVec 16) z, z.dev.engReady e → exec (.bnz e s off) z = .next (z.after fun D => D.engBranch e ((D.engView e).branch (decide ((D.engView e).gB s ≠ 0)) ((D.engView e).relTarget off)))) ∧
  (∀ (e : Fin 1024) (off : BitVec 16) z, z.dev.engReady e → exec (.j e off) z = .next (z.after fun D => D.engBranch e ((D.engView e).branch true (4 * off.toNat)))) ∧
  (∀ (e : Fin 1024) (off : BitVec 16) z, z.dev.engReady e → exec (.call e off) z = .next (z.after fun D => D.engBranch e (((D.engView e).wrG 31 ((D.engView e).pc + 12)).branch true (4 * off.toNat)))) ∧
  (∀ (e : Fin 1024) (s : Fin 32) t z, z.dev.engReady e → regTarget (z.dev.engView e) s = .ok t → exec (.jr e s) z = .next (z.after fun D => D.engBranch e ((D.engView e).branch true t))) ∧
  (∀ (e : Fin 1024) (s : Fin 32) t z, z.dev.engReady e → regTarget (z.dev.engView e) s = .ok t → exec (.callr e s) z = .next (z.after fun D => D.engBranch e (((D.engView e).wrG 31 ((D.engView e).pc + 12)).branch true t))) ∧
  (∀ (e : Fin 1024) z, z.dev.engReady e → (z.dev.engView e).rd .late locIH ≠ 0 → exec (.reti e) z = .next (z.after fun D => D.engBranch e (({ D.engView e with redirect := some { target := 0, left := 2, reti := true } } : EngSt)))) ∧
  (∀ (x : EngSt) t g, (x.branch t g).redirect = some { target := if t then g else x.pc + 12, left := 2, reti := false }) ∧
  (∀ (d : Dev) (e : Nat) r f y, d.engSlot e r → f (d.engView e) = .ok y → y.redirect = some r → 1 < r.left →
    d.run e .free (pureOp f) = (d.engIssued e).setEng e { y.advance with redirect := some { r with left := r.left - 1 }, n := y.n + 1 }) ∧
  (∀ (d : Dev) (e : Nat) r f y, d.engSlot e r → f (d.engView e) = .ok y → y.redirect = some r → r.left ≤ 1 → r.reti = false →
    d.run e .free (pureOp f) = (d.engIssued e).setEng e { y.advance with redirect := none, pc := r.target, n := y.n + 1 }) ∧
  (∀ (e : Fin 1024) (c : Fin 16) (off : BitVec 16) r z, z.dev.engSlot e r → exec (.b e c off) z = .next (z.after fun D => D.engForbidden e)) ∧
  (∀ (e : Fin 1024) (s : Fin 32) (off : BitVec 16) r z, z.dev.engSlot e r → exec (.bz e s off) z = .next (z.after fun D => D.engForbidden e)) ∧
  (∀ (e : Fin 1024) (s : Fin 32) (off : BitVec 16) r z, z.dev.engSlot e r → exec (.bnz e s off) z = .next (z.after fun D => D.engForbidden e)) ∧
  (∀ (e : Fin 1024) (off : BitVec 16) r z, z.dev.engSlot e r → exec (.j e off) z = .next (z.after fun D => D.engForbidden e)) ∧
  (∀ (e : Fin 1024) (off : BitVec 16) r z, z.dev.engSlot e r → exec (.call e off) z = .next (z.after fun D => D.engForbidden e)) ∧
  (∀ (e : Fin 1024) (s : Fin 32) r z, z.dev.engSlot e r → exec (.jr e s) z = .next (z.after fun D => D.engForbidden e)) ∧
  (∀ (e : Fin 1024) (s : Fin 32) r z, z.dev.engSlot e r → exec (.callr e s) z = .next (z.after fun D => D.engForbidden e)) ∧
  (∀ (e : Fin 1024) r z, z.dev.engSlot e r → exec (.reti e) z = .next (z.after fun D => D.engForbidden e)) ∧
  (∀ (e : Fin 1024) (n : Fin 1024) r z, z.dev.engSlot e r → exec (.rpt e n) z = .next (z.after fun D => D.engForbidden e)) ∧
  (∀ (e : Fin 1024) (s : Fin 32) r z, z.dev.engSlot e r → exec (.rptr e s) z = .next (z.after fun D => D.engForbidden e)) ∧
  (∀ (e : Fin 1024) (len : Fin 1024) (n : Fin 2048) r z, z.dev.engSlot e r → exec (.rptb e len n) z = .next (z.after fun D => D.engForbidden e)) ∧
  (∀ (e : Fin 1024) (len : Fin 1024) (s : Fin 32) r z, z.dev.engSlot e r → exec (.rptbr e len s) z = .next (z.after fun D => D.engForbidden e)) ∧
  (∀ (e : Fin 1024) (w : Fin 32) (tag : Fin 8) r z, z.dev.engSlot e r → exec (.wait e w tag) z = .next (z.after fun D => D.engForbidden e)) ∧
  (∀ (e : Fin 1024) (w s : Fin 32) (i : BitVec 16) r z, z.dev.engSlot e r → exec (.ll e w s i) z = .next (z.after fun D => D.engForbidden e)) ∧
  (∀ (e : Fin 1024) (w s t : Fin 32) (i : BitVec 11) r z, z.dev.engSlot e r → exec (.sc e w s t i) z = .next (z.after fun D => D.engForbidden e)) ∧
  (∀ (e : Fin 1024) (s : Fin 32) (k tag : Fin 8) dir (n : Fin 512) r z, z.dev.engSlot e r → exec (.xfer e s k tag dir n) z = .next (z.after fun D => D.engForbidden e)) ∧
  (∀ (e : Fin 1024) (i : Fin 64) (s : Fin 32) (tag : Fin 8) r z, z.dev.engSlot e r → exec (.send e i s tag) z = .next (z.after fun D => D.engForbidden e)) ∧
  (∀ (e : Fin 1024) (s : Fin 32) r z, z.dev.engSlot e r → exec (.halt e s) z = .next (z.after fun D => D.engForbidden e))

/-- R366. `.branch` reads are those at the distances of R331 for branches. -/
def Obligations.BranchConditions : Prop :=
  (∀ (e : Fin 1024) (c : Fin 16) (off : BitVec 16) z, z.dev.engReady e → c.val ≤ 12 → exec (.b e c off) z = .next (z.after fun D =>
    let x := D.engView e
    let Z := x.rd .branch 128 ≠ 0
    let N := x.rd .branch 129 ≠ 0
    let C := x.rd .branch 130 ≠ 0
    let V := x.rd .branch 131 ≠ 0
    let taken : Prop := c = 0 ∨ (c = 1 ∧ Z) ∨ (c = 2 ∧ ¬Z) ∨ (c = 3 ∧ ¬(N ↔ V)) ∨ (c = 4 ∧ (N ↔ V)) ∨ (c = 5 ∧ ¬Z ∧ (N ↔ V)) ∨ (c = 6 ∧ (Z ∨ ¬(N ↔ V))) ∨
      (c = 7 ∧ C) ∨ (c = 8 ∧ ¬C) ∨ (c = 9 ∧ V) ∨ (c = 10 ∧ ¬V) ∨ (c = 11 ∧ N) ∨ (c = 12 ∧ ¬N)
    D.engBranch e (x.branch (decide taken) (x.relTarget off)))) ∧
  (∀ (e : Fin 1024) (c : Fin 16) (off : BitVec 16) z, z.dev.engReady e → 13 ≤ c.val → exec (.b e c off) z = .next (z.after fun D => D.engRaise e excILLEGAL)) ∧
  (∀ (e : Fin 1024) (s : Fin 32) (off : BitVec 16) z, z.dev.engReady e → exec (.bz e s off) z = .next (z.after fun D =>
    D.engBranch e ((D.engView e).branch (decide ((if s.val = 0 then 0 else (D.engView e).rd .branch s) = 0)) ((D.engView e).relTarget off)))) ∧
  (∀ (e : Fin 1024) (s : Fin 32) (off : BitVec 16) z, z.dev.engReady e → exec (.bnz e s off) z = .next (z.after fun D =>
    D.engBranch e ((D.engView e).branch (decide ((if s.val = 0 then 0 else (D.engView e).rd .branch s) ≠ 0)) ((D.engView e).relTarget off))))

/-- R541 to R543. That the ECDSA signature and the HMAC are what the rules say is the operands' meaning (log entry 4). -/
def Obligations.UnlocksNeedTheirProof : Prop :=
  (∀ fr (rights slot : Byte) pub ok s, s.dev.portOpen fr → slot.toNat ≤ 3 → (rights = 1#8 ∨ (rights = 2#8 ∧ s.dev.controlBarred = false)) →
    s.dev.lsh.nonce.isSome = true → s.dev.lsh.lockUntil ≤ s.dev.root →
    exec (.unlockSig fr rights slot pub ok) s = .next (s.after fun d =>
      if Config.sha384 [pub] = d.fuse.ownerHash.getD slot.toNat 0 ∧ bits d.fuse.ownerRevoke slot.toNat 1 = 0 ∧ ok = true then
        let D := { d with lsh := { d.lsh with nonce := none, fails := 0, lockUntil := 0 } }
        let D := ((D.st F.LSH_STAT_rights {} rights.toNat).st F.LSH_STAT_method {} 0).st F.LSH_STAT_owner_slot {} slot.toNat
        (D.on (rights.toNat = 2) (fun d => d.st F.LSH_STAT_ctl_held {} 1)).ack 1
      else d.unlockFailed)) ∧
  (∀ fr (rights : Byte) ok s, s.dev.portOpen fr → (rights = 1#8 ∨ (rights = 2#8 ∧ s.dev.controlBarred = false)) →
    s.dev.lsh.nonce.isSome = true → s.dev.lsh.lockUntil ≤ s.dev.root →
    exec (.unlockPass fr rights ok) s = .next (s.after fun d =>
      if d.fuse.leashPassOff = false ∧ d.fuse.leashPassHash ≠ 0 ∧ ok = true then
        let D := { d with lsh := { d.lsh with nonce := none, fails := 0, lockUntil := 0 } }
        let D := ((D.st F.LSH_STAT_rights {} rights.toNat).st F.LSH_STAT_method {} 1).st F.LSH_STAT_owner_slot {} 0
        (D.on (rights.toNat = 2) (fun d => d.st F.LSH_STAT_ctl_held {} 1)).ack 1
      else d.unlockFailed)) ∧
  (∀ (d : Dev), d.unlockFailed.lsh.fails = d.lsh.fails + 1 ∧ d.unlockFailed.lsh.nonce = none ∧
    d.unlockFailed.lsh.lockUntil = d.root + 2 ^ min d.lsh.fails 6 * 1000 * msCycles)

/-- R8. `hasRC` is whether the register's table in the spec gives it an RC field. -/
def Obligations.PeekReadsChangeNothing : Prop :=
  (∀ fr (addr : Word64) ans key a t s, s.dev.sessionPort fr → s.dev.lshReads = true → lshAddr addr = some (key, a) → (key = 0 ∨ key = 126) →
    isControl a = true → s.dev.dieOff (baseOfAddr a) = false → findReg a = some t →
    exec (.leashRead fr addr ans) s =
      .next (s.after fun d => d.emit (.leash 1 (numBytes (d.regRead t.reg t.ix) 8 ++ [if t.reg.info.fields.any (fun f => f.acc = .rc) then 1#8 else 0#8])))) ∧
  (∀ (d : Dev) o f a, (d.emit o).rd f a = d.rd f a) ∧
  (∀ (d : Dev) o r a, (d.emit o).regRead r a = d.regRead r a)

/-- Frame of R361, R362, R364, R372, R376: d is the destination, in a vector form d and d + 1. A form that raises an exception ends the task and is not among these states. -/
def Obligations.EngineRegisterInstructionsFrame : Prop :=
  (∀ (e : Fin 1024) (d s q : Fin 32) z t, z.dev.engReady e → exec (.add e d s q) z = .next t → State.engineFrame e (fun l => decide (l = d.val) || isFlag l) 0 0 z t) ∧
  (∀ (e : Fin 1024) (d s q : Fin 32) z t, z.dev.engReady e → exec (.sub e d s q) z = .next t → State.engineFrame e (fun l => decide (l = d.val) || isFlag l) 0 0 z t) ∧
  (∀ (e : Fin 1024) (d s q : Fin 32) z t, z.dev.engReady e → exec (.and e d s q) z = .next t → State.engineFrame e (fun l => decide (l = d.val) || isFlag l) 0 0 z t) ∧
  (∀ (e : Fin 1024) (d s q : Fin 32) z t, z.dev.engReady e → exec (.or e d s q) z = .next t → State.engineFrame e (fun l => decide (l = d.val) || isFlag l) 0 0 z t) ∧
  (∀ (e : Fin 1024) (d s q : Fin 32) z t, z.dev.engReady e → exec (.xor e d s q) z = .next t → State.engineFrame e (fun l => decide (l = d.val) || isFlag l) 0 0 z t) ∧
  (∀ (e : Fin 1024) (d s q : Fin 32) z t, z.dev.engReady e → exec (.sll e d s q) z = .next t → State.engineFrame e (fun l => decide (l = d.val) || isFlag l) 0 0 z t) ∧
  (∀ (e : Fin 1024) (d s q : Fin 32) z t, z.dev.engReady e → exec (.srl e d s q) z = .next t → State.engineFrame e (fun l => decide (l = d.val) || isFlag l) 0 0 z t) ∧
  (∀ (e : Fin 1024) (d s q : Fin 32) z t, z.dev.engReady e → exec (.sra e d s q) z = .next t → State.engineFrame e (fun l => decide (l = d.val) || isFlag l) 0 0 z t) ∧
  (∀ (e : Fin 1024) (d s q : Fin 32) z t, z.dev.engReady e → exec (.mulh e d s q) z = .next t → State.engineFrame e (fun l => decide (l = d.val) || isFlag l) 0 0 z t) ∧
  (∀ (e : Fin 1024) (d s q : Fin 32) z t, z.dev.engReady e → exec (.min e d s q) z = .next t → State.engineFrame e (fun l => decide (l = d.val) || isFlag l) 0 0 z t) ∧
  (∀ (e : Fin 1024) (d s q : Fin 32) z t, z.dev.engReady e → exec (.max e d s q) z = .next t → State.engineFrame e (fun l => decide (l = d.val) || isFlag l) 0 0 z t) ∧
  (∀ (e : Fin 1024) (d s q : Fin 32) z t, z.dev.engReady e → exec (.slt e d s q) z = .next t → State.engineFrame e (fun l => decide (l = d.val) || isFlag l) 0 0 z t) ∧
  (∀ (e : Fin 1024) (d s q : Fin 32) z t, z.dev.engReady e → exec (.sltu e d s q) z = .next t → State.engineFrame e (fun l => decide (l = d.val) || isFlag l) 0 0 z t) ∧
  (∀ (e : Fin 1024) (d s q : Fin 32) z t, z.dev.engReady e → (pwReg q (z.dev.engView e)).2 ≠ 0 → (pwReg q (z.dev.engView e)).1 + (pwReg q (z.dev.engView e)).2 ≤ 32 → exec (.extur e d s q) z = .next t → State.engineFrame e (fun l => decide (l = d.val) || isFlag l) 0 0 z t) ∧
  (∀ (e : Fin 1024) (d s q : Fin 32) z t, z.dev.engReady e → (pwReg q (z.dev.engView e)).2 ≠ 0 → (pwReg q (z.dev.engView e)).1 + (pwReg q (z.dev.engView e)).2 ≤ 32 → exec (.extsr e d s q) z = .next t → State.engineFrame e (fun l => decide (l = d.val) || isFlag l) 0 0 z t) ∧
  (∀ (e : Fin 1024) (d s q : Fin 32) z t, z.dev.engReady e → (pwReg q (z.dev.engView e)).2 ≠ 0 → (pwReg q (z.dev.engView e)).1 + (pwReg q (z.dev.engView e)).2 ≤ 32 → exec (.insr e d s q) z = .next t → State.engineFrame e (fun l => decide (l = d.val) || isFlag l) 0 0 z t) ∧
  (∀ (e : Fin 1024) (d s sh : Fin 32) z t, z.dev.engReady e → exec (.slli e d s sh) z = .next t → State.engineFrame e (fun l => decide (l = d.val) || isFlag l) 0 0 z t) ∧
  (∀ (e : Fin 1024) (d s sh : Fin 32) z t, z.dev.engReady e → exec (.srli e d s sh) z = .next t → State.engineFrame e (fun l => decide (l = d.val) || isFlag l) 0 0 z t) ∧
  (∀ (e : Fin 1024) (d s sh : Fin 32) z t, z.dev.engReady e → exec (.srai e d s sh) z = .next t → State.engineFrame e (fun l => decide (l = d.val) || isFlag l) 0 0 z t) ∧
  (∀ (e : Fin 1024) (d s : Fin 32) z t, z.dev.engReady e → exec (.abs e d s) z = .next t → State.engineFrame e (fun l => decide (l = d.val) || isFlag l) 0 0 z t) ∧
  (∀ (e : Fin 1024) (d s : Fin 32) z t, z.dev.engReady e → exec (.norm e d s) z = .next t → State.engineFrame e (fun l => decide (l = d.val) || isFlag l) 0 0 z t) ∧
  (∀ (e : Fin 1024) (d s : Fin 32) z t, z.dev.engReady e → exec (.sat16 e d s) z = .next t → State.engineFrame e (fun l => decide (l = d.val) || isFlag l) 0 0 z t) ∧
  (∀ (e : Fin 1024) (d s : Fin 32) z t, z.dev.engReady e → exec (.bswap e d s) z = .next t → State.engineFrame e (fun l => decide (l = d.val) || isFlag l) 0 0 z t) ∧
  (∀ (e : Fin 1024) (d s : Fin 32) z t, z.dev.engReady e → exec (.clz e d s) z = .next t → State.engineFrame e (fun l => decide (l = d.val) || isFlag l) 0 0 z t) ∧
  (∀ (e : Fin 1024) (d s : Fin 32) z t, z.dev.engReady e → exec (.popc e d s) z = .next t → State.engineFrame e (fun l => decide (l = d.val) || isFlag l) 0 0 z t) ∧
  (∀ (e : Fin 1024) (d s : Fin 32) z t, z.dev.engReady e → exec (.brev e d s) z = .next t → State.engineFrame e (fun l => decide (l = d.val) || isFlag l) 0 0 z t) ∧
  (∀ (e : Fin 1024) (d s : Fin 32) (i : BitVec 16) z t, z.dev.engReady e → exec (.addi e d s i) z = .next t → State.engineFrame e (fun l => decide (l = d.val) || isFlag l) 0 0 z t) ∧
  (∀ (e : Fin 1024) (d s : Fin 32) (i : BitVec 16) z t, z.dev.engReady e → exec (.andi e d s i) z = .next t → State.engineFrame e (fun l => decide (l = d.val) || isFlag l) 0 0 z t) ∧
  (∀ (e : Fin 1024) (d s : Fin 32) (i : BitVec 16) z t, z.dev.engReady e → exec (.ori e d s i) z = .next t → State.engineFrame e (fun l => decide (l = d.val) || isFlag l) 0 0 z t) ∧
  (∀ (e : Fin 1024) (d s : Fin 32) (i : BitVec 16) z t, z.dev.engReady e → exec (.xori e d s i) z = .next t → State.engineFrame e (fun l => decide (l = d.val) || isFlag l) 0 0 z t) ∧
  (∀ (e : Fin 1024) (d s : Fin 32) (i : BitVec 16) z t, z.dev.engReady e → exec (.lui e d s i) z = .next t → State.engineFrame e (fun l => decide (l = d.val) || isFlag l) 0 0 z t) ∧
  (∀ (e : Fin 1024) (d s : Fin 32) (i : BitVec 16) z t, z.dev.engReady e → exec (.slti e d s i) z = .next t → State.engineFrame e (fun l => decide (l = d.val) || isFlag l) 0 0 z t) ∧
  (∀ (e : Fin 1024) (d s pos wm1 : Fin 32) z t, z.dev.engReady e → pos.val + (wm1.val + 1) ≤ 32 → exec (.extu e d s pos wm1) z = .next t → State.engineFrame e (fun l => decide (l = d.val) || isFlag l) 0 0 z t) ∧
  (∀ (e : Fin 1024) (d s pos wm1 : Fin 32) z t, z.dev.engReady e → pos.val + (wm1.val + 1) ≤ 32 → exec (.exts e d s pos wm1) z = .next t → State.engineFrame e (fun l => decide (l = d.val) || isFlag l) 0 0 z t) ∧
  (∀ (e : Fin 1024) (d s pos wm1 : Fin 32) z t, z.dev.engReady e → pos.val + (wm1.val + 1) ≤ 32 → exec (.ins e d s pos wm1) z = .next t → State.engineFrame e (fun l => decide (l = d.val) || isFlag l) 0 0 z t) ∧
  (∀ (e : Fin 1024) (d s q sh : Fin 32) z t, z.dev.engReady e → exec (.shld e d s q sh) z = .next t → State.engineFrame e (fun l => decide (l = d.val) || isFlag l) 0 0 z t) ∧
  (∀ (e : Fin 1024) (d s q : Fin 32) z t, z.dev.engReady e → vecOk d = true → vecOk s = true → vecOk q = true → exec (.vadd e d s q) z = .next t → State.engineFrame e (fun l => decide (l = d.val) || decide (l = d.val + 1) || isFlag l) 0 0 z t) ∧
  (∀ (e : Fin 1024) (d s q : Fin 32) z t, z.dev.engReady e → vecOk d = true → vecOk s = true → vecOk q = true → exec (.vsub e d s q) z = .next t → State.engineFrame e (fun l => decide (l = d.val) || decide (l = d.val + 1) || isFlag l) 0 0 z t) ∧
  (∀ (e : Fin 1024) (d s q : Fin 32) z t, z.dev.engReady e → vecOk d = true → vecOk s = true → vecOk q = true → exec (.vadds e d s q) z = .next t → State.engineFrame e (fun l => decide (l = d.val) || decide (l = d.val + 1) || isFlag l) 0 0 z t) ∧
  (∀ (e : Fin 1024) (d s q : Fin 32) z t, z.dev.engReady e → vecOk d = true → vecOk s = true → vecOk q = true → exec (.vsubs e d s q) z = .next t → State.engineFrame e (fun l => decide (l = d.val) || decide (l = d.val + 1) || isFlag l) 0 0 z t) ∧
  (∀ (e : Fin 1024) (d s q : Fin 32) z t, z.dev.engReady e → vecOk d = true → vecOk s = true → vecOk q = true → exec (.vmin e d s q) z = .next t → State.engineFrame e (fun l => decide (l = d.val) || decide (l = d.val + 1) || isFlag l) 0 0 z t) ∧
  (∀ (e : Fin 1024) (d s q : Fin 32) z t, z.dev.engReady e → vecOk d = true → vecOk s = true → vecOk q = true → exec (.vmax e d s q) z = .next t → State.engineFrame e (fun l => decide (l = d.val) || decide (l = d.val + 1) || isFlag l) 0 0 z t) ∧
  (∀ (e : Fin 1024) (d : Fin 32) (a l : Fin 4) z t, z.dev.engReady e → exec (.accr e d a l) z = .next t → State.engineFrame e (fun l => decide (l = d.val)) 0 0 z t) ∧
  (∀ (e : Fin 1024) (g : Fin 32) (i : Fin 64) z t, z.dev.engReady e → i.val < 32 → exec (.movs e g i) z = .next t → State.engineFrame e (fun l => decide (l = locX i)) 0 0 z t)

/-- Frame of R360 and R363: the address is `opM`'s, the operand form's own function; a delay-line write in flight lands first (R332). -/
def Obligations.EngineStoresFrame : Prop :=
  (∀ (e : Fin 1024) (g : Fin 32) (m : MemOp) a y z t, z.dev.engReady e → (z.dev.engView e).opM m 2 = .ok (a, y) → exec (.st e g m 0) z = .next t →
    State.engineFrame e (fun l => decide (l = locX m.k)) a 2 z t ∧ (∀ i < 2, Tbl.get 0#8 (t.dev.eng e).mem (a + i) =
      BitVec.ofNat 8 ((z.dev.engView e).g g / 2 ^ (8 * i)))) ∧
  (∀ (e : Fin 1024) (g : Fin 32) (m : MemOp) a y z t, z.dev.engReady e → (z.dev.engView e).opM m 4 = .ok (a, y) → exec (.st e g m 1) z = .next t →
    State.engineFrame e (fun l => decide (l = locX m.k)) a 4 z t ∧ (∀ i < 4, Tbl.get 0#8 (t.dev.eng e).mem (a + i) =
      BitVec.ofNat 8 ((z.dev.engView e).g g / 2 ^ (8 * i)))) ∧
  (∀ (e : Fin 1024) (g : Fin 32) (m : MemOp) a y z t, z.dev.engReady e → vecOk g = true → (z.dev.engView e).opM m 8 = .ok (a, y) → exec (.st e g m 2) z = .next t →
    State.engineFrame e (fun l => decide (l = locX m.k)) a 8 z t ∧ (∀ i < 8, Tbl.get 0#8 (t.dev.eng e).mem (a + i) =
      BitVec.ofNat 8 ((z.dev.engView e).pair g / 2 ^ (8 * i)))) ∧
  (∀ (e : Fin 1024) (i : Fin 32) (m : MemOp) a y z t, z.dev.engReady e → (z.dev.engView e).opM m 2 = .ok (a, y) → exec (.sts e i m) z = .next t →
    State.engineFrame e (fun l => decide (l = locX m.k)) a 2 z t) ∧
  (∀ (e : Fin 1024) (g : Fin 32) (m : MemOp) a y z t, z.dev.engReady e → (z.dev.engView e).opM m 2 = .ok (a, y) → exec (.ld e g m 0 false false) z = .next t →
    State.engineFrame e (fun l => decide (l = g.val) || decide (l = locX m.k)) 0 0 z t) ∧
  (∀ (e : Fin 1024) (g : Fin 32) (m : MemOp) a y z t, z.dev.engReady e → (z.dev.engView e).opM m 4 = .ok (a, y) → exec (.ld e g m 1 false false) z = .next t →
    State.engineFrame e (fun l => decide (l = g.val) || decide (l = locX m.k)) 0 0 z t)
end

