-- ==== Sys2Proof/Laws/Tbl.lean ====
section
/-! SUPPORT. Laws of sparse tables: a read after a write, and that writing keeps the canonical form. -/

namespace Sys2Proof.Machine

variable {α : Type}

theorem Tbl.get_del_same (d : α) (t : Tbl α) (k : Nat) : Tbl.get d (Tbl.del t k) k = d := by
  induction t with
  | nil => rfl
  | cons e r ih =>
    obtain ⟨k', v⟩ := e
    by_cases h : k = k' <;> simp [Tbl.del, Tbl.get, h]
    · subst h; exact ih
    · exact ih

theorem Tbl.get_del_ne (d : α) (t : Tbl α) {k j : Nat} (h : j ≠ k) : Tbl.get d (Tbl.del t k) j = Tbl.get d t j := by
  induction t with
  | nil => rfl
  | cons e r ih =>
    obtain ⟨k', v⟩ := e
    by_cases h1 : k = k'
    · subst h1; simp [Tbl.del, Tbl.get, h, ih]
    · simp [Tbl.del, Tbl.get, h1, ih]

theorem Tbl.get_put_same (d : α) (t : Tbl α) (k : Nat) (v : α) : Tbl.get d (Tbl.put t k v) k = v := by
  induction t with
  | nil => simp [Tbl.put, Tbl.get]
  | cons e r ih =>
    obtain ⟨k', v'⟩ := e
    by_cases h1 : k < k'
    · simp [Tbl.put, Tbl.get, h1]
    · by_cases h2 : k = k'
      · simp [Tbl.put, Tbl.get, h2]
      · simp [Tbl.put, Tbl.get, h1, h2, ih]

theorem Tbl.get_put_ne (d : α) (t : Tbl α) {k j : Nat} (v : α) (h : j ≠ k) : Tbl.get d (Tbl.put t k v) j = Tbl.get d t j := by
  induction t with
  | nil => simp [Tbl.put, Tbl.get, h]
  | cons e r ih =>
    obtain ⟨k', v'⟩ := e
    by_cases h1 : k < k'
    · simp [Tbl.put, Tbl.get, h1, h]
    · by_cases h2 : k = k'
      · subst h2; simp [Tbl.put, Tbl.get, h]
      · simp [Tbl.put, Tbl.get, h1, h2, ih]

/-- A read after a write to the same key gives the value written. -/
theorem Tbl.get_set_same [DecidableEq α] (d : α) (t : Tbl α) (k : Nat) (v : α) : Tbl.get d (Tbl.set d t k v) k = v := by
  unfold Tbl.set
  split
  · next h => rw [h]; exact Tbl.get_del_same d t k
  · exact Tbl.get_put_same d t k v

/-- A write leaves every other key alone, whatever default the reader names. -/
theorem Tbl.get_set_ne [DecidableEq α] (d d' : α) (t : Tbl α) {k j : Nat} (v : α) (h : j ≠ k) :
    Tbl.get d' (Tbl.set d t k v) j = Tbl.get d' t j := by
  unfold Tbl.set
  split
  · exact Tbl.get_del_ne d' t h
  · exact Tbl.get_put_ne d' t v h

/-! ### The canonical form -/

theorem Tbl.sortedFrom_weaken {t : Tbl α} {a b : Option Nat} (hab : ∀ x, a = some x → ∃ y, b = some y ∧ x ≤ y) (h : Tbl.sortedFrom b t = true) :
    Tbl.sortedFrom a t = true := by
  cases t with
  | nil => rfl
  | cons e r =>
    obtain ⟨k, v⟩ := e
    simp only [Tbl.sortedFrom, Bool.and_eq_true] at h ⊢
    refine ⟨?_, h.2⟩
    cases a with
    | none => rfl
    | some x =>
      obtain ⟨y, rfl, hxy⟩ := hab x rfl
      have := h.1
      simp only [decide_eq_true_eq] at this ⊢
      omega

theorem Tbl.sortedFrom_del {t : Tbl α} {lo : Option Nat} (k : Nat) (h : Tbl.sortedFrom lo t = true) : Tbl.sortedFrom lo (Tbl.del t k) = true := by
  induction t generalizing lo with
  | nil => rfl
  | cons e r ih =>
    obtain ⟨k', v⟩ := e
    simp only [Tbl.sortedFrom, Bool.and_eq_true] at h
    by_cases hk : k = k'
    · simp only [Tbl.del, hk, if_true]
      subst hk
      refine Tbl.sortedFrom_weaken ?_ (ih h.2)
      intro x hx
      subst hx
      refine ⟨k, rfl, ?_⟩
      have := h.1
      simp only [decide_eq_true_eq] at this
      omega
    · simp only [Tbl.del, hk, if_false, Tbl.sortedFrom, Bool.and_eq_true]
      exact ⟨h.1, ih h.2⟩

theorem Tbl.low_ok (lo : Option Nat) (k : Nat) :
    (match lo with | none => true | some l => decide (l < k)) = true ↔ ∀ l, lo = some l → l < k := by
  cases lo <;> simp

theorem Tbl.sortedFrom_put {t : Tbl α} {lo : Option Nat} (k : Nat) (v : α) (h : Tbl.sortedFrom lo t = true) (hk : ∀ l, lo = some l → l < k) :
    Tbl.sortedFrom lo (Tbl.put t k v) = true := by
  induction t generalizing lo with
  | nil =>
    cases lo with
    | none => rfl
    | some l => simp [Tbl.put, Tbl.sortedFrom, hk l rfl]
  | cons e r ih =>
    obtain ⟨k', v'⟩ := e
    simp only [Tbl.sortedFrom, Bool.and_eq_true] at h
    have hlo := (Tbl.low_ok lo k).2 hk
    by_cases h1 : k < k'
    · simp only [Tbl.put, h1, if_true, Tbl.sortedFrom, Bool.and_eq_true, decide_eq_true_eq]
      exact ⟨hlo, trivial, h.2⟩
    · by_cases h2 : k = k'
      · subst h2
        simp only [Tbl.put, Nat.lt_irrefl, if_false, if_true, Tbl.sortedFrom, Bool.and_eq_true]
        exact ⟨hlo, h.2⟩
      · simp only [Tbl.put, h1, h2, if_false, Tbl.sortedFrom, Bool.and_eq_true]
        refine ⟨h.1, ih h.2 ?_⟩
        intro l hl
        cases hl
        omega

theorem Tbl.all_del {t : Tbl α} {p : Nat × α → Bool} (k : Nat) (h : t.all p = true) : (Tbl.del t k).all p = true := by
  induction t with
  | nil => rfl
  | cons e r ih =>
    obtain ⟨k', v⟩ := e
    simp only [List.all_cons, Bool.and_eq_true] at h
    by_cases hk : k = k'
    · simp [Tbl.del, hk]; subst hk; simpa using ih h.2
    · simp only [Tbl.del, hk, if_false, List.all_cons, Bool.and_eq_true]; exact ⟨h.1, ih h.2⟩

theorem Tbl.all_put {t : Tbl α} {p : Nat × α → Bool} (k : Nat) (v : α) (h : t.all p = true) (hv : p (k, v) = true) : (Tbl.put t k v).all p = true := by
  induction t with
  | nil => simp [Tbl.put, hv]
  | cons e r ih =>
    obtain ⟨k', v'⟩ := e
    simp only [List.all_cons, Bool.and_eq_true] at h
    by_cases h1 : k < k'
    · simp only [Tbl.put, h1, if_true, List.all_cons, Bool.and_eq_true]; exact ⟨hv, h.1, h.2⟩
    · by_cases h2 : k = k'
      · subst h2
        simp only [Tbl.put, Nat.lt_irrefl, if_false, if_true, List.all_cons, Bool.and_eq_true]
        exact ⟨hv, h.2⟩
      · simp only [Tbl.put, h1, h2, if_false, List.all_cons, Bool.and_eq_true]; exact ⟨h.1, ih h.2⟩

/-- Writing keeps the canonical form. -/
theorem Tbl.wf_set [DecidableEq α] {d : α} {t : Tbl α} (k : Nat) (v : α) (h : Tbl.wf d t = true) : Tbl.wf d (Tbl.set d t k v) = true := by
  unfold Tbl.wf Tbl.sorted at *
  simp only [Bool.and_eq_true] at h ⊢
  unfold Tbl.set
  split
  · exact ⟨Tbl.sortedFrom_del k h.1, Tbl.all_del k h.2⟩
  · next hv => exact ⟨Tbl.sortedFrom_put k v h.1 (by intro l hl; cases hl), Tbl.all_put k v h.2 (by simpa using hv)⟩

/-- Dropping entries keeps the order of the keys that remain. -/
theorem Tbl.sortedFrom_filter {t : Tbl α} {lo : Option Nat} (p : Nat × α → Bool) (h : Tbl.sortedFrom lo t = true) :
    Tbl.sortedFrom lo (t.filter p) = true := by
  induction t generalizing lo with
  | nil => rfl
  | cons e r ih =>
    obtain ⟨k', v⟩ := e
    simp only [Tbl.sortedFrom, Bool.and_eq_true] at h
    by_cases hp : p (k', v) = true
    · simp only [List.filter_cons, hp, if_true, Tbl.sortedFrom, Bool.and_eq_true]
      exact ⟨h.1, ih h.2⟩
    · simp only [List.filter_cons, hp, if_false, Bool.false_eq_true]
      refine Tbl.sortedFrom_weaken ?_ (ih h.2)
      intro x hx
      subst hx
      refine ⟨k', rfl, ?_⟩
      have := h.1
      simp only [decide_eq_true_eq] at this
      omega

/-- Dropping entries keeps the canonical form. -/
theorem Tbl.wf_filter [DecidableEq α] {d : α} {t : Tbl α} (p : Nat × α → Bool) (h : Tbl.wf d t = true) : Tbl.wf d (t.filter p) = true := by
  unfold Tbl.wf Tbl.sorted at *
  simp only [Bool.and_eq_true] at h ⊢
  refine ⟨Tbl.sortedFrom_filter p h.1, ?_⟩
  simp only [List.all_eq_true] at h ⊢
  intro e he
  exact h.2 e (List.mem_of_mem_filter he)

end Sys2Proof.Machine
end

