-- ==== Sys2Proof/Laws/State.lean ====
section
/-! SUPPORT. One lemma per field of the device per update: what each named update leaves alone. -/

namespace Sys2Proof.Machine

/-! ### A register write changes the registers, an output the outputs, a draw the count of free values -/

@[simp] theorem Dev.st_free (d : Dev) (x : Fld) (a : Ix) (v : Nat) : (d.st x a v).free = d.free := rfl
@[simp] theorem Dev.st_out (d : Dev) (x : Fld) (a : Ix) (v : Nat) : (d.st x a v).out = d.out := rfl
@[simp] theorem Dev.st_root (d : Dev) (x : Fld) (a : Ix) (v : Nat) : (d.st x a v).root = d.root := rfl
@[simp] theorem Dev.st_ht (d : Dev) (x : Fld) (a : Ix) (v : Nat) : (d.st x a v).ht = d.ht := rfl
@[simp] theorem Dev.st_flt (d : Dev) (x : Fld) (a : Ix) (v : Nat) : (d.st x a v).flt = d.flt := rfl
@[simp] theorem Dev.st_obs (d : Dev) (x : Fld) (a : Ix) (v : Nat) : (d.st x a v).obs = d.obs := rfl
@[simp] theorem Dev.st_clk (d : Dev) (x : Fld) (a : Ix) (v : Nat) : (d.st x a v).clk = d.clk := rfl
@[simp] theorem Dev.st_htx (d : Dev) (x : Fld) (a : Ix) (v : Nat) : (d.st x a v).htx = d.htx := rfl
@[simp] theorem Dev.st_fuse (d : Dev) (x : Fld) (a : Ix) (v : Nat) : (d.st x a v).fuse = d.fuse := rfl
@[simp] theorem Dev.st_bbk (d : Dev) (x : Fld) (a : Ix) (v : Nat) : (d.st x a v).bbk = d.bbk := rfl
@[simp] theorem Dev.st_peat (d : Dev) (x : Fld) (a : Ix) (v : Nat) : (d.st x a v).peat = d.peat := rfl
@[simp] theorem Dev.st_cfg (d : Dev) (x : Fld) (a : Ix) (v : Nat) : (d.st x a v).cfg = d.cfg := rfl
@[simp] theorem Dev.st_pl (d : Dev) (x : Fld) (a : Ix) (v : Nat) : (d.st x a v).pl = d.pl := rfl
@[simp] theorem Dev.st_fab (d : Dev) (x : Fld) (a : Ix) (v : Nat) : (d.st x a v).fab = d.fab := rfl
@[simp] theorem Dev.st_crd (d : Dev) (x : Fld) (a : Ix) (v : Nat) : (d.st x a v).crd = d.crd := rfl
@[simp] theorem Dev.st_noc (d : Dev) (x : Fld) (a : Ix) (v : Nat) : (d.st x a v).noc = d.noc := rfl
@[simp] theorem Dev.st_led (d : Dev) (x : Fld) (a : Ix) (v : Nat) : (d.st x a v).led = d.led := rfl
@[simp] theorem Dev.st_mem (d : Dev) (x : Fld) (a : Ix) (v : Nat) : (d.st x a v).mem = d.mem := rfl
@[simp] theorem Dev.st_hst (d : Dev) (x : Fld) (a : Ix) (v : Nat) : (d.st x a v).hst = d.hst := rfl
@[simp] theorem Dev.st_ssw (d : Dev) (x : Fld) (a : Ix) (v : Nat) : (d.st x a v).ssw = d.ssw := rfl
@[simp] theorem Dev.st_ln (d : Dev) (x : Fld) (a : Ix) (v : Nat) : (d.st x a v).ln = d.ln := rfl
@[simp] theorem Dev.st_mp (d : Dev) (x : Fld) (a : Ix) (v : Nat) : (d.st x a v).mp = d.mp := rfl
@[simp] theorem Dev.st_en (d : Dev) (x : Fld) (a : Ix) (v : Nat) : (d.st x a v).en = d.en := rfl
@[simp] theorem Dev.st_ken (d : Dev) (x : Fld) (a : Ix) (v : Nat) : (d.st x a v).ken = d.ken := rfl
@[simp] theorem Dev.st_kln (d : Dev) (x : Fld) (a : Ix) (v : Nat) : (d.st x a v).kln = d.kln := rfl
@[simp] theorem Dev.st_pwr (d : Dev) (x : Fld) (a : Ix) (v : Nat) : (d.st x a v).pwr = d.pwr := rfl
@[simp] theorem Dev.st_lsh (d : Dev) (x : Fld) (a : Ix) (v : Nat) : (d.st x a v).lsh = d.lsh := rfl
@[simp] theorem Dev.stB_free (d : Dev) (x : Fld) (a : Ix) (v : Bool) : (d.stB x a v).free = d.free := rfl
@[simp] theorem Dev.stB_out (d : Dev) (x : Fld) (a : Ix) (v : Bool) : (d.stB x a v).out = d.out := rfl
@[simp] theorem Dev.stB_root (d : Dev) (x : Fld) (a : Ix) (v : Bool) : (d.stB x a v).root = d.root := rfl
@[simp] theorem Dev.stB_ht (d : Dev) (x : Fld) (a : Ix) (v : Bool) : (d.stB x a v).ht = d.ht := rfl
@[simp] theorem Dev.stB_flt (d : Dev) (x : Fld) (a : Ix) (v : Bool) : (d.stB x a v).flt = d.flt := rfl
@[simp] theorem Dev.stB_obs (d : Dev) (x : Fld) (a : Ix) (v : Bool) : (d.stB x a v).obs = d.obs := rfl
@[simp] theorem Dev.stB_clk (d : Dev) (x : Fld) (a : Ix) (v : Bool) : (d.stB x a v).clk = d.clk := rfl
@[simp] theorem Dev.stB_htx (d : Dev) (x : Fld) (a : Ix) (v : Bool) : (d.stB x a v).htx = d.htx := rfl
@[simp] theorem Dev.stB_fuse (d : Dev) (x : Fld) (a : Ix) (v : Bool) : (d.stB x a v).fuse = d.fuse := rfl
@[simp] theorem Dev.stB_bbk (d : Dev) (x : Fld) (a : Ix) (v : Bool) : (d.stB x a v).bbk = d.bbk := rfl
@[simp] theorem Dev.stB_peat (d : Dev) (x : Fld) (a : Ix) (v : Bool) : (d.stB x a v).peat = d.peat := rfl
@[simp] theorem Dev.stB_cfg (d : Dev) (x : Fld) (a : Ix) (v : Bool) : (d.stB x a v).cfg = d.cfg := rfl
@[simp] theorem Dev.stB_pl (d : Dev) (x : Fld) (a : Ix) (v : Bool) : (d.stB x a v).pl = d.pl := rfl
@[simp] theorem Dev.stB_fab (d : Dev) (x : Fld) (a : Ix) (v : Bool) : (d.stB x a v).fab = d.fab := rfl
@[simp] theorem Dev.stB_crd (d : Dev) (x : Fld) (a : Ix) (v : Bool) : (d.stB x a v).crd = d.crd := rfl
@[simp] theorem Dev.stB_noc (d : Dev) (x : Fld) (a : Ix) (v : Bool) : (d.stB x a v).noc = d.noc := rfl
@[simp] theorem Dev.stB_led (d : Dev) (x : Fld) (a : Ix) (v : Bool) : (d.stB x a v).led = d.led := rfl
@[simp] theorem Dev.stB_mem (d : Dev) (x : Fld) (a : Ix) (v : Bool) : (d.stB x a v).mem = d.mem := rfl
@[simp] theorem Dev.stB_hst (d : Dev) (x : Fld) (a : Ix) (v : Bool) : (d.stB x a v).hst = d.hst := rfl
@[simp] theorem Dev.stB_ssw (d : Dev) (x : Fld) (a : Ix) (v : Bool) : (d.stB x a v).ssw = d.ssw := rfl
@[simp] theorem Dev.stB_ln (d : Dev) (x : Fld) (a : Ix) (v : Bool) : (d.stB x a v).ln = d.ln := rfl
@[simp] theorem Dev.stB_mp (d : Dev) (x : Fld) (a : Ix) (v : Bool) : (d.stB x a v).mp = d.mp := rfl
@[simp] theorem Dev.stB_en (d : Dev) (x : Fld) (a : Ix) (v : Bool) : (d.stB x a v).en = d.en := rfl
@[simp] theorem Dev.stB_ken (d : Dev) (x : Fld) (a : Ix) (v : Bool) : (d.stB x a v).ken = d.ken := rfl
@[simp] theorem Dev.stB_kln (d : Dev) (x : Fld) (a : Ix) (v : Bool) : (d.stB x a v).kln = d.kln := rfl
@[simp] theorem Dev.stB_pwr (d : Dev) (x : Fld) (a : Ix) (v : Bool) : (d.stB x a v).pwr = d.pwr := rfl
@[simp] theorem Dev.stB_lsh (d : Dev) (x : Fld) (a : Ix) (v : Bool) : (d.stB x a v).lsh = d.lsh := rfl
@[simp] theorem Dev.addWrap_free (d : Dev) (x : Fld) (a : Ix) (n : Nat) : (d.addWrap x a n).free = d.free := rfl
@[simp] theorem Dev.addWrap_out (d : Dev) (x : Fld) (a : Ix) (n : Nat) : (d.addWrap x a n).out = d.out := rfl
@[simp] theorem Dev.addWrap_root (d : Dev) (x : Fld) (a : Ix) (n : Nat) : (d.addWrap x a n).root = d.root := rfl
@[simp] theorem Dev.addWrap_ht (d : Dev) (x : Fld) (a : Ix) (n : Nat) : (d.addWrap x a n).ht = d.ht := rfl
@[simp] theorem Dev.addWrap_flt (d : Dev) (x : Fld) (a : Ix) (n : Nat) : (d.addWrap x a n).flt = d.flt := rfl
@[simp] theorem Dev.addWrap_obs (d : Dev) (x : Fld) (a : Ix) (n : Nat) : (d.addWrap x a n).obs = d.obs := rfl
@[simp] theorem Dev.addWrap_clk (d : Dev) (x : Fld) (a : Ix) (n : Nat) : (d.addWrap x a n).clk = d.clk := rfl
@[simp] theorem Dev.addWrap_htx (d : Dev) (x : Fld) (a : Ix) (n : Nat) : (d.addWrap x a n).htx = d.htx := rfl
@[simp] theorem Dev.addWrap_fuse (d : Dev) (x : Fld) (a : Ix) (n : Nat) : (d.addWrap x a n).fuse = d.fuse := rfl
@[simp] theorem Dev.addWrap_bbk (d : Dev) (x : Fld) (a : Ix) (n : Nat) : (d.addWrap x a n).bbk = d.bbk := rfl
@[simp] theorem Dev.addWrap_peat (d : Dev) (x : Fld) (a : Ix) (n : Nat) : (d.addWrap x a n).peat = d.peat := rfl
@[simp] theorem Dev.addWrap_cfg (d : Dev) (x : Fld) (a : Ix) (n : Nat) : (d.addWrap x a n).cfg = d.cfg := rfl
@[simp] theorem Dev.addWrap_pl (d : Dev) (x : Fld) (a : Ix) (n : Nat) : (d.addWrap x a n).pl = d.pl := rfl
@[simp] theorem Dev.addWrap_fab (d : Dev) (x : Fld) (a : Ix) (n : Nat) : (d.addWrap x a n).fab = d.fab := rfl
@[simp] theorem Dev.addWrap_crd (d : Dev) (x : Fld) (a : Ix) (n : Nat) : (d.addWrap x a n).crd = d.crd := rfl
@[simp] theorem Dev.addWrap_noc (d : Dev) (x : Fld) (a : Ix) (n : Nat) : (d.addWrap x a n).noc = d.noc := rfl
@[simp] theorem Dev.addWrap_led (d : Dev) (x : Fld) (a : Ix) (n : Nat) : (d.addWrap x a n).led = d.led := rfl
@[simp] theorem Dev.addWrap_mem (d : Dev) (x : Fld) (a : Ix) (n : Nat) : (d.addWrap x a n).mem = d.mem := rfl
@[simp] theorem Dev.addWrap_hst (d : Dev) (x : Fld) (a : Ix) (n : Nat) : (d.addWrap x a n).hst = d.hst := rfl
@[simp] theorem Dev.addWrap_ssw (d : Dev) (x : Fld) (a : Ix) (n : Nat) : (d.addWrap x a n).ssw = d.ssw := rfl
@[simp] theorem Dev.addWrap_ln (d : Dev) (x : Fld) (a : Ix) (n : Nat) : (d.addWrap x a n).ln = d.ln := rfl
@[simp] theorem Dev.addWrap_mp (d : Dev) (x : Fld) (a : Ix) (n : Nat) : (d.addWrap x a n).mp = d.mp := rfl
@[simp] theorem Dev.addWrap_en (d : Dev) (x : Fld) (a : Ix) (n : Nat) : (d.addWrap x a n).en = d.en := rfl
@[simp] theorem Dev.addWrap_ken (d : Dev) (x : Fld) (a : Ix) (n : Nat) : (d.addWrap x a n).ken = d.ken := rfl
@[simp] theorem Dev.addWrap_kln (d : Dev) (x : Fld) (a : Ix) (n : Nat) : (d.addWrap x a n).kln = d.kln := rfl
@[simp] theorem Dev.addWrap_pwr (d : Dev) (x : Fld) (a : Ix) (n : Nat) : (d.addWrap x a n).pwr = d.pwr := rfl
@[simp] theorem Dev.addWrap_lsh (d : Dev) (x : Fld) (a : Ix) (n : Nat) : (d.addWrap x a n).lsh = d.lsh := rfl
@[simp] theorem Dev.emit_regs (d : Dev) (x : Output) : (d.emit x).regs = d.regs := rfl
@[simp] theorem Dev.emit_free (d : Dev) (x : Output) : (d.emit x).free = d.free := rfl
@[simp] theorem Dev.emit_root (d : Dev) (x : Output) : (d.emit x).root = d.root := rfl
@[simp] theorem Dev.emit_ht (d : Dev) (x : Output) : (d.emit x).ht = d.ht := rfl
@[simp] theorem Dev.emit_flt (d : Dev) (x : Output) : (d.emit x).flt = d.flt := rfl
@[simp] theorem Dev.emit_obs (d : Dev) (x : Output) : (d.emit x).obs = d.obs := rfl
@[simp] theorem Dev.emit_clk (d : Dev) (x : Output) : (d.emit x).clk = d.clk := rfl
@[simp] theorem Dev.emit_htx (d : Dev) (x : Output) : (d.emit x).htx = d.htx := rfl
@[simp] theorem Dev.emit_fuse (d : Dev) (x : Output) : (d.emit x).fuse = d.fuse := rfl
@[simp] theorem Dev.emit_bbk (d : Dev) (x : Output) : (d.emit x).bbk = d.bbk := rfl
@[simp] theorem Dev.emit_peat (d : Dev) (x : Output) : (d.emit x).peat = d.peat := rfl
@[simp] theorem Dev.emit_cfg (d : Dev) (x : Output) : (d.emit x).cfg = d.cfg := rfl
@[simp] theorem Dev.emit_pl (d : Dev) (x : Output) : (d.emit x).pl = d.pl := rfl
@[simp] theorem Dev.emit_fab (d : Dev) (x : Output) : (d.emit x).fab = d.fab := rfl
@[simp] theorem Dev.emit_crd (d : Dev) (x : Output) : (d.emit x).crd = d.crd := rfl
@[simp] theorem Dev.emit_noc (d : Dev) (x : Output) : (d.emit x).noc = d.noc := rfl
@[simp] theorem Dev.emit_led (d : Dev) (x : Output) : (d.emit x).led = d.led := rfl
@[simp] theorem Dev.emit_mem (d : Dev) (x : Output) : (d.emit x).mem = d.mem := rfl
@[simp] theorem Dev.emit_hst (d : Dev) (x : Output) : (d.emit x).hst = d.hst := rfl
@[simp] theorem Dev.emit_ssw (d : Dev) (x : Output) : (d.emit x).ssw = d.ssw := rfl
@[simp] theorem Dev.emit_ln (d : Dev) (x : Output) : (d.emit x).ln = d.ln := rfl
@[simp] theorem Dev.emit_mp (d : Dev) (x : Output) : (d.emit x).mp = d.mp := rfl
@[simp] theorem Dev.emit_en (d : Dev) (x : Output) : (d.emit x).en = d.en := rfl
@[simp] theorem Dev.emit_ken (d : Dev) (x : Output) : (d.emit x).ken = d.ken := rfl
@[simp] theorem Dev.emit_kln (d : Dev) (x : Output) : (d.emit x).kln = d.kln := rfl
@[simp] theorem Dev.emit_pwr (d : Dev) (x : Output) : (d.emit x).pwr = d.pwr := rfl
@[simp] theorem Dev.emit_lsh (d : Dev) (x : Output) : (d.emit x).lsh = d.lsh := rfl
@[simp] theorem Dev.draw_regs (d : Dev) (w : Nat) : (d.draw w).2.regs = d.regs := rfl
@[simp] theorem Dev.draw_out (d : Dev) (w : Nat) : (d.draw w).2.out = d.out := rfl
@[simp] theorem Dev.draw_root (d : Dev) (w : Nat) : (d.draw w).2.root = d.root := rfl
@[simp] theorem Dev.draw_ht (d : Dev) (w : Nat) : (d.draw w).2.ht = d.ht := rfl
@[simp] theorem Dev.draw_flt (d : Dev) (w : Nat) : (d.draw w).2.flt = d.flt := rfl
@[simp] theorem Dev.draw_obs (d : Dev) (w : Nat) : (d.draw w).2.obs = d.obs := rfl
@[simp] theorem Dev.draw_clk (d : Dev) (w : Nat) : (d.draw w).2.clk = d.clk := rfl
@[simp] theorem Dev.draw_htx (d : Dev) (w : Nat) : (d.draw w).2.htx = d.htx := rfl
@[simp] theorem Dev.draw_fuse (d : Dev) (w : Nat) : (d.draw w).2.fuse = d.fuse := rfl
@[simp] theorem Dev.draw_bbk (d : Dev) (w : Nat) : (d.draw w).2.bbk = d.bbk := rfl
@[simp] theorem Dev.draw_peat (d : Dev) (w : Nat) : (d.draw w).2.peat = d.peat := rfl
@[simp] theorem Dev.draw_cfg (d : Dev) (w : Nat) : (d.draw w).2.cfg = d.cfg := rfl
@[simp] theorem Dev.draw_pl (d : Dev) (w : Nat) : (d.draw w).2.pl = d.pl := rfl
@[simp] theorem Dev.draw_fab (d : Dev) (w : Nat) : (d.draw w).2.fab = d.fab := rfl
@[simp] theorem Dev.draw_crd (d : Dev) (w : Nat) : (d.draw w).2.crd = d.crd := rfl
@[simp] theorem Dev.draw_noc (d : Dev) (w : Nat) : (d.draw w).2.noc = d.noc := rfl
@[simp] theorem Dev.draw_led (d : Dev) (w : Nat) : (d.draw w).2.led = d.led := rfl
@[simp] theorem Dev.draw_mem (d : Dev) (w : Nat) : (d.draw w).2.mem = d.mem := rfl
@[simp] theorem Dev.draw_hst (d : Dev) (w : Nat) : (d.draw w).2.hst = d.hst := rfl
@[simp] theorem Dev.draw_ssw (d : Dev) (w : Nat) : (d.draw w).2.ssw = d.ssw := rfl
@[simp] theorem Dev.draw_ln (d : Dev) (w : Nat) : (d.draw w).2.ln = d.ln := rfl
@[simp] theorem Dev.draw_mp (d : Dev) (w : Nat) : (d.draw w).2.mp = d.mp := rfl
@[simp] theorem Dev.draw_en (d : Dev) (w : Nat) : (d.draw w).2.en = d.en := rfl
@[simp] theorem Dev.draw_ken (d : Dev) (w : Nat) : (d.draw w).2.ken = d.ken := rfl
@[simp] theorem Dev.draw_kln (d : Dev) (w : Nat) : (d.draw w).2.kln = d.kln := rfl
@[simp] theorem Dev.draw_pwr (d : Dev) (w : Nat) : (d.draw w).2.pwr = d.pwr := rfl
@[simp] theorem Dev.draw_lsh (d : Dev) (w : Nat) : (d.draw w).2.lsh = d.lsh := rfl

@[simp] theorem Dev.emit_out (d : Dev) (x : Output) : (d.emit x).out = d.out ++ [x] := rfl
@[simp] theorem Dev.draw_free (d : Dev) (w : Nat) : (d.draw w).2.free = d.free + 1 := rfl
@[simp] theorem Dev.on_true (d : Dev) (f : Dev → Dev) : d.on true f = f d := rfl
@[simp] theorem Dev.on_false (d : Dev) (f : Dev → Dev) : d.on false f = d := rfl

/-! ### Updates that change registers alone -/

/-- `d'` differs from `d` in its registers at most. -/
def Dev.OnlyRegs (d d' : Dev) : Prop := d' = { d with regs := d'.regs }

theorem Dev.OnlyRegs.refl (d : Dev) : d.OnlyRegs d := rfl

theorem Dev.OnlyRegs.trans {a b c : Dev} (h : a.OnlyRegs b) (g : b.OnlyRegs c) : a.OnlyRegs c := by
  unfold Dev.OnlyRegs at *
  rw [g, h]

theorem Dev.OnlyRegs.st (d : Dev) (f : Fld) (a : Ix) (v : Nat) : d.OnlyRegs (d.st f a v) := rfl

theorem Dev.OnlyRegs.on {d d' : Dev} (h : d.OnlyRegs d') (c : Bool) (f : Dev → Dev) (hf : d'.OnlyRegs (f d')) : d.OnlyRegs (d'.on c f) := by
  cases c
  · exact h
  · exact h.trans hf

theorem Dev.OnlyRegs.foldl {α : Type} (g : Dev → α → Dev) (h : ∀ d x, Dev.OnlyRegs d (g d x)) (l : List α) (d : Dev) : d.OnlyRegs (l.foldl g d) := by
  induction l generalizing d with
  | nil => exact Dev.OnlyRegs.refl d
  | cons x r ih => exact (h d x).trans (ih (g d x))

theorem Dev.addCount_onlyRegs (d : Dev) (a : Ix) (n : Nat) : d.OnlyRegs (d.addCount a n) := by
  unfold Dev.addCount
  exact (Dev.OnlyRegs.st d _ _ _).on _ _ (Dev.OnlyRegs.st _ _ _ _)

theorem Dev.count_onlyRegs (d : Dev) (b blk ev inst n : Nat) : d.OnlyRegs (d.count b blk ev inst n) := by
  unfold Dev.count
  split
  · exact Dev.OnlyRegs.refl d
  · apply Dev.OnlyRegs.foldl
    intro d x
    dsimp only
    split
    · exact Dev.addCount_onlyRegs _ _ _
    · exact Dev.OnlyRegs.refl d

theorem Dev.bump_onlyRegs (d : Dev) (f : Fld) (a : Ix) (n : Nat) : d.OnlyRegs (d.bump f a n) :=
  (Dev.OnlyRegs.st d _ _ _).trans (Dev.count_onlyRegs _ _ _ _ _ _)

theorem Dev.fabCount_onlyRegs (d : Dev) (f src inst n : Nat) : d.OnlyRegs (d.fabCount f src inst n) := by
  unfold Dev.fabCount
  apply Dev.OnlyRegs.foldl
  intro d x
  dsimp only
  split
  · exact (Dev.OnlyRegs.st d _ _ _).on _ _ (Dev.OnlyRegs.st _ _ _ _)
  · exact Dev.OnlyRegs.refl d

theorem Dev.OnlyRegs.free_eq {d d' : Dev} (h : d.OnlyRegs d') : d'.free = d.free := by rw [h]
theorem Dev.OnlyRegs.out_eq {d d' : Dev} (h : d.OnlyRegs d') : d'.out = d.out := by rw [h]
theorem Dev.OnlyRegs.root_eq {d d' : Dev} (h : d.OnlyRegs d') : d'.root = d.root := by rw [h]
theorem Dev.OnlyRegs.ht_eq {d d' : Dev} (h : d.OnlyRegs d') : d'.ht = d.ht := by rw [h]
theorem Dev.OnlyRegs.flt_eq {d d' : Dev} (h : d.OnlyRegs d') : d'.flt = d.flt := by rw [h]
theorem Dev.OnlyRegs.obs_eq {d d' : Dev} (h : d.OnlyRegs d') : d'.obs = d.obs := by rw [h]
theorem Dev.OnlyRegs.clk_eq {d d' : Dev} (h : d.OnlyRegs d') : d'.clk = d.clk := by rw [h]
theorem Dev.OnlyRegs.htx_eq {d d' : Dev} (h : d.OnlyRegs d') : d'.htx = d.htx := by rw [h]
theorem Dev.OnlyRegs.fuse_eq {d d' : Dev} (h : d.OnlyRegs d') : d'.fuse = d.fuse := by rw [h]
theorem Dev.OnlyRegs.bbk_eq {d d' : Dev} (h : d.OnlyRegs d') : d'.bbk = d.bbk := by rw [h]
theorem Dev.OnlyRegs.peat_eq {d d' : Dev} (h : d.OnlyRegs d') : d'.peat = d.peat := by rw [h]
theorem Dev.OnlyRegs.cfg_eq {d d' : Dev} (h : d.OnlyRegs d') : d'.cfg = d.cfg := by rw [h]
theorem Dev.OnlyRegs.pl_eq {d d' : Dev} (h : d.OnlyRegs d') : d'.pl = d.pl := by rw [h]
theorem Dev.OnlyRegs.fab_eq {d d' : Dev} (h : d.OnlyRegs d') : d'.fab = d.fab := by rw [h]
theorem Dev.OnlyRegs.crd_eq {d d' : Dev} (h : d.OnlyRegs d') : d'.crd = d.crd := by rw [h]
theorem Dev.OnlyRegs.noc_eq {d d' : Dev} (h : d.OnlyRegs d') : d'.noc = d.noc := by rw [h]
theorem Dev.OnlyRegs.led_eq {d d' : Dev} (h : d.OnlyRegs d') : d'.led = d.led := by rw [h]
theorem Dev.OnlyRegs.mem_eq {d d' : Dev} (h : d.OnlyRegs d') : d'.mem = d.mem := by rw [h]
theorem Dev.OnlyRegs.hst_eq {d d' : Dev} (h : d.OnlyRegs d') : d'.hst = d.hst := by rw [h]
theorem Dev.OnlyRegs.ssw_eq {d d' : Dev} (h : d.OnlyRegs d') : d'.ssw = d.ssw := by rw [h]
theorem Dev.OnlyRegs.ln_eq {d d' : Dev} (h : d.OnlyRegs d') : d'.ln = d.ln := by rw [h]
theorem Dev.OnlyRegs.mp_eq {d d' : Dev} (h : d.OnlyRegs d') : d'.mp = d.mp := by rw [h]
theorem Dev.OnlyRegs.en_eq {d d' : Dev} (h : d.OnlyRegs d') : d'.en = d.en := by rw [h]
theorem Dev.OnlyRegs.ken_eq {d d' : Dev} (h : d.OnlyRegs d') : d'.ken = d.ken := by rw [h]
theorem Dev.OnlyRegs.kln_eq {d d' : Dev} (h : d.OnlyRegs d') : d'.kln = d.kln := by rw [h]
theorem Dev.OnlyRegs.pwr_eq {d d' : Dev} (h : d.OnlyRegs d') : d'.pwr = d.pwr := by rw [h]
theorem Dev.OnlyRegs.lsh_eq {d d' : Dev} (h : d.OnlyRegs d') : d'.lsh = d.lsh := by rw [h]

@[simp] theorem Dev.addCount_free (d : Dev) (a : Ix) (n : Nat) : (d.addCount a n).free = d.free := (Dev.addCount_onlyRegs d a n).free_eq
@[simp] theorem Dev.addCount_out (d : Dev) (a : Ix) (n : Nat) : (d.addCount a n).out = d.out := (Dev.addCount_onlyRegs d a n).out_eq
@[simp] theorem Dev.addCount_root (d : Dev) (a : Ix) (n : Nat) : (d.addCount a n).root = d.root := (Dev.addCount_onlyRegs d a n).root_eq
@[simp] theorem Dev.addCount_ht (d : Dev) (a : Ix) (n : Nat) : (d.addCount a n).ht = d.ht := (Dev.addCount_onlyRegs d a n).ht_eq
@[simp] theorem Dev.addCount_flt (d : Dev) (a : Ix) (n : Nat) : (d.addCount a n).flt = d.flt := (Dev.addCount_onlyRegs d a n).flt_eq
@[simp] theorem Dev.addCount_obs (d : Dev) (a : Ix) (n : Nat) : (d.addCount a n).obs = d.obs := (Dev.addCount_onlyRegs d a n).obs_eq
@[simp] theorem Dev.addCount_clk (d : Dev) (a : Ix) (n : Nat) : (d.addCount a n).clk = d.clk := (Dev.addCount_onlyRegs d a n).clk_eq
@[simp] theorem Dev.addCount_htx (d : Dev) (a : Ix) (n : Nat) : (d.addCount a n).htx = d.htx := (Dev.addCount_onlyRegs d a n).htx_eq
@[simp] theorem Dev.addCount_fuse (d : Dev) (a : Ix) (n : Nat) : (d.addCount a n).fuse = d.fuse := (Dev.addCount_onlyRegs d a n).fuse_eq
@[simp] theorem Dev.addCount_bbk (d : Dev) (a : Ix) (n : Nat) : (d.addCount a n).bbk = d.bbk := (Dev.addCount_onlyRegs d a n).bbk_eq
@[simp] theorem Dev.addCount_peat (d : Dev) (a : Ix) (n : Nat) : (d.addCount a n).peat = d.peat := (Dev.addCount_onlyRegs d a n).peat_eq
@[simp] theorem Dev.addCount_cfg (d : Dev) (a : Ix) (n : Nat) : (d.addCount a n).cfg = d.cfg := (Dev.addCount_onlyRegs d a n).cfg_eq
@[simp] theorem Dev.addCount_pl (d : Dev) (a : Ix) (n : Nat) : (d.addCount a n).pl = d.pl := (Dev.addCount_onlyRegs d a n).pl_eq
@[simp] theorem Dev.addCount_fab (d : Dev) (a : Ix) (n : Nat) : (d.addCount a n).fab = d.fab := (Dev.addCount_onlyRegs d a n).fab_eq
@[simp] theorem Dev.addCount_crd (d : Dev) (a : Ix) (n : Nat) : (d.addCount a n).crd = d.crd := (Dev.addCount_onlyRegs d a n).crd_eq
@[simp] theorem Dev.addCount_noc (d : Dev) (a : Ix) (n : Nat) : (d.addCount a n).noc = d.noc := (Dev.addCount_onlyRegs d a n).noc_eq
@[simp] theorem Dev.addCount_led (d : Dev) (a : Ix) (n : Nat) : (d.addCount a n).led = d.led := (Dev.addCount_onlyRegs d a n).led_eq
@[simp] theorem Dev.addCount_mem (d : Dev) (a : Ix) (n : Nat) : (d.addCount a n).mem = d.mem := (Dev.addCount_onlyRegs d a n).mem_eq
@[simp] theorem Dev.addCount_hst (d : Dev) (a : Ix) (n : Nat) : (d.addCount a n).hst = d.hst := (Dev.addCount_onlyRegs d a n).hst_eq
@[simp] theorem Dev.addCount_ssw (d : Dev) (a : Ix) (n : Nat) : (d.addCount a n).ssw = d.ssw := (Dev.addCount_onlyRegs d a n).ssw_eq
@[simp] theorem Dev.addCount_ln (d : Dev) (a : Ix) (n : Nat) : (d.addCount a n).ln = d.ln := (Dev.addCount_onlyRegs d a n).ln_eq
@[simp] theorem Dev.addCount_mp (d : Dev) (a : Ix) (n : Nat) : (d.addCount a n).mp = d.mp := (Dev.addCount_onlyRegs d a n).mp_eq
@[simp] theorem Dev.addCount_en (d : Dev) (a : Ix) (n : Nat) : (d.addCount a n).en = d.en := (Dev.addCount_onlyRegs d a n).en_eq
@[simp] theorem Dev.addCount_ken (d : Dev) (a : Ix) (n : Nat) : (d.addCount a n).ken = d.ken := (Dev.addCount_onlyRegs d a n).ken_eq
@[simp] theorem Dev.addCount_kln (d : Dev) (a : Ix) (n : Nat) : (d.addCount a n).kln = d.kln := (Dev.addCount_onlyRegs d a n).kln_eq
@[simp] theorem Dev.addCount_pwr (d : Dev) (a : Ix) (n : Nat) : (d.addCount a n).pwr = d.pwr := (Dev.addCount_onlyRegs d a n).pwr_eq
@[simp] theorem Dev.addCount_lsh (d : Dev) (a : Ix) (n : Nat) : (d.addCount a n).lsh = d.lsh := (Dev.addCount_onlyRegs d a n).lsh_eq
@[simp] theorem Dev.count_free (d : Dev) (b blk ev inst n : Nat) : (d.count b blk ev inst n).free = d.free := (Dev.count_onlyRegs d b blk ev inst n).free_eq
@[simp] theorem Dev.count_out (d : Dev) (b blk ev inst n : Nat) : (d.count b blk ev inst n).out = d.out := (Dev.count_onlyRegs d b blk ev inst n).out_eq
@[simp] theorem Dev.count_root (d : Dev) (b blk ev inst n : Nat) : (d.count b blk ev inst n).root = d.root := (Dev.count_onlyRegs d b blk ev inst n).root_eq
@[simp] theorem Dev.count_ht (d : Dev) (b blk ev inst n : Nat) : (d.count b blk ev inst n).ht = d.ht := (Dev.count_onlyRegs d b blk ev inst n).ht_eq
@[simp] theorem Dev.count_flt (d : Dev) (b blk ev inst n : Nat) : (d.count b blk ev inst n).flt = d.flt := (Dev.count_onlyRegs d b blk ev inst n).flt_eq
@[simp] theorem Dev.count_obs (d : Dev) (b blk ev inst n : Nat) : (d.count b blk ev inst n).obs = d.obs := (Dev.count_onlyRegs d b blk ev inst n).obs_eq
@[simp] theorem Dev.count_clk (d : Dev) (b blk ev inst n : Nat) : (d.count b blk ev inst n).clk = d.clk := (Dev.count_onlyRegs d b blk ev inst n).clk_eq
@[simp] theorem Dev.count_htx (d : Dev) (b blk ev inst n : Nat) : (d.count b blk ev inst n).htx = d.htx := (Dev.count_onlyRegs d b blk ev inst n).htx_eq
@[simp] theorem Dev.count_fuse (d : Dev) (b blk ev inst n : Nat) : (d.count b blk ev inst n).fuse = d.fuse := (Dev.count_onlyRegs d b blk ev inst n).fuse_eq
@[simp] theorem Dev.count_bbk (d : Dev) (b blk ev inst n : Nat) : (d.count b blk ev inst n).bbk = d.bbk := (Dev.count_onlyRegs d b blk ev inst n).bbk_eq
@[simp] theorem Dev.count_peat (d : Dev) (b blk ev inst n : Nat) : (d.count b blk ev inst n).peat = d.peat := (Dev.count_onlyRegs d b blk ev inst n).peat_eq
@[simp] theorem Dev.count_cfg (d : Dev) (b blk ev inst n : Nat) : (d.count b blk ev inst n).cfg = d.cfg := (Dev.count_onlyRegs d b blk ev inst n).cfg_eq
@[simp] theorem Dev.count_pl (d : Dev) (b blk ev inst n : Nat) : (d.count b blk ev inst n).pl = d.pl := (Dev.count_onlyRegs d b blk ev inst n).pl_eq
@[simp] theorem Dev.count_fab (d : Dev) (b blk ev inst n : Nat) : (d.count b blk ev inst n).fab = d.fab := (Dev.count_onlyRegs d b blk ev inst n).fab_eq
@[simp] theorem Dev.count_crd (d : Dev) (b blk ev inst n : Nat) : (d.count b blk ev inst n).crd = d.crd := (Dev.count_onlyRegs d b blk ev inst n).crd_eq
@[simp] theorem Dev.count_noc (d : Dev) (b blk ev inst n : Nat) : (d.count b blk ev inst n).noc = d.noc := (Dev.count_onlyRegs d b blk ev inst n).noc_eq
@[simp] theorem Dev.count_led (d : Dev) (b blk ev inst n : Nat) : (d.count b blk ev inst n).led = d.led := (Dev.count_onlyRegs d b blk ev inst n).led_eq
@[simp] theorem Dev.count_mem (d : Dev) (b blk ev inst n : Nat) : (d.count b blk ev inst n).mem = d.mem := (Dev.count_onlyRegs d b blk ev inst n).mem_eq
@[simp] theorem Dev.count_hst (d : Dev) (b blk ev inst n : Nat) : (d.count b blk ev inst n).hst = d.hst := (Dev.count_onlyRegs d b blk ev inst n).hst_eq
@[simp] theorem Dev.count_ssw (d : Dev) (b blk ev inst n : Nat) : (d.count b blk ev inst n).ssw = d.ssw := (Dev.count_onlyRegs d b blk ev inst n).ssw_eq
@[simp] theorem Dev.count_ln (d : Dev) (b blk ev inst n : Nat) : (d.count b blk ev inst n).ln = d.ln := (Dev.count_onlyRegs d b blk ev inst n).ln_eq
@[simp] theorem Dev.count_mp (d : Dev) (b blk ev inst n : Nat) : (d.count b blk ev inst n).mp = d.mp := (Dev.count_onlyRegs d b blk ev inst n).mp_eq
@[simp] theorem Dev.count_en (d : Dev) (b blk ev inst n : Nat) : (d.count b blk ev inst n).en = d.en := (Dev.count_onlyRegs d b blk ev inst n).en_eq
@[simp] theorem Dev.count_ken (d : Dev) (b blk ev inst n : Nat) : (d.count b blk ev inst n).ken = d.ken := (Dev.count_onlyRegs d b blk ev inst n).ken_eq
@[simp] theorem Dev.count_kln (d : Dev) (b blk ev inst n : Nat) : (d.count b blk ev inst n).kln = d.kln := (Dev.count_onlyRegs d b blk ev inst n).kln_eq
@[simp] theorem Dev.count_pwr (d : Dev) (b blk ev inst n : Nat) : (d.count b blk ev inst n).pwr = d.pwr := (Dev.count_onlyRegs d b blk ev inst n).pwr_eq
@[simp] theorem Dev.count_lsh (d : Dev) (b blk ev inst n : Nat) : (d.count b blk ev inst n).lsh = d.lsh := (Dev.count_onlyRegs d b blk ev inst n).lsh_eq
@[simp] theorem Dev.bump_free (d : Dev) (x : Fld) (a : Ix) (n : Nat) : (d.bump x a n).free = d.free := (Dev.bump_onlyRegs d x a n).free_eq
@[simp] theorem Dev.bump_out (d : Dev) (x : Fld) (a : Ix) (n : Nat) : (d.bump x a n).out = d.out := (Dev.bump_onlyRegs d x a n).out_eq
@[simp] theorem Dev.bump_root (d : Dev) (x : Fld) (a : Ix) (n : Nat) : (d.bump x a n).root = d.root := (Dev.bump_onlyRegs d x a n).root_eq
@[simp] theorem Dev.bump_ht (d : Dev) (x : Fld) (a : Ix) (n : Nat) : (d.bump x a n).ht = d.ht := (Dev.bump_onlyRegs d x a n).ht_eq
@[simp] theorem Dev.bump_flt (d : Dev) (x : Fld) (a : Ix) (n : Nat) : (d.bump x a n).flt = d.flt := (Dev.bump_onlyRegs d x a n).flt_eq
@[simp] theorem Dev.bump_obs (d : Dev) (x : Fld) (a : Ix) (n : Nat) : (d.bump x a n).obs = d.obs := (Dev.bump_onlyRegs d x a n).obs_eq
@[simp] theorem Dev.bump_clk (d : Dev) (x : Fld) (a : Ix) (n : Nat) : (d.bump x a n).clk = d.clk := (Dev.bump_onlyRegs d x a n).clk_eq
@[simp] theorem Dev.bump_htx (d : Dev) (x : Fld) (a : Ix) (n : Nat) : (d.bump x a n).htx = d.htx := (Dev.bump_onlyRegs d x a n).htx_eq
@[simp] theorem Dev.bump_fuse (d : Dev) (x : Fld) (a : Ix) (n : Nat) : (d.bump x a n).fuse = d.fuse := (Dev.bump_onlyRegs d x a n).fuse_eq
@[simp] theorem Dev.bump_bbk (d : Dev) (x : Fld) (a : Ix) (n : Nat) : (d.bump x a n).bbk = d.bbk := (Dev.bump_onlyRegs d x a n).bbk_eq
@[simp] theorem Dev.bump_peat (d : Dev) (x : Fld) (a : Ix) (n : Nat) : (d.bump x a n).peat = d.peat := (Dev.bump_onlyRegs d x a n).peat_eq
@[simp] theorem Dev.bump_cfg (d : Dev) (x : Fld) (a : Ix) (n : Nat) : (d.bump x a n).cfg = d.cfg := (Dev.bump_onlyRegs d x a n).cfg_eq
@[simp] theorem Dev.bump_pl (d : Dev) (x : Fld) (a : Ix) (n : Nat) : (d.bump x a n).pl = d.pl := (Dev.bump_onlyRegs d x a n).pl_eq
@[simp] theorem Dev.bump_fab (d : Dev) (x : Fld) (a : Ix) (n : Nat) : (d.bump x a n).fab = d.fab := (Dev.bump_onlyRegs d x a n).fab_eq
@[simp] theorem Dev.bump_crd (d : Dev) (x : Fld) (a : Ix) (n : Nat) : (d.bump x a n).crd = d.crd := (Dev.bump_onlyRegs d x a n).crd_eq
@[simp] theorem Dev.bump_noc (d : Dev) (x : Fld) (a : Ix) (n : Nat) : (d.bump x a n).noc = d.noc := (Dev.bump_onlyRegs d x a n).noc_eq
@[simp] theorem Dev.bump_led (d : Dev) (x : Fld) (a : Ix) (n : Nat) : (d.bump x a n).led = d.led := (Dev.bump_onlyRegs d x a n).led_eq
@[simp] theorem Dev.bump_mem (d : Dev) (x : Fld) (a : Ix) (n : Nat) : (d.bump x a n).mem = d.mem := (Dev.bump_onlyRegs d x a n).mem_eq
@[simp] theorem Dev.bump_hst (d : Dev) (x : Fld) (a : Ix) (n : Nat) : (d.bump x a n).hst = d.hst := (Dev.bump_onlyRegs d x a n).hst_eq
@[simp] theorem Dev.bump_ssw (d : Dev) (x : Fld) (a : Ix) (n : Nat) : (d.bump x a n).ssw = d.ssw := (Dev.bump_onlyRegs d x a n).ssw_eq
@[simp] theorem Dev.bump_ln (d : Dev) (x : Fld) (a : Ix) (n : Nat) : (d.bump x a n).ln = d.ln := (Dev.bump_onlyRegs d x a n).ln_eq
@[simp] theorem Dev.bump_mp (d : Dev) (x : Fld) (a : Ix) (n : Nat) : (d.bump x a n).mp = d.mp := (Dev.bump_onlyRegs d x a n).mp_eq
@[simp] theorem Dev.bump_en (d : Dev) (x : Fld) (a : Ix) (n : Nat) : (d.bump x a n).en = d.en := (Dev.bump_onlyRegs d x a n).en_eq
@[simp] theorem Dev.bump_ken (d : Dev) (x : Fld) (a : Ix) (n : Nat) : (d.bump x a n).ken = d.ken := (Dev.bump_onlyRegs d x a n).ken_eq
@[simp] theorem Dev.bump_kln (d : Dev) (x : Fld) (a : Ix) (n : Nat) : (d.bump x a n).kln = d.kln := (Dev.bump_onlyRegs d x a n).kln_eq
@[simp] theorem Dev.bump_pwr (d : Dev) (x : Fld) (a : Ix) (n : Nat) : (d.bump x a n).pwr = d.pwr := (Dev.bump_onlyRegs d x a n).pwr_eq
@[simp] theorem Dev.bump_lsh (d : Dev) (x : Fld) (a : Ix) (n : Nat) : (d.bump x a n).lsh = d.lsh := (Dev.bump_onlyRegs d x a n).lsh_eq
@[simp] theorem Dev.fabCount_free (d : Dev) (b src inst n : Nat) : (d.fabCount b src inst n).free = d.free := (Dev.fabCount_onlyRegs d b src inst n).free_eq
@[simp] theorem Dev.fabCount_out (d : Dev) (b src inst n : Nat) : (d.fabCount b src inst n).out = d.out := (Dev.fabCount_onlyRegs d b src inst n).out_eq
@[simp] theorem Dev.fabCount_root (d : Dev) (b src inst n : Nat) : (d.fabCount b src inst n).root = d.root := (Dev.fabCount_onlyRegs d b src inst n).root_eq
@[simp] theorem Dev.fabCount_ht (d : Dev) (b src inst n : Nat) : (d.fabCount b src inst n).ht = d.ht := (Dev.fabCount_onlyRegs d b src inst n).ht_eq
@[simp] theorem Dev.fabCount_flt (d : Dev) (b src inst n : Nat) : (d.fabCount b src inst n).flt = d.flt := (Dev.fabCount_onlyRegs d b src inst n).flt_eq
@[simp] theorem Dev.fabCount_obs (d : Dev) (b src inst n : Nat) : (d.fabCount b src inst n).obs = d.obs := (Dev.fabCount_onlyRegs d b src inst n).obs_eq
@[simp] theorem Dev.fabCount_clk (d : Dev) (b src inst n : Nat) : (d.fabCount b src inst n).clk = d.clk := (Dev.fabCount_onlyRegs d b src inst n).clk_eq
@[simp] theorem Dev.fabCount_htx (d : Dev) (b src inst n : Nat) : (d.fabCount b src inst n).htx = d.htx := (Dev.fabCount_onlyRegs d b src inst n).htx_eq
@[simp] theorem Dev.fabCount_fuse (d : Dev) (b src inst n : Nat) : (d.fabCount b src inst n).fuse = d.fuse := (Dev.fabCount_onlyRegs d b src inst n).fuse_eq
@[simp] theorem Dev.fabCount_bbk (d : Dev) (b src inst n : Nat) : (d.fabCount b src inst n).bbk = d.bbk := (Dev.fabCount_onlyRegs d b src inst n).bbk_eq
@[simp] theorem Dev.fabCount_peat (d : Dev) (b src inst n : Nat) : (d.fabCount b src inst n).peat = d.peat := (Dev.fabCount_onlyRegs d b src inst n).peat_eq
@[simp] theorem Dev.fabCount_cfg (d : Dev) (b src inst n : Nat) : (d.fabCount b src inst n).cfg = d.cfg := (Dev.fabCount_onlyRegs d b src inst n).cfg_eq
@[simp] theorem Dev.fabCount_pl (d : Dev) (b src inst n : Nat) : (d.fabCount b src inst n).pl = d.pl := (Dev.fabCount_onlyRegs d b src inst n).pl_eq
@[simp] theorem Dev.fabCount_fab (d : Dev) (b src inst n : Nat) : (d.fabCount b src inst n).fab = d.fab := (Dev.fabCount_onlyRegs d b src inst n).fab_eq
@[simp] theorem Dev.fabCount_crd (d : Dev) (b src inst n : Nat) : (d.fabCount b src inst n).crd = d.crd := (Dev.fabCount_onlyRegs d b src inst n).crd_eq
@[simp] theorem Dev.fabCount_noc (d : Dev) (b src inst n : Nat) : (d.fabCount b src inst n).noc = d.noc := (Dev.fabCount_onlyRegs d b src inst n).noc_eq
@[simp] theorem Dev.fabCount_led (d : Dev) (b src inst n : Nat) : (d.fabCount b src inst n).led = d.led := (Dev.fabCount_onlyRegs d b src inst n).led_eq
@[simp] theorem Dev.fabCount_mem (d : Dev) (b src inst n : Nat) : (d.fabCount b src inst n).mem = d.mem := (Dev.fabCount_onlyRegs d b src inst n).mem_eq
@[simp] theorem Dev.fabCount_hst (d : Dev) (b src inst n : Nat) : (d.fabCount b src inst n).hst = d.hst := (Dev.fabCount_onlyRegs d b src inst n).hst_eq
@[simp] theorem Dev.fabCount_ssw (d : Dev) (b src inst n : Nat) : (d.fabCount b src inst n).ssw = d.ssw := (Dev.fabCount_onlyRegs d b src inst n).ssw_eq
@[simp] theorem Dev.fabCount_ln (d : Dev) (b src inst n : Nat) : (d.fabCount b src inst n).ln = d.ln := (Dev.fabCount_onlyRegs d b src inst n).ln_eq
@[simp] theorem Dev.fabCount_mp (d : Dev) (b src inst n : Nat) : (d.fabCount b src inst n).mp = d.mp := (Dev.fabCount_onlyRegs d b src inst n).mp_eq
@[simp] theorem Dev.fabCount_en (d : Dev) (b src inst n : Nat) : (d.fabCount b src inst n).en = d.en := (Dev.fabCount_onlyRegs d b src inst n).en_eq
@[simp] theorem Dev.fabCount_ken (d : Dev) (b src inst n : Nat) : (d.fabCount b src inst n).ken = d.ken := (Dev.fabCount_onlyRegs d b src inst n).ken_eq
@[simp] theorem Dev.fabCount_kln (d : Dev) (b src inst n : Nat) : (d.fabCount b src inst n).kln = d.kln := (Dev.fabCount_onlyRegs d b src inst n).kln_eq
@[simp] theorem Dev.fabCount_pwr (d : Dev) (b src inst n : Nat) : (d.fabCount b src inst n).pwr = d.pwr := (Dev.fabCount_onlyRegs d b src inst n).pwr_eq
@[simp] theorem Dev.fabCount_lsh (d : Dev) (b src inst n : Nat) : (d.fabCount b src inst n).lsh = d.lsh := (Dev.fabCount_onlyRegs d b src inst n).lsh_eq

/-! ### The queue -/

@[simp] theorem State.after_pending (s : State) (f : Dev → Dev) : (s.after f).pending = s.pending := by unfold State.after; rfl
@[simp] theorem State.after_dev (s : State) (f : Dev → Dev) : (s.after f).dev = (f s.dev).settle := by unfold State.after; rfl
@[simp] theorem State.act_eq (s : State) (f : Dev → Dev) : s.act f = .next (s.after f) := rfl

end Sys2Proof.Machine
end

