-- ==== Sys2Proof/Laws/Reg.lean ====
section
/-! SUPPORT. Laws of register fields: a read after a write, writes and counts that leave a field alone. -/

namespace Sys2Proof.Machine

/-! ### A read depends on the registers, and for routing entries on what Kindling wrote -/

theorem Dev.unset_congr {d d' : Dev} (f : Fld) (a : Ix) (h : d'.noc = d.noc) : d'.unset f a = d.unset f a := by unfold Dev.unset; rw [h]

theorem Dev.rd_congr {d d' : Dev} (f : Fld) (a : Ix) (h : d'.regs = d.regs) (hn : d'.noc = d.noc) : d'.rd f a = d.rd f a := by
  unfold Dev.rd
  rw [h, Dev.unset_congr f a hn]

@[simp] theorem Dev.rd_emit (d : Dev) (x : Output) (f : Fld) (a : Ix) : (d.emit x).rd f a = d.rd f a := Dev.rd_congr f a rfl rfl
@[simp] theorem Dev.rd_draw (d : Dev) (w : Nat) (f : Fld) (a : Ix) : (d.draw w).2.rd f a = d.rd f a := Dev.rd_congr f a rfl rfl

/-- A field reads the value written to it, cut to its width. -/
@[simp] theorem Dev.rd_st_same (d : Dev) (f : Fld) (a : Ix) (v : Nat) : (d.st f a v).rd f a = v % 2 ^ f.w := by
  unfold Dev.rd
  rw [Dev.unset_congr f a (Dev.st_noc d f a v)]
  exact Tbl.get_set_same _ _ _ _

/-- A write leaves every field under another key alone. -/
theorem Dev.rd_st_ne (d : Dev) {f g : Fld} {a b : Ix} (v : Nat) (h : g.key b ≠ f.key a) : (d.st f a v).rd g b = d.rd g b := by
  unfold Dev.rd
  rw [Dev.unset_congr g b (Dev.st_noc d f a v)]
  exact Tbl.get_set_ne _ _ _ _ h

/-- Every field of the mode register's die lies apart from this one: the shape in which keys of fixed registers are compared. -/
theorem Dev.flag_congr {d d' : Dev} {f : Fld} {a : Ix} (h : d'.rd f a = d.rd f a) : d'.flag f a = d.flag f a := by
  unfold Dev.flag
  rw [h]

/-! ### Event counters lie in block 8 of each die -/

/-- The block number in an address of base-die control space. -/
def Fld.blockAt (f : Fld) (a : Ix) : Nat := f.key a / 64 % 0x10000000 / 0x1000000

theorem evtCnt_block (c : Nat) : F.EVT_CNT_count.blockAt (Ix.on (c / 256) (c % 256)) = 8 := by
  simp only [Fld.blockAt, Fld.key, F.EVT_CNT_count, Ix.on]
  omega

theorem evtSel_block (c : Nat) : F.EVT_SEL_ovf.blockAt (Ix.on (c / 256) (c % 256)) = 8 := by
  simp only [Fld.blockAt, Fld.key, F.EVT_SEL_ovf, Ix.on]
  omega

theorem Dev.rd_addCount (d : Dev) (c n : Nat) {f : Fld} {a : Ix} (h : f.blockAt a ≠ 8) :
    (d.addCount (Ix.on (c / 256) (c % 256)) n).rd f a = d.rd f a := by
  have h1 : f.key a ≠ F.EVT_CNT_count.key (Ix.on (c / 256) (c % 256)) := by
    intro hk
    apply h
    have := evtCnt_block c
    unfold Fld.blockAt at *
    rw [hk]
    exact this
  have h2 : f.key a ≠ F.EVT_SEL_ovf.key (Ix.on (c / 256) (c % 256)) := by
    intro hk
    apply h
    have := evtSel_block c
    unfold Fld.blockAt at *
    rw [hk]
    exact this
  unfold Dev.addCount Dev.on
  dsimp only
  split
  · rw [Dev.rd_st_ne _ _ h2, Dev.rd_st_ne _ _ h1]
  · rw [Dev.rd_st_ne _ _ h1]

/-- Counting an event changes no register outside block 8. -/
theorem Dev.rd_count (d : Dev) (b blk ev inst n : Nat) {f : Fld} {a : Ix} (h : f.blockAt a ≠ 8) : (d.count b blk ev inst n).rd f a = d.rd f a := by
  unfold Dev.count
  split
  · rfl
  · generalize d.obs.evtOn = l
    induction l generalizing d with
    | nil => rfl
    | cons c r ih =>
      rw [List.foldl_cons, ih]
      dsimp only
      split
      · exact Dev.rd_addCount d c n h
      · rfl

/-- An RC counter's count leaves every other field outside block 8 alone. -/
theorem Dev.rd_bump_ne (d : Dev) {f g : Fld} {a b : Ix} (n : Nat) (h : g.key b ≠ f.key a) (h8 : g.blockAt b ≠ 8) : (d.bump f a n).rd g b = d.rd g b := by
  unfold Dev.bump
  rw [Dev.rd_count _ _ _ _ _ _ h8, Dev.rd_st_ne _ _ h]

/-! ### The registers of the mode and of the session -/

theorem Dev.mode_congr {d d' : Dev} (h : d'.rd F.HRT_MODE_mode {} = d.rd F.HRT_MODE_mode {}) : d'.mode = d.mode := by
  unfold Dev.mode
  rw [h]

@[simp] theorem Dev.mode_emit (d : Dev) (x : Output) : (d.emit x).mode = d.mode := Dev.mode_congr (Dev.rd_emit d x _ _)
@[simp] theorem Dev.mode_draw (d : Dev) (w : Nat) : (d.draw w).2.mode = d.mode := Dev.mode_congr (Dev.rd_draw d w _ _)
@[simp] theorem Dev.mode_count (d : Dev) (b blk ev inst n : Nat) : (d.count b blk ev inst n).mode = d.mode :=
  Dev.mode_congr (Dev.rd_count d b blk ev inst n (by decide))
@[simp] theorem Dev.mode_st_fenced (d : Dev) (v : Nat) : (d.st F.HRT_MODE_fenced {} v).mode = d.mode := Dev.mode_congr (Dev.rd_st_ne d v (by decide))
@[simp] theorem Dev.mode_st_rights (d : Dev) (v : Nat) : (d.st F.LSH_STAT_rights {} v).mode = d.mode := Dev.mode_congr (Dev.rd_st_ne d v (by decide))
@[simp] theorem Dev.mode_fence (d : Dev) : d.fence.mode = d.mode := by
  unfold Dev.fence
  rw [Dev.mode_emit, Dev.mode_st_fenced]
@[simp] theorem Dev.mode_st_mode (d : Dev) (m : Mode) : (d.st F.HRT_MODE_mode {} m.code).mode = m := by
  unfold Dev.mode
  rw [Dev.rd_st_same]
  cases m <;> decide

end Sys2Proof.Machine
end

