-- ==== Sys2Proof/Laws/Engine.lean ====
section
/-! SUPPORT. Laws of engines: register and flag writes touch the writes in flight only, a store touches memory only, and what one plain issue comes to. -/

namespace Sys2Proof.Machine

/-! ### Writes of registers and flags -/

/-- `y` is `x` but for its writes in flight. -/
def EngSt.OnlyPend (x y : EngSt) : Prop := ∃ p, y = { x with pend := p }

theorem EngSt.OnlyPend.refl (x : EngSt) : x.OnlyPend x := ⟨x.pend, rfl⟩
theorem EngSt.OnlyPend.trans {x y z : EngSt} (h : x.OnlyPend y) (k : y.OnlyPend z) : x.OnlyPend z := by
  obtain ⟨p, rfl⟩ := h
  obtain ⟨q, rfl⟩ := k
  exact ⟨q, rfl⟩
theorem EngSt.OnlyPend.ite {x y z : EngSt} {c : Prop} [Decidable c] (h : x.OnlyPend y) (k : x.OnlyPend z) : x.OnlyPend (if c then y else z) := by
  split <;> assumption
theorem EngSt.OnlyPend.foldl {α : Type} {f : EngSt → α → EngSt} (h : ∀ (y : EngSt) (a : α), y.OnlyPend (f y a)) (l : List α) (x : EngSt) : x.OnlyPend (l.foldl f x) := by
  induction l generalizing x with
  | nil => exact .refl x
  | cons a r ih => exact (h x a).trans (ih _)

theorem EngSt.OnlyPend.redirect {x y : EngSt} (h : x.OnlyPend y) : y.redirect = x.redirect := by obtain ⟨p, rfl⟩ := h; rfl
theorem EngSt.OnlyPend.mem {x y : EngSt} (h : x.OnlyPend y) : y.mem = x.mem := by obtain ⟨p, rfl⟩ := h; rfl
theorem EngSt.OnlyPend.n {x y : EngSt} (h : x.OnlyPend y) : y.n = x.n := by obtain ⟨p, rfl⟩ := h; rfl
theorem EngSt.OnlyPend.pc {x y : EngSt} (h : x.OnlyPend y) : y.pc = x.pc := by obtain ⟨p, rfl⟩ := h; rfl
theorem EngSt.OnlyPend.rpt {x y : EngSt} (h : x.OnlyPend y) : y.rpt = x.rpt := by obtain ⟨p, rfl⟩ := h; rfl
theorem EngSt.OnlyPend.tapm {x y : EngSt} (h : x.OnlyPend y) : y.tapm = x.tapm := by obtain ⟨p, rfl⟩ := h; rfl

theorem EngSt.only_wr (x : EngSt) (loc v p b a l : Nat) : x.OnlyPend (x.wr loc v p b a l) := ⟨_, rfl⟩
theorem EngSt.only_wrG (x : EngSt) (r v : Nat) : x.OnlyPend (x.wrG r v) := .ite (.refl x) (only_wr x _ _ _ _ _ _)
theorem EngSt.only_wrLoad (x : EngSt) (r v : Nat) : x.OnlyPend (x.wrLoad r v) := .ite (.refl x) (only_wr x _ _ _ _ _ _)
theorem EngSt.only_wrNow (x : EngSt) (r v : Nat) : x.OnlyPend (x.wrNow r v) := .ite (.refl x) (only_wr x _ _ _ _ _ _)
theorem EngSt.only_wrA (x : EngSt) (k l v : Nat) : x.OnlyPend (x.wrA k l v) := ⟨_, rfl⟩
theorem EngSt.only_wrSoon (x : EngSt) (loc v : Nat) : x.OnlyPend (x.wrSoon loc v) := ⟨_, rfl⟩
theorem EngSt.only_wrBx (x : EngSt) (v : Nat) : x.OnlyPend (x.wrBx v) := ⟨_, rfl⟩
theorem EngSt.only_setP (x : EngSt) (k v : Nat) : x.OnlyPend (x.setP k v) := ⟨_, rfl⟩
theorem EngSt.only_setF (x : EngSt) (loc : Nat) (b : Bool) : x.OnlyPend (x.setF loc b) := ⟨_, rfl⟩
theorem EngSt.only_stick (x : EngSt) (loc : Nat) (b : Bool) : x.OnlyPend (x.stick loc b) := .ite (only_setF x _ _) (.refl x)
theorem EngSt.only_setV (x : EngSt) (b : Bool) : x.OnlyPend (x.setV b) := (only_setF x _ _).trans (only_stick _ _ _)
theorem EngSt.only_setZ (x : EngSt) (r : Nat) : x.OnlyPend (x.setZ r) := only_setF x _ _
theorem EngSt.only_setVZ (x : EngSt) (r : Nat) : x.OnlyPend (x.setVZ r) := only_setF x _ _
theorem EngSt.only_setZN (x : EngSt) (r : Nat) : x.OnlyPend (x.setZN r) := (only_setF x _ _).trans (only_setF _ _ _)
theorem EngSt.only_flagsAdd (x : EngSt) (a b : Nat) : x.OnlyPend (x.flagsAdd a b) := ((only_setZN x _).trans (only_setF _ _ _)).trans (only_setV _ _)
theorem EngSt.only_flagsSub (x : EngSt) (a b : Nat) : x.OnlyPend (x.flagsSub a b) := ((only_setZN x _).trans (only_setF _ _ _)).trans (only_setV _ _)
theorem EngSt.only_wrVec (x : EngSt) (r v : Nat) : x.OnlyPend (x.wrVec r v) := (only_wrG x _ _).trans (only_wrG _ _ _)
theorem EngSt.only_wrVecLoad (x : EngSt) (r v : Nat) : x.OnlyPend (x.wrVecLoad r v) := (only_wrLoad x _ _).trans (only_wrLoad _ _ _)
theorem EngSt.only_lowerBx (x : EngSt) (l : List Nat) : x.OnlyPend (x.lowerBx l) := ⟨_, rfl⟩
theorem EngSt.only_bexp16 (x : EngSt) (v : Nat) : x.OnlyPend (x.bexp16 v) := ⟨_, rfl⟩
theorem EngSt.only_clearAcc (x : EngSt) (a : Nat) : x.OnlyPend (x.clearAcc a) := .foldl (fun y l => only_wrA y a l 0) _ x
theorem EngSt.only_wrStatus (x : EngSt) (v : Nat) : x.OnlyPend (x.wrStatus v) :=
  ((OnlyPend.foldl (fun y _ => only_wr y _ _ _ _ _ _) _ x).trans (only_wr _ _ _ _ _ _ _)).trans (only_wr _ _ _ _ _ _ _)
theorem EngSt.only_wrSpecial (x : EngSt) (i v : Nat) (load : Bool) : x.OnlyPend (x.wrSpecial i v load) :=
  .ite (.ite (only_wr x _ _ _ _ _ _) (only_wr x _ _ _ _ _ _)) (.ite (only_wrStatus x _) (only_wr x _ _ _ _ _ _))
theorem only_macLane (y x : EngSt) (k l : Nat) (sub clr : Bool) (p : Int) : y.OnlyPend (macLane y x k l sub clr p) :=
  .ite (EngSt.only_wrA y _ _ _) (.ite ((EngSt.only_wrA y _ _ _).trans (EngSt.only_stick _ _ _)) ((EngSt.only_wrA y _ _ _).trans (EngSt.only_stick _ _ _)))
theorem only_macLanes (y x : EngSt) (k : Nat) (sub clr : Bool) (xs ys : Nat → Int) : y.OnlyPend (macLanes y x k sub clr xs ys) :=
  .foldl (fun y l => only_macLane y x k l sub clr _) _ y
theorem EngSt.only_reti (x : EngSt) : { x with pc := x.rd .plain (locX 40) }.OnlyPend x.reti := by
  have h : ∀ (l : List Nat) (y : EngSt), y.OnlyPend (l.foldl (fun (y : EngSt) (i : Nat) => y.wrSoon (128 + i) (bits (x.rd .plain (locX 41)) i 1)) y) :=
    fun l y => .foldl (fun y _ => only_wrSoon y _ _) l y
  obtain ⟨p, hp⟩ := h (List.range 8) x
  unfold EngSt.reti
  dsimp only
  rw [hp]
  exact ⟨_, rfl⟩

/-! ### Operands -/

/-- A format M operand answers the engine but for a post-modify. -/
theorem EngSt.only_opM {x y : EngSt} {o : MemOp} {w a : Nat} (h : x.opM o w = .ok (a, y)) : x.OnlyPend y := by
  unfold EngSt.opM at h
  dsimp only at h
  split at h
  · cases h
  · split at h
    · cases h
    · cases h
      split
      · exact only_setP x _ _
      · exact only_setP x _ _
      · exact .refl x

/-- An operand of formats P and A answers the engine but for a post-modify. -/
theorem EngSt.only_opP {x y : EngSt} {k m w a : Nat} (h : x.opP k m w = .ok (a, y)) : x.OnlyPend y := by
  unfold EngSt.opP at h
  dsimp only at h
  split at h
  · cases h
  · cases h
    exact .ite (.refl x) (only_setP x _ _)

/-- The operands of VMAC and TAPM answer the engine but for their post-modifies. -/
theorem only_macAddrs {x y : EngSt} {p : MacP} {wx wy xa ya : Nat} (h : macAddrs x p wx wy = .ok (xa, ya, y)) : x.OnlyPend y := by
  unfold macAddrs at h
  split at h
  · cases h
  · rename_i hx
    split at h
    · cases h
    · split at h
      · cases h
      · cases h
        exact .ite (EngSt.only_opP hx) ((EngSt.only_opP hx).trans (EngSt.only_setP _ _ _))

/-! ### Redirects: what moves an engine elsewhere is a branch, nothing else -/

@[simp] theorem EngSt.wr_redirect (x : EngSt) (loc v p b a l : Nat) : (x.wr loc v p b a l).redirect = x.redirect := rfl
@[simp] theorem EngSt.wrG_redirect (x : EngSt) (r v : Nat) : (x.wrG r v).redirect = x.redirect := (only_wrG x r v).redirect
@[simp] theorem EngSt.wrLoad_redirect (x : EngSt) (r v : Nat) : (x.wrLoad r v).redirect = x.redirect := (only_wrLoad x r v).redirect
@[simp] theorem EngSt.wrNow_redirect (x : EngSt) (r v : Nat) : (x.wrNow r v).redirect = x.redirect := (only_wrNow x r v).redirect
@[simp] theorem EngSt.wrA_redirect (x : EngSt) (k l v : Nat) : (x.wrA k l v).redirect = x.redirect := rfl
@[simp] theorem EngSt.wrSoon_redirect (x : EngSt) (loc v : Nat) : (x.wrSoon loc v).redirect = x.redirect := rfl
@[simp] theorem EngSt.wrBx_redirect (x : EngSt) (v : Nat) : (x.wrBx v).redirect = x.redirect := rfl
@[simp] theorem EngSt.setP_redirect (x : EngSt) (k v : Nat) : (x.setP k v).redirect = x.redirect := rfl
@[simp] theorem EngSt.setF_redirect (x : EngSt) (loc : Nat) (b : Bool) : (x.setF loc b).redirect = x.redirect := rfl
@[simp] theorem EngSt.stick_redirect (x : EngSt) (loc : Nat) (b : Bool) : (x.stick loc b).redirect = x.redirect := (only_stick x loc b).redirect
@[simp] theorem EngSt.setV_redirect (x : EngSt) (b : Bool) : (x.setV b).redirect = x.redirect := (only_setV x b).redirect
@[simp] theorem EngSt.setZ_redirect (x : EngSt) (r : Nat) : (x.setZ r).redirect = x.redirect := rfl
@[simp] theorem EngSt.setVZ_redirect (x : EngSt) (r : Nat) : (x.setVZ r).redirect = x.redirect := rfl
@[simp] theorem EngSt.setZN_redirect (x : EngSt) (r : Nat) : (x.setZN r).redirect = x.redirect := rfl
@[simp] theorem EngSt.flagsAdd_redirect (x : EngSt) (a b : Nat) : (x.flagsAdd a b).redirect = x.redirect := (only_flagsAdd x a b).redirect
@[simp] theorem EngSt.flagsSub_redirect (x : EngSt) (a b : Nat) : (x.flagsSub a b).redirect = x.redirect := (only_flagsSub x a b).redirect
@[simp] theorem EngSt.wrVec_redirect (x : EngSt) (r v : Nat) : (x.wrVec r v).redirect = x.redirect := (only_wrVec x r v).redirect
@[simp] theorem EngSt.wrVecLoad_redirect (x : EngSt) (r v : Nat) : (x.wrVecLoad r v).redirect = x.redirect := (only_wrVecLoad x r v).redirect
@[simp] theorem EngSt.lowerBx_redirect (x : EngSt) (l : List Nat) : (x.lowerBx l).redirect = x.redirect := rfl
@[simp] theorem EngSt.bexp16_redirect (x : EngSt) (v : Nat) : (x.bexp16 v).redirect = x.redirect := rfl
@[simp] theorem EngSt.clearAcc_redirect (x : EngSt) (a : Nat) : (x.clearAcc a).redirect = x.redirect := (only_clearAcc x a).redirect
@[simp] theorem EngSt.wrSpecial_redirect (x : EngSt) (i v : Nat) (l : Bool) : (x.wrSpecial i v l).redirect = x.redirect := (only_wrSpecial x i v l).redirect
@[simp] theorem macLanes_redirect (y x : EngSt) (k : Nat) (sub clr : Bool) (xs ys : Nat → Int) : (macLanes y x k sub clr xs ys).redirect = y.redirect :=
  (only_macLanes y x k sub clr xs ys).redirect
@[simp] theorem EngSt.setTag_redirect (x : EngSt) (t v : Nat) : (x.setTag t v).redirect = x.redirect := rfl
@[simp] theorem EngSt.landTapm_redirect (x : EngSt) (f : Bool) : (x.landTapm f).redirect = x.redirect := by
  unfold EngSt.landTapm
  split
  · split <;> rfl
  · rfl
@[simp] theorem EngSt.store_redirect (x : EngSt) (a n v : Nat) : (x.store a n v).redirect = x.redirect := EngSt.landTapm_redirect x true
@[simp] theorem EngSt.retire_redirect (x : EngSt) (k : Nat) : (x.retire k).redirect = x.redirect := by
  induction k generalizing x with
  | zero => rfl
  | succ k ih =>
    unfold EngSt.retire
    split
    · split
      · rw [ih]
      · rfl
    · rfl
theorem EngSt.wrAs_redirect (x : EngSt) (f : EngSt → Nat → Nat) (a : Nat) (l : List Nat) :
    (l.foldl (fun (y : EngSt) (i : Nat) => y.wrA a i (f x i)) x).redirect = x.redirect :=
  (OnlyPend.foldl (fun y i => only_wrA y a i _) l x).redirect

/-! ### Bytes of local memory -/

/-- Bytes stored at `a`, read at address `j` (R323). -/
theorem get_storeBytes (m : Tbl Byte) (a n v j : Nat) (h : ∀ k < n, j ≠ a + k) :
    Tbl.get 0#8 ((List.range n).foldl (fun m i => Tbl.set 0#8 m (a + i) (BitVec.ofNat 8 (v / 2 ^ (8 * i)))) m) j = Tbl.get 0#8 m j := by
  induction n with
  | zero => rfl
  | succ n ih =>
    rw [List.range_succ, List.foldl_append]
    simp only [List.foldl_cons, List.foldl_nil]
    rw [Tbl.get_set_ne _ _ _ _ (h n (Nat.lt_succ_self n))]
    exact ih (fun k hk => h k (Nat.lt_succ_of_lt hk))

/-- A store leaves every byte outside the stored ones as it is once the delay-line write has landed. -/
theorem EngSt.store_get (x : EngSt) (a n v j : Nat) (h : ∀ k < n, j ≠ a + k) :
    Tbl.get 0#8 (x.store a n v).mem j = Tbl.get 0#8 (x.landTapm true).mem j := get_storeBytes _ a n v j h

/-! ### One plain issue -/

@[simp] theorem Dev.eng_setEng_same (d : Dev) (e : Nat) (x : EngSt) : (d.setEng e x).eng e = x := Tbl.get_set_same _ _ _ _
theorem Dev.eng_setEng_ne (d : Dev) {e k : Nat} (x : EngSt) (h : k ≠ e) : (d.setEng e x).eng k = d.eng k := Tbl.get_set_ne _ _ _ _ h
@[simp] theorem Dev.rd_setEng (d : Dev) (e : Nat) (x : EngSt) (f : Fld) (a : Ix) : (d.setEng e x).rd f a = d.rd f a := Dev.rd_congr f a rfl rfl
@[simp] theorem Dev.rd_setPack (d : Dev) (p : Nat) (x : PackSt) (f : Fld) (a : Ix) : (d.setPack p x).rd f a = d.rd f a := Dev.rd_congr f a rfl rfl

theorem engIx_block (e : Nat) : F.PK_ENG_STAT_state.blockAt (engIx e) = 6 := by
  have hu : e / 32 % 8 < 8 := Nat.mod_lt _ (by decide)
  have hi : e % 32 < 32 := Nat.mod_lt _ (by decide)
  simp only [Fld.blockAt, Fld.key, F.PK_ENG_STAT_state, engIx]
  generalize e / 256 = b
  generalize e / 32 % 8 = u at *
  generalize e % 32 = i at *
  omega

/-- Counting an event leaves the engines' states alone. -/
@[simp] theorem Dev.engState_count (d : Dev) (b blk ev inst n e : Nat) : (d.count b blk ev inst n).engState e = d.engState e :=
  Dev.rd_count d b blk ev inst n (by rw [engIx_block]; decide)
@[simp] theorem Dev.engState_draw (d : Dev) (w e : Nat) : (d.draw w).2.engState e = d.engState e := Dev.rd_draw d w _ _
@[simp] theorem Dev.engState_setEng (d : Dev) (k : Nat) (x : EngSt) (e : Nat) : (d.setEng k x).engState e = d.engState e := Dev.rd_setEng d k x _ _
@[simp] theorem Dev.engState_setPack (d : Dev) (p : Nat) (x : PackSt) (e : Nat) : (d.setPack p x).engState e = d.engState e := Dev.rd_setPack d p x _ _

/-- One issue in the plain way: the instruction acts on the engine as it reads it; a branch it took starts its delay slots (R333, R345). -/
theorem Dev.run_plain {d : Dev} {e : Nat} (rule : Rule) (op : EngOp) (h : d.engReady e) :
    d.run e rule op = match op e (d.engIssued e) (d.engView e) with
      | .done D y =>
        if D.engState e = 0 || ((d.taskOn e).isSome && (D.taskOn e).isNone) then D.setEng e y else D.setEng e (y.moveOn y.redirect.isSome)
      | .exc c => d.engRaise e c
      | .stall => d.engIssued e := by
  obtain ⟨h1, h2, h3, h4, h5, h6⟩ := h
  have hx : ∀ x : EngSt, x.redirect = none → x.rpt = none → { x with redirect := none, rpt := none } = x := by
    rintro ⟨⟩ k1 k2
    simp_all
  have hf : (d.eng e).forbids rule = false := by cases rule <;> simp [EngSt.forbids, h4, h5, h6]
  unfold Dev.run Dev.issueOp
  simp only [h1, h2, hf, h4, h5, Nat.not_le.mpr h3, Option.getD_none, repeatIssue, decide_true, Bool.and_self, if_true, if_false, Bool.false_eq_true,
    Option.isNone_none, Bool.true_and]
  rw [hx _ h4 h5]
  have hv : (((d.eng e).retire (d.eng e).pend.length).landTapm false) = d.engView e := rfl
  have hd : d.count (e / 256) 6 208 (e % 256) 1 = d.engIssued e := rfl
  rw [hv, hd]
  cases op e (d.engIssued e) (d.engView e) with
  | done D y =>
    have hk : (d.engIssued e).taskOn e = d.taskOn e := by unfold Dev.taskOn Dev.engIssued; rw [Dev.count_ken]
    dsimp only
    rw [hk]
  | exc c => rfl
  | stall => rfl

/-- An instruction that touches its engine only, and takes no branch. -/
theorem Dev.run_pure {d : Dev} {e : Nat} (rule : Rule) {f : EngSt → Except Nat EngSt} {y : EngSt} (h : d.engReady e) (hf : f (d.engView e) = .ok y)
    (hy : y.redirect = none) : d.run e rule (pureOp f) = d.engDone e y := by
  have h1 : (d.engIssued e).engState e = 1 := (Dev.engState_count d _ _ _ _ _ e).trans h.1
  have hk : (d.engIssued e).taskOn e = d.taskOn e := by unfold Dev.taskOn Dev.engIssued; rw [Dev.count_ken]
  rw [Dev.run_plain rule _ h]
  unfold pureOp
  rw [hf]
  simp only [h1, hk, hy, Option.isSome_none]
  cases d.taskOn e <;> rfl

/-- An instruction that touches its engine only and raises an exception. -/
theorem Dev.run_exc {d : Dev} {e : Nat} (rule : Rule) {f : EngSt → Except Nat EngSt} {c : Nat} (h : d.engReady e) (hf : f (d.engView e) = .error c) :
    d.run e rule (pureOp f) = d.engRaise e c := by
  rw [Dev.run_plain rule _ h]
  unfold pureOp
  rw [hf]

@[simp] theorem Dev.engView_redirect {d : Dev} {e : Nat} (h : d.engReady e) : (d.engView e).redirect = none := by
  unfold Dev.engView
  rw [EngSt.landTapm_redirect, EngSt.retire_redirect]
  exact h.2.2.2.1

/-! ### Stalls and writes of pack memory -/

/-- The stalls of a far access leave the engines' states alone. -/
@[simp] theorem Dev.engState_stalled (d : Dev) (e k : Nat) : (d.stalled e).engState k = d.engState k := by
  unfold Dev.stalled
  dsimp only
  rw [Dev.engState_count]
  refine (Dev.rd_bump_ne _ _ ?_ ?_).trans (Dev.engState_draw d 32 k)
  · have hu : k / 32 % 8 < 8 := Nat.mod_lt _ (by decide)
    have hi : k % 32 < 32 := Nat.mod_lt _ (by decide)
    have hu' : e / 32 % 8 < 8 := Nat.mod_lt _ (by decide)
    have hi' : e % 32 < 32 := Nat.mod_lt _ (by decide)
    simp only [Fld.key, F.PK_ENG_STAT_state, F.PK_ENG_CNT_stall_cycles, engIx]
    generalize e / 256 = b
    generalize e / 32 % 8 = u at *
    generalize e % 32 = i at *
    generalize k / 256 = b'
    generalize k / 32 % 8 = u' at *
    generalize k % 32 = i' at *
    omega
  · rw [engIx_block]
    decide

@[simp] theorem Dev.eng_stalled (d : Dev) (e k : Nat) : (d.stalled e).eng k = d.eng k := by
  unfold Dev.stalled Dev.eng
  dsimp only
  rw [Dev.count_en, Dev.bump_en, Dev.draw_en]
@[simp] theorem Dev.taskOn_stalled (d : Dev) (e k : Nat) : (d.stalled e).taskOn k = d.taskOn k := by
  unfold Dev.stalled Dev.taskOn
  dsimp only
  rw [Dev.count_ken, Dev.bump_ken, Dev.draw_ken]

/-- `d'` is `d` but for its engines and packs. -/
def Dev.OnlyEn (d d' : Dev) : Prop := ∃ x, d' = { d with en := x }

theorem Dev.OnlyEn.trans {d d' d'' : Dev} (h : d.OnlyEn d') (k : d'.OnlyEn d'') : d.OnlyEn d'' := by
  obtain ⟨x, rfl⟩ := h
  obtain ⟨y, rfl⟩ := k
  exact ⟨y, rfl⟩

/-- A write of pack memory changes engines' reservations and pack memories only (R338). -/
theorem Dev.pmWrite_onlyEn (d : Dev) (p : Nat) (by_ : Option Nat) (a : Nat) (data : List Byte) : d.OnlyEn (d.pmWrite p by_ a data) := by
  unfold Dev.pmWrite
  dsimp only
  have h : ∀ (l : List Nat) (D : Dev), d.OnlyEn D → d.OnlyEn (l.foldl (fun (d : Dev) (i : Nat) =>
      let e := p * 32 + i
      let y := d.eng e
      match y.ll with
      | some l => if some e ≠ by_ && decide (a < 64 * (l + 1)) && decide (64 * l < a + data.length) then d.setEng e { y with ll := none } else d
      | none => d) D) := by
    intro l
    induction l with
    | nil => exact fun D h => h
    | cons i r ih =>
      intro D hD
      refine ih _ ?_
      dsimp only
      split
      · split
        · exact hD.trans ⟨_, rfl⟩
        · exact hD
      · exact hD
  exact h _ _ ⟨_, rfl⟩

theorem Dev.OnlyEn.regs {d d' : Dev} (h : d.OnlyEn d') : d'.regs = d.regs := by obtain ⟨x, rfl⟩ := h; rfl
theorem Dev.OnlyEn.ken {d d' : Dev} (h : d.OnlyEn d') : d'.ken = d.ken := by obtain ⟨x, rfl⟩ := h; rfl
theorem Dev.OnlyEn.mem {d d' : Dev} (h : d.OnlyEn d') : d'.mem = d.mem := by obtain ⟨x, rfl⟩ := h; rfl
theorem Dev.OnlyEn.rd {d d' : Dev} (h : d.OnlyEn d') (f : Fld) (a : Ix) : d'.rd f a = d.rd f a := by obtain ⟨x, rfl⟩ := h; exact Dev.rd_congr f a rfl rfl

end Sys2Proof.Machine
end

