-- ==== Sys2Proof/Laws/Exec.lean ====
section
/-! SUPPORT. What every command comes to: a change of the device that keeps the rules of `Dev.settle`, with the queue as it was. -/

namespace Sys2Proof.Machine

/-- A next state is the state after some change of its device. -/
theorem State.after_of_act {s t : State} {F : Dev → Dev} (h : s.act F = .next t) : ∃ f, t = s.after f := ⟨F, (Host.Outcome.next.inj h).symm⟩

/-- A command that answers a next state has changed the device only, and the rules that hold at all times hold. -/
theorem exec_after {c : Instr} {s t : State} (h : exec c s = .next t) : ∃ f, t = s.after f := by
  cases c
  case streamHeader bytes =>
    have h : execStreamHeader bytes s = .next t := h
    unfold execStreamHeader at h
    split at h
    · cases h
    · exact State.after_of_act h
  all_goals exact State.after_of_act h

end Sys2Proof.Machine
end

