-- ==== Sys2Proof/Laws/Frame.lean ====
section
/-! SUPPORT. What a fault record, a change of mode and the rules of `Dev.settle` leave alone: HBM, the Kennel, pack memories, and all of an engine but
whether it halts at an exception. -/

namespace Sys2Proof.Machine

/-- `d'` holds the same HBM, Kennel, Leash state and packs as `d`, and the same engines but for their EXC_HALT settings. -/
def Dev.Keeps (d d' : Dev) : Prop :=
  d'.mem = d.mem ∧ d'.ken = d.ken ∧ d'.lsh = d.lsh ∧ d'.en.pack = d.en.pack ∧ ∀ k, ∃ b, d'.eng k = { d.eng k with excHalt := b }

theorem Dev.Keeps.of_eq {d d' : Dev} (h : d'.mem = d.mem) (hk : d'.ken = d.ken) (hl : d'.lsh = d.lsh) (he : d'.en = d.en) : d.Keeps d' :=
  ⟨h, hk, hl, congrArg EngsSt.pack he, fun k => ⟨(d.eng k).excHalt, by unfold Dev.eng; rw [he]⟩⟩
theorem Dev.Keeps.refl (d : Dev) : d.Keeps d := .of_eq rfl rfl rfl rfl
theorem Dev.Keeps.trans {a b c : Dev} (h : a.Keeps b) (g : b.Keeps c) : a.Keeps c := by
  obtain ⟨h1, h2, h5, h3, h4⟩ := h
  obtain ⟨g1, g2, g5, g3, g4⟩ := g
  refine ⟨g1.trans h1, g2.trans h2, g5.trans h5, g3.trans h3, fun k => ?_⟩
  obtain ⟨x, hx⟩ := h4 k
  obtain ⟨y, hy⟩ := g4 k
  exact ⟨y, by rw [hy, hx]⟩
theorem Dev.Keeps.on {d : Dev} {f : Dev → Dev} (c : Bool) (h : d.Keeps (f d)) : d.Keeps (d.on c f) := by
  cases c
  · exact .refl d
  · exact h
theorem Dev.Keeps.ite {d x y : Dev} {c : Prop} [Decidable c] (h : d.Keeps x) (g : d.Keeps y) : d.Keeps (if c then x else y) := by
  split <;> assumption
theorem Dev.Keeps.foldl {β : Type} {f : Dev → β → Dev} (h : ∀ (d : Dev) (b : β), d.Keeps (f d b)) (l : List β) (d : Dev) : d.Keeps (l.foldl f d) := by
  induction l generalizing d with
  | nil => exact .refl d
  | cons b r ih => exact (h d b).trans (ih _)
theorem Dev.OnlyRegs.keeps {d d' : Dev} (h : d.OnlyRegs d') : d.Keeps d' := .of_eq h.mem_eq h.ken_eq h.lsh_eq h.en_eq

theorem Dev.keeps_st (d : Dev) (f : Fld) (a : Ix) (v : Nat) : d.Keeps (d.st f a v) := .of_eq rfl rfl rfl rfl
theorem Dev.keeps_addWrap (d : Dev) (f : Fld) (a : Ix) (n : Nat) : d.Keeps (d.addWrap f a n) := .of_eq rfl rfl rfl rfl
theorem Dev.keeps_emit (d : Dev) (x : Output) : d.Keeps (d.emit x) := .of_eq rfl rfl rfl rfl
theorem Dev.keeps_bump (d : Dev) (f : Fld) (a : Ix) (n : Nat) : d.Keeps (d.bump f a n) := (Dev.bump_onlyRegs d f a n).keeps
theorem Dev.keeps_count (d : Dev) (b blk ev inst n : Nat) : d.Keeps (d.count b blk ev inst n) := (Dev.count_onlyRegs d b blk ev inst n).keeps
theorem Dev.keeps_putRec (d : Dev) (k : Nat) (r : Option FltRec) : d.Keeps (d.putRec k r) := .of_eq rfl rfl rfl rfl

/-! ### One more change after a change that keeps -/

theorem Dev.Keeps.st {d x : Dev} (h : d.Keeps x) (f : Fld) (a : Ix) (v : Nat) : d.Keeps (x.st f a v) := h.trans (Dev.keeps_st _ _ _ _)
theorem Dev.Keeps.addWrap {d x : Dev} (h : d.Keeps x) (f : Fld) (a : Ix) (n : Nat) : d.Keeps (x.addWrap f a n) := h.trans (Dev.keeps_addWrap _ _ _ _)
theorem Dev.Keeps.emit {d x : Dev} (h : d.Keeps x) (o : Output) : d.Keeps (x.emit o) := h.trans (Dev.keeps_emit _ _)
theorem Dev.Keeps.bump {d x : Dev} (h : d.Keeps x) (f : Fld) (a : Ix) (n : Nat) : d.Keeps (x.bump f a n) := h.trans (Dev.keeps_bump _ _ _ _)
theorem Dev.Keeps.putRec {d x : Dev} (h : d.Keeps x) (k : Nat) (r : Option FltRec) : d.Keeps (x.putRec k r) := h.trans (Dev.keeps_putRec _ _ _)
theorem Dev.Keeps.thenOn {d x : Dev} (h : d.Keeps x) {c : Bool} {f : Dev → Dev} (g : ∀ y : Dev, y.Keeps (f y)) : d.Keeps (x.on c f) :=
  h.trans (.on c (g x))
theorem Dev.Keeps.thenFold {β : Type} {d x : Dev} (h : d.Keeps x) {f : Dev → β → Dev} (g : ∀ (y : Dev) (b : β), y.Keeps (f y b)) (l : List β) :
    d.Keeps (l.foldl f x) := h.trans (.foldl g l x)

/-! ### Fault records and modes -/

theorem Dev.keeps_traceEnter (d : Dev) (b : Nat) (p : TracePkt) : d.Keeps (d.traceEnter b p) := .of_eq rfl rfl rfl rfl
theorem Dev.keeps_traceLoss (d : Dev) (b ord : Nat) : d.Keeps (d.traceLoss b ord) := by
  unfold Dev.traceLoss
  extract_lets k p x src
  split
  · have hx : d.Keeps x := Dev.keeps_traceEnter d b p
    clear_value x
    exact hx.trans (.of_eq rfl rfl rfl rfl)
  · exact .refl d
theorem Dev.keeps_traceDrop (d : Dev) (b ord : Nat) : d.Keeps (d.traceDrop b ord) := by
  unfold Dev.traceDrop
  dsimp only
  have h : d.Keeps { d with obs := { d.obs with dropped := d.obs.dropped.modify 0 (dropKey b ord) (· + 1) } } := .of_eq rfl rfl rfl rfl
  exact .ite (h.bump _ _ _) (.ite (h.bump _ _ _) (.ite (h.bump _ _ _) (.ite (h.bump _ _ _) h)))
theorem Dev.keeps_trace (d : Dev) (b ord ptype die src : Nat) (payload : List Nat) : d.Keeps (d.trace b ord ptype die src payload) := by
  unfold Dev.trace
  dsimp only
  exact (Dev.keeps_traceLoss d b ord).trans (.ite (Dev.keeps_traceEnter _ _ _) (Dev.keeps_traceDrop _ _ _))

theorem Dev.keeps_resched (d : Dev) : d.Keeps d.resched := by
  unfold Dev.resched
  extract_lets recs ranked chosen new x1 x2 x3
  have h1 : d.Keeps x1 := (Dev.Keeps.refl d).thenFold (fun y e => Dev.keeps_putRec y e.1 _) new
  exact ((h1.st _ _ _).st _ _ _).st _ _ _
theorem Dev.Keeps.resched {d x : Dev} (h : d.Keeps x) : d.Keeps x.resched := h.trans (Dev.keeps_resched x)

theorem Dev.keeps_storeRec (d : Dev) (k : Nat) (r : FltRec) : d.Keeps (d.storeRec k r) := by
  have h1 : d.Keeps (match Tbl.get none d.flt.ring k with
      | none => d
      | some old => d.flt.readPos.foldl (fun (d : Dev) (e : Nat × Nat) => d.on (decide (e.2 ≤ old.ord) && d.sees e.1 old)
          (fun d => d.bump F.HRT_FN_STAT_log_lost (Ix.at e.1))) d) := by
    split
    · exact .refl d
    · exact .foldl (fun d e => .on _ (Dev.keeps_bump _ _ _ _)) _ d
  unfold Dev.storeRec
  extract_lets x1 x2 x3 x4 x5 b
  have h3 : d.Keeps x3 := (h1.putRec _ _).bump _ _ _
  have h4 : d.Keeps x4 := by
    refine h3.thenFold (fun y e => ?_) _
    split
    · exact .on _ (Dev.keeps_emit _ _)
    · exact .refl y
  exact (h4.thenOn (fun y => Dev.keeps_emit y _)).thenOn (fun y => Dev.keeps_trace y _ _ _ _ _ _)
theorem Dev.Keeps.storeRec {d x : Dev} (h : d.Keeps x) (k : Nat) (r : FltRec) : d.Keeps (x.storeRec k r) := h.trans (Dev.keeps_storeRec x k r)

theorem Dev.keeps_log (d : Dev) (o : Occ) : d.Keeps (d.log o) := by
  unfold Dev.log
  split
  · exact ((Dev.Keeps.refl d).putRec _ _).resched
  · extract_lets seq isOpen r x y
    have hx : d.Keeps x := (Dev.Keeps.refl d).addWrap _ _ _
    have hy : d.Keeps y := (hx.bump _ _ _).st _ _ _
    split
    · exact (hx.storeRec _ _).resched
    · exact .ite (hy.putRec _ _).resched hy

theorem Dev.keeps_clearExcHalt (d : Dev) : d.Keeps d.clearExcHalt := by
  have h : ∀ (l : List (Nat × EngSt)) (t : Tbl EngSt) (k : Nat),
      ∃ b, Tbl.get EngSt.fresh (l.foldl (fun (t : Tbl EngSt) (e : Nat × EngSt) =>
        t.set EngSt.fresh e.1 { Tbl.get EngSt.fresh t e.1 with excHalt := false }) t) k = { Tbl.get EngSt.fresh t k with excHalt := b } := by
    intro l
    induction l with
    | nil => exact fun t k => ⟨(Tbl.get EngSt.fresh t k).excHalt, rfl⟩
    | cons e r ih =>
      intro t k
      obtain ⟨b, hb⟩ := ih (t.set EngSt.fresh e.1 { Tbl.get EngSt.fresh t e.1 with excHalt := false }) k
      refine ⟨b, hb.trans ?_⟩
      by_cases hk : k = e.1
      · subst hk
        rw [Tbl.get_set_same]
      · rw [Tbl.get_set_ne _ _ _ _ hk]
  have hs : ∀ (l : List Nat) (d : Dev), d.Keeps (l.foldl (fun (d : Dev) (k : Nat) => d.st F.LSH_EXC_exc (Ix.at k) 0) d) :=
    fun l d => .foldl (fun d k => Dev.keeps_st d _ _ _) l d
  unfold Dev.clearExcHalt
  extract_lets x
  have hx : d.Keeps x := hs _ d
  clear_value x
  exact hx.trans ⟨rfl, rfl, rfl, rfl, fun k => h _ _ k⟩

theorem Dev.keeps_setMode (d : Dev) (m r : Mode) : d.Keeps (d.setMode m r) := by
  unfold Dev.setMode
  extract_lets x1 x2 x3 x4 x5
  have h1 : d.Keeps x1 := (Dev.Keeps.refl d).thenOn Dev.keeps_clearExcHalt
  have h3 : d.Keeps x3 := (((h1.st _ _ _).st _ _ _).st _ _ _).st _ _ _
  have h5 : d.Keeps x5 := h3.trans (.of_eq rfl rfl rfl rfl)
  exact h5.thenOn (fun y => Dev.keeps_st y _ _ _)

theorem Dev.keeps_repairMode (d : Dev) : d.Keeps d.repairMode := by
  unfold Dev.repairMode
  split
  · split
    all_goals first | exact Dev.keeps_setMode _ _ _ | exact .refl d
  · exact .ite (Dev.keeps_setMode _ _ _) (.refl d)

/-- A fault occurrence, with the change of mode it brings. -/
theorem Dev.keeps_occur (d : Dev) (o : Occ) : d.Keeps (d.occur o) := (Dev.keeps_log d o).trans (Dev.keeps_repairMode _)

theorem Dev.keeps_respond (d : Dev) (c : HostCmd) (g n : Nat) (r : Reply) (b : Bool) : d.Keeps (d.respond c g n r b) := by
  unfold Dev.respond
  dsimp only
  split
  · exact .refl d
  · exact (((Dev.Keeps.refl d).emit _).addWrap _ _ _).thenOn (fun y => Dev.keeps_emit y _)

theorem Dev.keeps_gsrStatus (d : Dev) (f : Nat) : d.Keeps (d.gsrStatus f) := .of_eq rfl rfl rfl rfl
theorem Dev.keeps_ungateNet (d : Dev) (f n : Nat) : d.Keeps (d.ungateNet f n) := by
  unfold Dev.ungateNet
  split
  · exact .of_eq rfl rfl rfl rfl
  · exact .refl d

theorem Dev.keeps_runOn (d : Dev) : d.Keeps d.runOn := by
  unfold Dev.runOn
  split
  · extract_lets x0 x1 x2
    have h1 : d.Keeps x1 := .of_eq rfl rfl rfl rfl
    exact ((h1.thenFold (fun y k => Dev.keeps_ungateNet y _ _) _).thenFold (fun y f => Dev.keeps_gsrStatus y f) _).st _ _ _
  · exact .refl d

theorem Dev.keeps_endLoad (d : Dev) : d.Keeps d.endLoad := by
  have load : ∀ sec : Nat, d.Keeps (
      let d := ((d.st F.HRT_CFG_ERR_code {} 0x1B).st F.HRT_CFG_ERR_secondary {} sec).st F.HRT_CFG_ERR_byte_offset {} d.cfg.pos
      let d := ((d.st F.HRT_CFG_STAT_state {} 7).st F.HRT_CFG_STAT_busy {} 0).occur
        { die := d.hearthDie, block := 15, inst := 0, cls := 1, sev := sevNote, detail := 0x1B }
      d) := fun _ =>
    ((((((Dev.Keeps.refl d).st _ _ _).st _ _ _).st _ _ _).st _ _ _).st _ _ _).trans (Dev.keeps_occur _ _)
  have stop : ∀ x : Dev, d.Keeps x → ∀ (c : Option HostCmd), d.Keeps (match c with
      | some c => x.respond c grpIMAGE 2 { status := 2, detail := 0x1B } | none => x) := by
    intro x hx c
    split
    · exact hx.trans (Dev.keeps_respond _ _ _ _ _ _)
    · exact hx
  have cfg : ∀ x : Dev, d.Keeps x → ∀ g : CfgSt, d.Keeps { x with cfg := g } := fun _ hx _ => hx.trans (.of_eq rfl rfl rfl rfl)
  have pl : ∀ x : Dev, d.Keeps x → ∀ g : PlaneSt, d.Keeps { x with pl := g } := fun _ hx _ => hx.trans (.of_eq rfl rfl rfl rfl)
  unfold Dev.endLoad
  split
  · extract_lets sec x1 x2 s1 x3 x4 s2
    have h2 : d.Keeps x2 := load sec
    clear_value x2
    exact cfg x4 (stop x3 (.ite (pl x2 h2 _) (pl x2 h2 _)) _) _
  · extract_lets sec x1 x2 s1 x3 x4 s2
    have h2 : d.Keeps x2 := load sec
    clear_value x2
    exact cfg x4 (stop x3 (.ite (pl x2 h2 _) (pl x2 h2 _)) _) _
  · split
    · exact cfg _ (Dev.keeps_respond _ _ _ _ _ _) _
    · exact .refl d
  · exact .refl d

/-- The rules that hold at all times leave HBM, the Kennel, packs and engines alone. -/
theorem Dev.keeps_settle (d : Dev) : d.Keeps d.settle := by
  unfold Dev.settle
  extract_lets x1 x2
  have h1 : d.Keeps x1 := (Dev.Keeps.refl d).thenOn (fun y => (Dev.keeps_endLoad y).trans (Dev.keeps_runOn _))
  have h2 : d.Keeps x2 := h1.thenOn (fun y => (Dev.keeps_st y _ _ _).trans (Dev.keeps_emit _ _))
  exact h2.thenOn (fun y => Dev.keeps_st y _ _ _)

end Sys2Proof.Machine
end

