-- ==== Sys2Proof/Laws/Memory.lean ====
section
/-! SUPPORT. Laws of HBM: every operation keeps the memory's canonical form, and a write leaves every byte outside the blocks it writes as it was. -/

namespace Sys2Proof.Machine

theorem Memory.wf_nil : Memory.wf [] = true := rfl

/-! ### Bytes -/

/-- A byte written reads back; every other byte is as it was. -/
@[simp] theorem Dev.hbmByte_putByte_same (d : Dev) (a : Nat) (b : Byte) : (d.putByte a b).hbmByte a = b := Tbl.get_set_same _ _ _ _
theorem Dev.hbmByte_putByte_ne (d : Dev) {a j : Nat} (b : Byte) (h : j ≠ a) : (d.putByte a b).hbmByte j = d.hbmByte j := Tbl.get_set_ne _ _ _ _ h
theorem Dev.wf_putByte {d : Dev} (a : Nat) (b : Byte) (h : Memory.wf d.mem.hbm = true) : Memory.wf (d.putByte a b).mem.hbm = true := Tbl.wf_set a b h

/-- Dropping the contents of stacks keeps the canonical form (R443). -/
theorem Dev.wf_dropStacks {d : Dev} (l : List Nat) (h : Memory.wf d.mem.hbm = true) : Memory.wf (d.dropStacks l).mem.hbm = true := Tbl.wf_filter _ h

theorem Dev.wf_putBytes (l : List (Nat × Byte)) {d : Dev} (h : Memory.wf d.mem.hbm = true) :
    Memory.wf (l.foldl (fun (d : Dev) (e : Nat × Byte) => d.putByte e.1 e.2) d).mem.hbm = true := by
  induction l generalizing d with
  | nil => exact h
  | cons e r ih => exact ih (Dev.wf_putByte e.1 e.2 h)

theorem Dev.hbmByte_putBytes (l : List (Nat × Byte)) (d : Dev) {j : Nat} (h : ∀ e ∈ l, j ≠ e.1) :
    (l.foldl (fun (d : Dev) (e : Nat × Byte) => d.putByte e.1 e.2) d).hbmByte j = d.hbmByte j := by
  induction l generalizing d with
  | nil => rfl
  | cons e r ih =>
    exact (ih _ (fun x hx => h x (List.mem_cons_of_mem _ hx))).trans (Dev.hbmByte_putByte_ne d e.2 (h e List.mem_cons_self))

/-! ### What leaves the bytes alone -/

theorem Dev.hbmByte_congr {d d' : Dev} (h : d'.mem.hbm = d.mem.hbm) (j : Nat) : d'.hbmByte j = d.hbmByte j := by
  unfold Dev.hbmByte
  rw [h]

@[simp] theorem Dev.hbm_setBlk (d : Dev) (b : Nat) (m : BlkMeta) : (d.setBlk b m).mem.hbm = d.mem.hbm := rfl
@[simp] theorem Dev.hbm_setPage (d : Dev) (k n p : Nat) (x : PageCtr) : (d.setPage k n p x).mem.hbm = d.mem.hbm := rfl
@[simp] theorem Dev.hbm_setRgnRec (d : Dev) (k n : Nat) (x : RgnRec) : (d.setRgnRec k n x).mem.hbm = d.mem.hbm := rfl
@[simp] theorem Dev.hbm_keyRef (d : Dev) (k key : Nat) : (d.keyRef k key).mem.hbm = d.mem.hbm := rfl
@[simp] theorem Dev.hbm_cacheUse (d : Dev) (k : Nat) : (d.cacheUse k).mem.hbm = d.mem.hbm := by
  unfold Dev.cacheUse
  dsimp only
  rw [Dev.count_mem, Dev.count_mem]
  rfl
@[simp] theorem Dev.hbm_setMajorHw (d : Dev) (k n g v : Nat) : (d.setMajorHw k n g v).mem.hbm = d.mem.hbm := by
  unfold Dev.setMajorHw
  split <;> rfl
@[simp] theorem Dev.hbm_resealPage (d : Dev) (key k n p : Nat) (l : List Nat) : (d.resealPage key k n p l).mem.hbm = d.mem.hbm := by
  unfold Dev.resealPage
  induction l generalizing d with
  | nil => rfl
  | cons i r ih => exact (ih _).trans rfl
@[simp] theorem Dev.hbm_startSweep (d : Dev) (k n : Nat) : (d.startSweep k n).mem.hbm = d.mem.hbm := rfl
@[simp] theorem Dev.hbm_rewritePage (d : Dev) (key k n p : Nat) : (d.rewritePage key k n p).mem.hbm = d.mem.hbm := by
  unfold Dev.rewritePage Dev.on
  dsimp only
  repeat' split
  all_goals simp

/-- Counting a FULL block changes no byte. -/
@[simp] theorem Dev.hbm_countBlock (d : Dev) (key k o : Nat) : (d.countBlock key k o).2.mem.hbm = d.mem.hbm := by
  unfold Dev.countBlock
  split
  · rfl
  · dsimp only
    repeat' split
    all_goals simp

/-! ### Writes -/

/-- Sealing a block keeps the canonical form. -/
theorem Dev.wf_sealBlock {d : Dev} (key k o : Nat) (keeps : Bool) (l : List (Nat × Byte)) (p : Bool) (h : Memory.wf d.mem.hbm = true) :
    Memory.wf (d.sealBlock key k o keeps l p).mem.hbm = true := Dev.wf_putBytes _ h

/-- Sealing a block leaves every byte outside it as it was, when the bytes given lie in it (R423). -/
theorem Dev.hbmByte_sealBlock (d : Dev) (key k o : Nat) (keeps : Bool) (l : List (Nat × Byte)) (p : Bool) {j : Nat}
    (hl : ∀ e ∈ l, e.1 / 64 = (k * stackBytes + o) / 64) (hj : j / 64 ≠ (k * stackBytes + o) / 64) :
    (d.sealBlock key k o keeps l p).hbmByte j = d.hbmByte j := by
  refine Dev.hbmByte_putBytes _ d ?_
  intro e he hje
  apply hj
  rw [hje]
  rcases List.mem_append.mp he with h | h
  · split at h
    · cases h
    · obtain ⟨i, hi, rfl⟩ := List.mem_map.mp h
      have hi := List.mem_range.mp hi
      have h64 : stackBytes = 64 * 402653184 := by decide
      rw [h64]
      dsimp only
      omega
  · exact hl e h

/-- One block's part of a write. -/
theorem Dev.memWrite_block (d : Dev) (key k o : Nat) (part : List (Nat × Byte)) (poison : Bool) (r : Resp) :
    let x := (let keeps := d.keepsRest key k o
      let (ok, d) := if d.keyLevel key = 2 then d.countBlock key k o else (true, d)
      if ok then (r, d.sealBlock key k o keeps part poison) else ((Resp.fault, d) : Resp × Dev)).2
    (Memory.wf d.mem.hbm = true → Memory.wf x.mem.hbm = true) ∧
    (∀ j, (∀ e ∈ part, e.1 / 64 = (k * stackBytes + o) / 64) → j / 64 ≠ (k * stackBytes + o) / 64 → x.hbmByte j = d.hbmByte j) := by
  dsimp only
  split
  · have hc := Dev.hbm_countBlock d key k o
    generalize d.countBlock key k o = c at hc
    obtain ⟨ok, D⟩ := c
    dsimp only at hc ⊢
    split
    · refine ⟨fun h => Dev.wf_sealBlock key k o _ part poison (hc ▸ h), fun j hl hj => ?_⟩
      exact (Dev.hbmByte_sealBlock D key k o _ part poison hl hj).trans (Dev.hbmByte_congr hc j)
    · exact ⟨fun h => hc ▸ h, fun j _ _ => Dev.hbmByte_congr hc j⟩
  · exact ⟨fun h => Dev.wf_sealBlock key k o _ part poison h, fun j hl hj => Dev.hbmByte_sealBlock d key k o _ part poison hl hj⟩

/-- From `d` to `d'` the canonical form is kept, and every byte outside the blocks of `bytes` is as it was. -/
def Dev.HbmKept (bytes : List (Nat × Byte)) (d d' : Dev) : Prop :=
  (Memory.wf d.mem.hbm = true → Memory.wf d'.mem.hbm = true) ∧ (∀ j, (∀ e ∈ bytes, j / 64 ≠ e.1 / 64) → d'.hbmByte j = d.hbmByte j)

theorem Dev.HbmKept.of_eq {bytes : List (Nat × Byte)} {d d' : Dev} (h : d'.mem.hbm = d.mem.hbm) : Dev.HbmKept bytes d d' :=
  ⟨fun k => h ▸ k, fun j _ => Dev.hbmByte_congr h j⟩
theorem Dev.HbmKept.trans {bytes : List (Nat × Byte)} {d d' d'' : Dev} (h : Dev.HbmKept bytes d d') (k : Dev.HbmKept bytes d' d'') : Dev.HbmKept bytes d d'' :=
  ⟨fun w => k.1 (h.1 w), fun j hj => (k.2 j hj).trans (h.2 j hj)⟩
theorem Dev.HbmKept.foldl {β : Type} {bytes : List (Nat × Byte)} {f : Resp × Dev → β → Resp × Dev} (h : ∀ x i, Dev.HbmKept bytes x.2 (f x i).2)
    (l : List β) (x : Resp × Dev) : Dev.HbmKept bytes x.2 (l.foldl f x).2 := by
  induction l generalizing x with
  | nil => exact .of_eq rfl
  | cons i r ih => exact (h x i).trans (ih _)

/-- A write keeps the canonical form, and leaves every byte outside the blocks of its bytes as it was (R423). -/
theorem Dev.memWrite_kept (d : Dev) (key addr n : Nat) (bytes : List (Nat × Byte)) (poison : Bool) :
    Dev.HbmKept bytes d (d.memWrite key addr n bytes poison).2 := by
  unfold Dev.memWrite
  split
  · dsimp only
    refine Dev.HbmKept.trans (d' := d.keyRef (addr / stackBytes) key) (.of_eq rfl) (Dev.HbmKept.foldl ?_ _ (Resp.done, _))
    intro x i
    split
    · exact .of_eq rfl
    · rename_i hne
      have h := Dev.memWrite_block x.2 key (addr / stackBytes) (addr % stackBytes / 64 * 64 + 64 * i)
        (bytes.filter (fun e => decide (e.1 / 64 = (addr / stackBytes * stackBytes + (addr % stackBytes / 64 * 64 + 64 * i)) / 64))) poison x.1
      refine ⟨h.1, fun j hj => h.2 j (fun e he => of_decide_eq_true (List.mem_filter.mp he).2) ?_⟩
      intro hc
      have hne' : bytes.filter (fun e => decide (e.1 / 64 = (addr / stackBytes * stackBytes + (addr % stackBytes / 64 * 64 + 64 * i)) / 64)) ≠ [] := by
        intro hn
        rw [hn] at hne
        exact hne rfl
      obtain ⟨e, he⟩ := List.exists_mem_of_ne_nil _ hne'
      have he' := List.mem_filter.mp he
      exact hj e he'.1 (hc.trans (of_decide_eq_true he'.2).symm)
  · exact .of_eq rfl

end Sys2Proof.Machine
end

