-- ==== Sys2Proof/Laws/Settle.lean ====
section
/-! SUPPORT. Laws of `Dev.settle`, the rules that hold after every command. -/

namespace Sys2Proof.Machine

/-- Closing the fence shows it. -/
theorem Dev.fenced_fence (d : Dev) : d.fence.rd F.HRT_MODE_fenced {} = 1 := by
  unfold Dev.fence
  rw [Dev.rd_emit, Dev.rd_st_same]
  decide

/-- A device that is not in SAFE, that keeps the fence where its mode asks for it, and whose session keeps to its rights is left as it is. -/
theorem Dev.settle_of_rules {d : Dev} (hs : d.mode ≠ .safe) (hf : d.fenceRule) (hl : d.leashRule) : d.settle = d := by
  have h1 : (d.mode == .safe) = false := by cases h : d.mode <;> simp_all
  have h2 : ((d.mode == .cold || d.mode == .load || d.mode == .ember || d.mode == .safe) && !d.flag F.HRT_MODE_fenced {}) = false := by
    unfold Dev.fenceRule at hf
    cases h : d.mode <;> simp_all [Mode.fencesOutputs]
  have h3 : (d.onAirLike && decide (d.rd F.LSH_STAT_rights {} = 2)) = false := by
    unfold Dev.leashRule at hl
    cases h : d.onAirLike <;> simp_all
  unfold Dev.settle
  dsimp only
  rw [h1, Dev.on_false, h2, Dev.on_false, h3, Dev.on_false]

/-- The rules that a settled device keeps: the fence in the modes that ask for it. -/
theorem Dev.settle_fenceRule (d : Dev) : d.settle.fenceRule := by
  unfold Dev.settle
  dsimp only
  generalize d.on (d.mode == .safe) (fun d => d.endLoad.runOn) = a
  have key : ∀ b : Dev, b.fenceRule → (b.on (b.onAirLike && decide (b.rd F.LSH_STAT_rights {} = 2)) (fun d => d.st F.LSH_STAT_rights {} 1)).fenceRule := by
    intro b hb
    cases b.onAirLike && decide (b.rd F.LSH_STAT_rights {} = 2)
    · exact hb
    · unfold Dev.fenceRule at *
      rw [Dev.on_true, Dev.mode_st_rights, Dev.flag_congr (Dev.rd_st_ne b 1 (by decide))]
      exact hb
  apply key
  unfold Dev.fenceRule
  cases h : ((a.mode == .cold || a.mode == .load || a.mode == .ember || a.mode == .safe) && !a.flag F.HRT_MODE_fenced {})
  · rw [Dev.on_false]
    intro hm
    cases hf : a.flag F.HRT_MODE_fenced {}
    · rw [hf] at h
      cases ha : a.mode <;> simp [ha, Mode.fencesOutputs] at h hm
    · rfl
  · intro _
    rw [Dev.on_true]
    unfold Dev.flag
    rw [Dev.fenced_fence]
    rfl

/-- And the rights of a session while the mode that counts is ONAIR. -/
theorem Dev.settle_leashRule (d : Dev) : d.settle.leashRule := by
  unfold Dev.settle
  dsimp only
  generalize d.on (d.mode == .safe) (fun d => d.endLoad.runOn) = a
  generalize a.on _ (fun d => d.fence) = b
  unfold Dev.leashRule
  cases h : (b.onAirLike && decide (b.rd F.LSH_STAT_rights {} = 2))
  · rw [Dev.on_false]
    intro ho
    rw [ho, Bool.true_and] at h
    exact of_decide_eq_false h
  · intro _
    rw [Dev.on_true, Dev.rd_st_same]
    decide

end Sys2Proof.Machine
end

