-- ==== Sys2Proof/Tests/Slice0.lean ====
section
/-! SUPPORT. The model's own tests: for each check of WellFormed a term that it refuses; a few commands with the results the spec gives; and for every
statement with hypotheses, concrete states and operands that meet each of its sets of hypotheses together. -/

open Sys2Proof Sys2Proof.Machine

namespace Sys2Proof.Tests

set_option Elab.async false


/-- A device with register fields set. -/
def dv (l : List (Fld × Ix × Nat)) (d : Dev) : Dev := l.foldl (fun d x => d.st x.1 x.2.1 x.2.2) d

/-- A device that runs in REHEARSE, with function 0 of the host as a physical function whose ring is served. -/
def up : Dev := dv [(F.HRT_MODE_mode, {}, 2), (F.HRT_MODE_fenced, {}, 0), (F.HRT_BOOT_step, {}, 9), (F.HRT_FN_STAT_type, Ix.at 0, 1), (F.HRT_CQ_CFG_enable, Ix.at 0, 1)]
  { Dev.reset with clk := { Dev.reset.clk with held := false }, pl := { Dev.reset.pl with image := true }, root := 6400000 }

/-- The state of a device with no command waiting. -/
def st (d : Dev) : State := { pending := [], dev := d }

/-- A command of function 0. -/
def hc : HostCmd := { fn := 0, cmdId := 7, irq := false }

/-- A well-formed Leash frame. -/
def frm : LeashFrame := { parityOk := true, lenOk := true }

/-- Memory operand (p0). -/
def mo : MemOp := { k := 0, am := 0, off := 0 }

/-- MAC operands. -/
def mp : MacP := { a := 0, i := 0, mi := 1, j := 1, mj := 1, sub := false, clr := false, bcx := false, bcy := false, ux := false, uy := false }
def mq : MacQ := { a := 0, s := 0, t := 2, sub := false, clr := false, bcx := false, bcy := false, ux := false, uy := false }

theorem someOf1 {α : Type} {o : Option α} (h : o.isSome = true) : ∃ x, o = some x := Option.isSome_iff_exists.mp h
theorem someOf2 {α β : Type} {o : Option (α × β)} (h : o.isSome = true) : ∃ x y, o = some (x, y) := by
  obtain ⟨⟨x, y⟩, h⟩ := Option.isSome_iff_exists.mp h; exact ⟨x, y, h⟩
theorem okOf1 {ε α : Type} {o : Except ε α} (h : o.toBool = true) : ∃ x, o = .ok x := by
  cases o with
  | ok x => exact ⟨x, rfl⟩
  | error x => cases h
theorem okOf2 {ε α β : Type} {o : Except ε (α × β)} (h : o.toBool = true) : ∃ x y, o = .ok (x, y) := by
  obtain ⟨⟨x, y⟩, h⟩ := okOf1 h; exact ⟨x, y, h⟩
theorem okOf3 {ε α β γ : Type} {o : Except ε (α × β × γ)} (h : o.toBool = true) : ∃ x y z, o = .ok (x, y, z) := by
  obtain ⟨⟨x, y, z⟩, h⟩ := okOf1 h; exact ⟨x, y, z, h⟩
theorem errOf1 {ε α : Type} {o : Except ε α} (h : o.toBool = false) : ∃ x, o = .error x := by
  cases o with
  | ok x => cases h
  | error x => exact ⟨x, rfl⟩

/-- The device with engine 0 running. -/
def eg : Dev := dv [(F.PK_ENG_STAT_state, engIx 0, 1)] up

theorem landsOf {d : Dev} {w : Writer} {a v : Nat}
    (h : (d.reaches w = true ∧ isControl a = true ∧ barReach w a = true ∧ d.dieOff (baseOfAddr a) = false ∧ d.vfWriteBarred w a v = false) ∧
      (findReg a).any (fun t => (d.writeReg w t.reg t.ix v (dieOfAddr a)).isSome) = true) : ∃ d', d.writeLands w a v d' := by
  obtain ⟨⟨h1, h2, h3, h4, h5⟩, h6⟩ := h
  obtain ⟨t, h7, h8⟩ := (Option.any_eq_true _ _).mp h6
  obtain ⟨d', h9⟩ := Option.isSome_iff_exists.mp h8
  exact ⟨d', ⟨h1, h2, h3, h4⟩, h5, t, h7, h9⟩
theorem pktOf1 {p : Pkt} (h : (match p with | .ok _ => true | _ => false) = true) : ∃ d, p = .ok d := by
  cases p with
  | ok d => exact ⟨d, rfl⟩
  | bad | badAt | refused => cases h

/-- A device that reads the body of a start-up stream. -/
def strm : Dev := dv [(F.HRT_CFG_STAT_state, {}, 2), (F.HRT_CFG_STAT_source, {}, 2)]
  { up with cfg := { up.cfg with path := .startup, hdr := { Hdr.empty with bodyLen := 80000 }, pos := 256 } }

/-- The bytes of a full image's header with a body of 8 bytes. -/
def hdr : List Byte := (List.range 256).map fun i => match i with
  | 0 => 0x54 | 1 => 0x5A | 2 => 0x43 | 3 => 0x46 | 4 => 1 | 7 => 1 | 9 => 1 | 10 => 2 | 12 => 0x96 | 13 => 0x12 | 40 => 8
  | 252 => 29 | 253 => 117 | 254 => 246 | 255 => 136 | _ => 0
def ptp : PtpMsg := { kind := .sync false, port := 0, version := 2, domain := 127, lenOk := true, srcPort := 3, seqId := 1, offset := 0 }
def mw : ModeWait := { mode := .onair, time := 1, trig := .instant 0 0, cmd := none }
def frg : LineFrag := { seq := 0, slot := 0, frag := 0, first := true, last := false, kind := 0, copyB := false, rpt := false, resv := false, line := 0, frame := 0, bytes := 0, depart := 0, data := [] }
def fu : FabUnit := { seq := 0, kind := 0, line := 0, frame := 0, other := false, data := [] }
theorem crcAt0 : ((hdr.drop 0).take 28).foldl crcByte 0xffffffff#32 = 0xc328ee0c#32 := by decide +kernel
theorem crcAt1 : ((hdr.drop 28).take 28).foldl crcByte 0xc328ee0c#32 = 0x7fda245e#32 := by decide +kernel
theorem crcAt2 : ((hdr.drop 56).take 28).foldl crcByte 0x7fda245e#32 = 0x6efa4202#32 := by decide +kernel
theorem crcAt3 : ((hdr.drop 84).take 28).foldl crcByte 0x6efa4202#32 = 0xc3f86fa7#32 := by decide +kernel
theorem crcAt4 : ((hdr.drop 112).take 28).foldl crcByte 0xc3f86fa7#32 = 0x230ec688#32 := by decide +kernel
theorem crcAt5 : ((hdr.drop 140).take 28).foldl crcByte 0x230ec688#32 = 0xb8a9c853#32 := by decide +kernel
theorem crcAt6 : ((hdr.drop 168).take 28).foldl crcByte 0xb8a9c853#32 = 0x8cd58468#32 := by decide +kernel
theorem crcAt7 : ((hdr.drop 196).take 28).foldl crcByte 0x8cd58468#32 = 0x22401bcc#32 := by decide +kernel
theorem crcAt8 : ((hdr.drop 224).take 28).foldl crcByte 0x22401bcc#32 = 0x77098ae2#32 := by decide +kernel
theorem crcHdr : crc32 (hdr.take 0xFC) = 0x88f6751d := by
  have h : hdr.take 0xFC = (hdr.drop 0).take 28 ++ ((hdr.drop 28).take 28 ++ ((hdr.drop 56).take 28 ++ ((hdr.drop 84).take 28 ++ ((hdr.drop 112).take 28 ++ ((hdr.drop 140).take 28 ++ ((hdr.drop 168).take 28 ++ ((hdr.drop 196).take 28 ++ ((hdr.drop 224).take 28)))))))) := by decide +kernel
  unfold crc32
  rw [h]
  simp only [List.foldl_append, crcAt0, crcAt1, crcAt2, crcAt3, crcAt4, crcAt5, crcAt6, crcAt7, crcAt8]
  decide +kernel
theorem hdrOk (d : Dev) (h : d.fuse = { up.fuse with aesKey := [1, 0, 0, 0] }) (k : d.kindAllowed 0 = true) (g : d.bbk = up.bbk) : d.headerError hdr d.kindAllowed = none := by
  have k' : (Hdr.parse hdr).kind = 0 := by decide +kernel
  unfold Dev.headerError formatChecks Dev.keySrcOk Dev.ownerOk
  simp only [crcHdr, k', k, h, g]
  decide +kernel

/-- A device that awaits a start-up stream's header. -/
def s0 : State := st (dv [(F.HRT_CFG_STAT_state, {}, 1)] { strm with cfg := { strm.cfg with pos := 0 }, fuse := { strm.fuse with aesKey := [1, 0, 0, 0] } })
theorem s0_header : (s0.dev.st F.HRT_CFG_STAT_bytes_in {} 256).headerError hdr (s0.dev.st F.HRT_CFG_STAT_bytes_in {} 256).kindAllowed = none := by
  apply hdrOk
  · decide +kernel
  · decide +kernel
  · decide +kernel
theorem s0_path : ∀ t, s0.dev.cfg.path ≠ .txn t := by
  have h : s0.dev.cfg.path = .startup := by decide +kernel
  intro t; rw [h]; exact fun h => by cases h

/-- A device with transaction 0 of function 0 in OPEN. -/
def tx : Dev := dv [(F.HRT_TXN_STAT_state, Ix.at 0, 1), (F.HRT_TXN_STAT_owner, Ix.at 0, 0)] up
/-- A device whose internal port of fabric die 0 works. -/
def ic : Dev := dv [(F.HT_CG_CFG_enable, Ix.on 0 0, 1), (F.FAB_ICP_CTL_enable, Ix.onDie 0, 1)] { up with fab := { up.fab with step9 := true } }
def icT : Dev := ((ic.icpTxn 0).getD (0, up)).2
def icP : Dev := (((dv [(F.FAB_ICP_CTL_peat_ok, Ix.onDie 0, 1)] ic).icpTxn 0).getD (0, up)).2
/-- A PLL setting that works at 100 MHz. -/
def pl : Dev := dv [(F.FAB_PLL_CFG_enable, Ix.on 0 0, 1), (F.FAB_PLL_CFG_ref_sel, Ix.on 0 0, 1), (F.FAB_PLL_CFG_mult, Ix.on 0 0, 20), (F.FAB_PLL_CFG_div_in, Ix.on 0 0, 1), (F.FAB_PLL_CFG_div0, Ix.on 0 0, 4), (F.FAB_PLL_CFG_div1, Ix.on 0 0, 4), (F.FAB_PLL_CFG_div2, Ix.on 0 0, 4), (F.FAB_PLL_CFG_div3, Ix.on 0 0, 4)] { up with fab := { up.fab with step9 := true } }

/-- A read of the first register block of base die 0. -/
def rdP : NocPkt := { id := 1, op := 0, vc := 0, len := 0, rdLen := 1, tag := 0, code := 0, full := true, addr := BitVec.ofNat 63 (F.KEN_CR_BASE_cr_base.addr (Ix.on 0 0)), be := 0, dst := 140, src := 0, epoch := false, birth := 0, poison := false, resv := false, data := [] }
def nReq : NocReq := { parts := 1, code := 0, write := false, bytes := 0, since := 0 }
def nBuf : NocBuf := { router := 0, inp := 0, credits := 0, pkt := rdP, port := none }
/-- A device whose cord CD000 runs at full width. -/
def cd : Dev := dv [(F.CRD_CORD_STAT_state, Ix.at 0, 2)] up
def cst (x : CordSt) : Dev := { up with crd := { up.crd with cords := [(0, x)] } }
def bil : BilletIn := { checkOk := true, stuff := 0, seq := 0 }
/-- Lane 0 of base die 0, the lane of native link 0, in state `n`. -/
def lan (n : Nat) : Dev := dv [(F.LN_CFG_mode, Ix.on 0 0, 4), (F.LN_STAT_state, Ix.on 0 0, n)] up
def lnk (n : Nat) : Dev := dv [(F.LN_NL_CFG_enable, Ix.on 0 0, 1), (F.LN_NL_CFG_lanes, Ix.on 0 0, 1), (F.LN_NL_STAT_state, Ix.on 0 0, 2)] (lan n)
def opn : Dev := { up with fab := { up.fab with step9 := true } }
def ln0 : SdiLine := { trsOk := true, numOk := true, crcOk := true, line := 0, frameStart := false, pid := none, active := none, anc := none, lines := 0, interlaced := false }
def eth : EthFrame := { fcsOk := true, size := 64, tags := 0, vid := 0, sec := none, kind := .other true }
def fxf : Xfer := { tag := 0, out := false, addr := 0, la := 0, bytes := 8 }
def su : SinkUnit := { slot := 0, frags := [frg] }
/-- A capability record of a cord (R198). -/
def capR : List Byte := (List.range 64).map fun i => match i with
  | 0 => 86 | 1 => 76 | 2 => 78 | 3 => 75 | 60 => 197 | 61 => 129 | 62 => 24 | 63 => 131 | _ => 0
/-- A capability record of a one-lane native link (R271). -/
def nlR : List Byte := (List.range 128).map fun i => match i with
  | 0 => 84 | 1 => 90 | 2 => 78 | 3 => 76 | 4 => 1 | 6 => 1 | 21 => 4 | 22 => 64 | 124 => 2 | 125 => 68 | 126 => 149 | 127 => 14 | _ => 0
theorem nlCrc0 : ((nlR.drop 0).take 31).foldl crcByte 0xffffffff#32 = 0x57e00f81#32 := by decide +kernel
theorem nlCrc1 : ((nlR.drop 31).take 31).foldl crcByte 0x57e00f81#32 = 0xa299149d#32 := by decide +kernel
theorem nlCrc2 : ((nlR.drop 62).take 31).foldl crcByte 0xa299149d#32 = 0x7a3d7a9c#32 := by decide +kernel
theorem nlCrc3 : ((nlR.drop 93).take 31).foldl crcByte 0x7a3d7a9c#32 = 0xf16abbfd#32 := by decide +kernel
theorem nlCrc : crc32 (nlR.take 0x7C) = 0xe954402 := by
  have h : nlR.take 0x7C = (nlR.drop 0).take 31 ++ ((nlR.drop 31).take 31 ++ ((nlR.drop 62).take 31 ++ ((nlR.drop 93).take 31))) := by decide +kernel
  unfold crc32
  rw [h]
  simp only [List.foldl_append, nlCrc0, nlCrc1, nlCrc2, nlCrc3]
  decide +kernel
theorem nlOk : nlCapValid nlR = true := by
  unfold nlCapValid
  rw [nlCrc]
  decide +kernel
def mac : Dev := dv [(F.MP_MAC_CFG_enable, pgIx 0 0 0, 1)] opn
/-- An engine whose windows cover the local memory; address register p1 points at the Y bank, g2 and g3 hold small numbers. -/
def es : EngSt := { EngSt.fresh with xs := 32768, ys := 32768, regs := [(2, 0x108), (4, 3), (5, 8), (65, 32768)] }
def eg1 (x : EngSt) : Dev := { eg with en := { eg.en with eng := [(0, x)] } }
def egs : Dev := eg1 es
def dsc : Desc := Desc.parse []
def tsk : Task := { id := 1, q := 0, desc := dsc, rel := 0, aff := none, budget := 0, readyAt := 0, waitFrom := 0, since := 0, ran := 0, waited := 0, started := false, reruns := 0, stolen := false, cross := false, preempted := false, held := false, spilled := false, slot := none, phase := .runs, src := none, xq := [], level := 0, inner := none }
def run1 (t : Task) (d : Dev) : Dev := { d with ken := { d.ken with run := [(0, some t)] } }
/-- A fault record for everyone. -/
def rec1 : FltRec := { sec := 0, ns := 0, seq := 0, era := 0, die := 0, block := 0, inst := 0, sub := 0, cls := 1, sev := 0, action := 0, openR := false, merged := false, preempted := false, unresolved := false, count := 1, fn := 255, detail := 0, repair := false, stage := 0, res := [] }
/-- Base die 0's Kennel with queue 0 enabled; its ring lies in pack 0's memory, whose first descriptor has the bytes `l`. -/
def kn (l : Tbl Byte) : Dev := dv [(F.KEN_QCFG_enable, qIx 0, 1), (F.KEN_QDB_total, qIx 0, 1), (F.KEN_QSQ_sq_base, qIx 0, 0x200000000), (F.KEN_QSQ_depth_log2, qIx 0, 4), (F.KEN_CR_CFG_enable, Ix.on 0 0, 1)]
  { opn with en := { opn.en with pack := [(0, { PackSt.fresh with pm := l })] } }
def kq (ts : List Task) (d : Dev) : Dev := { d with ken := { d.ken with ready := [(0, ts)] } }
def tmp1 : Tmpl := { id := 1, desc := dsc, next := 0, aff := none }
/-- Base die 0's Kennel with a pack that takes tasks. -/
def kf : Dev := dv [(F.PK_CFG_accept, engIx 0, 1), (F.KEN_QCFG_enable, qIx 0, 1)] opn
def crec : ComplRec := { words := [1, 2, 3, 4], eng := none, token := false, q := 0 }
def cr1 : Dev := dv [(F.KEN_CR_CFG_enable, Ix.on 0 0, 1), (F.KEN_CR_BASE_cr_base, Ix.on 0 0, 0x8000000000)] { up with ken := { up.ken with waiting := [(0, [crec])] } }

theorem kcvOk (v : Nat) : checkValue v = (BitVec.ofNat 32 (checkValue v)).toNat := by simp [checkValue]
theorem kcvBad (v : Nat) : checkValue v ≠ (BitVec.ofNat 32 (checkValue v + 1)).toNat := by
  unfold checkValue
  simp only [BitVec.toNat_ofNat]
  omega
/-- A device with key 1 in state RESTORED whose check value is that of key 5. -/
def k3 : Dev := { dv [(F.CRY_KEYSTATE_state, Ix.at 1, 3), (F.CRY_KEYSTATE_level, Ix.at 1, 1)] up with
  regs := (F.CRY_KEYSTATE_kcv.key (Ix.at 1), checkValue 5) :: (dv [(F.CRY_KEYSTATE_state, Ix.at 1, 3), (F.CRY_KEYSTATE_level, Ix.at 1, 1)] up).regs }
/-- A device with keys in its first fuse slot, and an image that it can load. -/
def kd : Dev := { up with fuse := { up.fuse with aesKey := [1, 0, 0, 0] } }
def img : List Byte := hdr ++ List.replicate 24 0
theorem img_head : img.take 256 = hdr := by decide +kernel
theorem img_hdr : Hdr.parse img = Hdr.parse hdr := by decide +kernel
theorem storedOk (d : Dev) (h : d.fuse = { up.fuse with aesKey := [1, 0, 0, 0] }) (g : d.bbk = up.bbk) (f : Nat → Bool) (k : f 0 = true) (u : Nat → Nat → Bool)
    (u0 : u 0 256 = false) (u1 : u 256 24 = false) : d.storedError img f true u = none := by
  have k' : (Hdr.parse hdr).kind = 0 := by decide +kernel
  have e : d.headerError hdr f = none := by
    unfold Dev.headerError formatChecks Dev.keySrcOk Dev.ownerOk
    simp only [crcHdr, k', k, h, g]
    decide +kernel
  have l : img.length = 280 := by decide +kernel
  have t : (Hdr.parse hdr).total = 280 := by decide +kernel
  unfold Dev.storedError
  simp [img_head, img_hdr, e, l, t, u0, u1]
def stk : Dev := dv [(F.HBM_STATUS_state, ctlIx 0, 2)] up
/-- A device with a level 2 key in ID 1 and stack 0 active. -/
def k2 : Dev := dv [(F.CRY_KEYSTATE_state, Ix.at 1, 1), (F.CRY_KEYSTATE_level, Ix.at 1, 2)] stk
def rg (n : Nat) : Dev := dv [(F.CRY_RGN_state, rgnIx 0 0, n), (F.CRY_RGN_key_id, rgnIx 0 0, 1)] k2
def ses : SpdmSession := { fn := 0, finished := true }
def sesd (x : SpdmSession) : Dev := { up with hst := { up.hst with sessions := [(0, some x)] } }
def fin : FaultIn := { die := 0, block := 0, inst := 0, sub := 0, cls := 1, sev := 0, action := 0, fn := 255, detail := 0, needs := false, repair := false, res := [] }
def flt1 (r : FltRec) : Dev := { up with flt := { up.flt with ring := [(0, some r)] } }
def ksl : KilnSlice := { unit := 0, seg := 0, cmd := none, full := false, sub := none }
def klnd (x : KilnSlice) : Dev := { up with kln := { up.kln with slice := [(0, some x)] } }
def tpk : TracePkt := { ptype := 0, die := 0, src := 0, tseq := 0, sec := 0, ns := 0, payload := [] }
def obs1 : Dev := { up with obs := { up.obs with fifo := [(0, [tpk])] } }
def gat : Dev := { opn with fab := { opn.fab with ungated := [0] } }
theorem img_take : img.take (280 : BitVec 32).toNat = img := by decide +kernel
/-- A device whose Leash port holds a CONTROL session, with a nonce out. -/
def ls : Dev := dv [(F.LSH_CFG_port_en, {}, 1), (F.LSH_STAT_rights, {}, 2)] { up with lsh := { up.lsh with nonce := some 1 } }
/-- The same in BENCH. -/
def lsB : Dev := dv [(F.HRT_MODE_mode, {}, 4)] ls
def lsO : Dev := { ls with fuse := { ls.fuse with ownerHash := [Config.sha384 [5], 0, 0, 0] } }
theorem lsO_hash : lsO.fuse.ownerHash.getD (0 : Byte).toNat 0 = Config.sha384 [5] := rfl
def crAddr : Nat := F.KEN_CR_BASE_cr_base.addr (Ix.on 0 0)


/-! ### WellFormed refuses -/

theorem test_wf_cmdId : (Instr.keyBbk { fn := 0, cmdId := 2 ^ 32, irq := false } (.buffer 0)).wf = false := by decide
theorem test_wf_triggerInstant : (Instr.modeSet hc 3 (.instant (2 ^ 32) 0)).wf = false := by decide
theorem test_wf_triggerCadence : (Instr.txnCommit hc 0 (.cadence 0 256 1)).wf = false := by decide
theorem test_wf_ptpMessage : (Instr.ptpMessage { ptp with version := 16 }).wf = false := by decide
theorem test_wf_ptpPartner : (Instr.ptpPartnerTimeout (2 ^ 16)).wf = false := by decide
theorem test_wf_header : (Instr.streamHeader []).wf = false := by decide
theorem test_wf_payload : (Instr.frame 0 (List.replicate (2 ^ 24) 0)).wf = false := by
  dsimp only [Instr.wf]
  rw [List.length_replicate]
  decide
theorem test_wf_capability : (Instr.capabilityRecord (.cord (.cord 0)) []).wf = false := by decide
theorem test_wf_farCapability : (Instr.farFrame 0 0 { crcOk := true, kind := .capability [], credit := none, nak := false, ack := 0 }).wf = false := by decide
theorem test_wf_cap : (Instr.cap 0 0 bil []).wf = false := by decide
theorem test_wf_unlockSig : (Instr.unlockSig frm 1 0 (2 ^ 768) true).wf = false := by decide +kernel
theorem test_wf_ethFrame : (Instr.ethFrameReceived 0 0 0 { eth with kind := .ptp { ptp with domain := 256 } }).wf = false := by decide


/-! ### Commands with results that the spec gives -/

/-- The device after a command. -/
def ran (i : Instr) (d : Dev) : Dev := match exec i (st d) with | .next t => t.dev | _ => d

/-- ADD at the wrap: FFFFFFFF + 1 is 0 with z and c set, v clear (R361). -/
theorem test_add_wraps :
    let x := (ran (.add 0 1 2 3) (eg1 { es with regs := [(2, 0xFFFFFFFF), (3, 1)] })).engView 0
    x.g 1 = 0 ∧ x.rd .plain locZ = 1 ∧ x.rd .plain locC = 1 ∧ x.rd .plain locV = 0 := by decide +kernel

/-- SUB sets c when there is no borrow (R361). -/
theorem test_sub_borrow :
    let x := (ran (.sub 0 1 2 3) (eg1 { es with regs := [(2, 1), (3, 2)] })).engView 0
    x.g 1 = 0xFFFFFFFF ∧ x.rd .plain locC = 0 ∧ x.rd .plain locN = 1 := by decide +kernel

/-- ABS of -2^31 gives 2^31 - 1 and sets v, and with it sv (R361). -/
theorem test_abs_min :
    let x := (ran (.abs 0 1 2) (eg1 { es with regs := [(2, 0x80000000)] })).engView 0
    x.g 1 = 0x7FFFFFFF ∧ x.rd .plain locV = 1 ∧ x.rd .plain locSV = 1 := by decide +kernel

/-- MULH multiplies the low halves as signed numbers (R361). -/
theorem test_mulh_signed :
    ((ran (.mulh 0 1 2 3) (eg1 { es with regs := [(2, 0x1234FFFF), (3, 2)] })).engView 0).g 1 = 0xFFFFFFFE := by decide +kernel

/-- VADDS saturates each 16-bit lane by itself (R361). -/
theorem test_vadds_lanes :
    let x := (ran (.vadds 0 2 4 6) (eg1 { es with regs := [(4, 0x80007FFF), (5, 5), (6, 0xFFFF0001), (7, 6)] })).engView 0
    x.g 2 = 0x80007FFF ∧ x.g 3 = 11 ∧ x.rd .plain locV = 1 := by decide +kernel

/-- Register g0 discards writes and reads as 0 (R325). -/
theorem test_add_g0 : ((ran (.add 0 0 2 3) (eg1 { es with regs := [(2, 1), (3, 1)] })).engView 0).g 0 = 0 := by decide +kernel

/-- A header whose magic is wrong fails with MAGIC (code 1), before any other check (R88, R113). -/
theorem test_header_magic : kd.headerError (List.replicate 256 0) kd.kindAllowed = some (1, 0) := by decide +kernel

/-- A header of another length is no command, and the meaning stops by name. -/
theorem test_streamHeader_length : exec (.streamHeader []) (st up) = .fault (.illFormed "STREAM_HEADER") := rfl

/-- MODE moves only by the table of R61: no MODE command leaves REPAIR but for SAFE. -/
theorem test_modes_repair : [Mode.cold, .load, .rehearse, .onair, .bench, .repair, .ember].all (fun m => !modeAllowed .repair m) = true := by decide

/-- Response codes (R14). -/
theorem test_resp_codes : [Resp.done, .fault, .noroute, .timeout, .poison, .keyoff, .domoff, .reject].map Resp.code = [0, 1, 2, 3, 4, 5, 6, 7] := by decide

/-- A register write with a value outside a field's range is rejected (R9): `size_log2` 0 of a completion ring. -/
theorem test_write_range : up.writeReg .other .KEN_CR_BASE (Ix.on 0 0) 0x1000 0 = none := by decide +kernel

/-- A step takes the command at the front of the queue. -/
theorem test_step_front : (match step { pending := [.add 0 1 2 3, .sub 0 1 2 3], dev := egs } with | .next t => t.pending | _ => []) = [.sub 0 1 2 3] := rfl

/-- The table gives no row any bits: no word spells a command. -/
theorem test_decode_none : decodeTableWord 32 5 = none := rfl

/-- At reset the device is in COLD with its outputs fenced (R66, R80, R83). -/
theorem test_reset_cold : State.reset.dev.mode = .cold ∧ State.reset.dev.flag F.HRT_MODE_fenced {} = true := by decide +kernel


/-! ### Witnesses: the hypotheses of each statement, set by set, met together -/


/-- States and operands that meet the hypotheses of `RegisterWriteCommandsComplete`. -/
theorem test_hyps_RegisterWriteCommandsComplete :
    (∃ (w : Writer) (a : BitVec 48) (v : Word64) (s : State), (∃ d', s.dev.writeLands w a.toNat v.toNat d')) ∧
    (∃ (w : Writer) (b : Fin 4) (v : Word64) (s : State), (∃ d', s.dev.writeLands w (F.HT_HOST_ADJ_phase.addr {} + 0x10000000 * b) v.toNat d')) ∧
    (∃ (w : Writer) (b : Fin 4) (l : Fin 32) (v : Word64) (s : State), (∃ d', s.dev.writeLands w (F.LN_ERRINJ_go.addr (Ix.on b l)) v.toNat d')) ∧
    (∃ (w : Writer) (b : Fin 4) (g : Fin 2) (v : Word64) (s : State), (∃ d', s.dev.writeLands w (F.CRY_LINK_switch.addr (Ix.on b g)) v.toNat d')) ∧
    (∃ (w : Writer) (b : Fin 4) (r : Fin 256) (v : Word64) (s : State), (∃ d', s.dev.writeLands w (F.KEN_CR_CONS_cons.addr (Ix.on b r)) v.toNat d')) ∧
    (∃ (w : Writer) (b : Fin 4) (fn : Fin 64) (v : Word64) (s : State), (∃ d', s.dev.writeLands w (F.HRT_CQ_TAIL_tail.addr (Ix.at fn) + 0x10000000 * b) v.toNat d')) ∧
    (∃ (w : Writer) (q : Fin 8192) (s : State), (s.dev.reaches w = true) ∧ (s.dev.dieOff (qIx q.val).die = false) ∧ ((∀ n, w = .fn n → s.dev.queueInPart n (qIx q.val).die (qIx q.val).i = true))) ∧
    (∃ (w : Writer) (a : BitVec 48) (s : State) (t : _), (s.dev.accessOpen w a.toNat) ∧ (findReg a.toNat = some t) ∧ (s.dev.vfBarred w t.reg t.ix = false)) :=
  ⟨⟨.other, BitVec.ofNat 48 (F.KEN_CR_BASE_cr_base.addr (Ix.on 0 0)), BitVec.ofNat 64 (8 * 2 ^ 55 + 0x1000), st (up), by exact (landsOf (by decide +kernel))⟩,
   ⟨.other, 0, 0, st (up), by exact (landsOf (by decide +kernel))⟩,
   ⟨.other, 0, 0, BitVec.ofNat 64 (2 ^ 48 + 1000000 * 256 + 1), st (up), by exact (landsOf (by decide +kernel))⟩,
   ⟨.other, 0, 0, 0, st (up), by exact (landsOf (by decide +kernel))⟩,
   ⟨.other, 0, 0, 0, st (up), by exact (landsOf (by decide +kernel))⟩,
   ⟨.fn 0, 0, 0, 0, st (up), by exact (landsOf (by decide +kernel))⟩,
   ⟨.other, 0, st (up), by decide +kernel⟩,
   ⟨.other, BitVec.ofNat 48 (F.KEN_CR_BASE_cr_base.addr (Ix.on 0 0)), st (up), (findReg (F.KEN_CR_BASE_cr_base.addr (Ix.on 0 0))).get (by decide +kernel), by unfold Dev.accessOpen; decide +kernel⟩⟩

/-- States and operands that meet the hypotheses of `RejectedRegisterWriteChangesNothingElse`. -/
theorem test_hyps_RejectedRegisterWriteChangesNothingElse :
    (∃ (w : Writer) (a : BitVec 48) (v : Word64) (s : State), (s.dev.accessOpen w a.toNat) ∧ (s.dev.vfWriteBarred w a.toNat v.toNat = false) ∧ (∃ t, findReg a.toNat = some t)) ∧
    (∃ (w : Writer) (a : BitVec 48) (v : Word64) (s : State) (t : _), (s.dev.accessOpen w a.toNat) ∧ (s.dev.vfWriteBarred w a.toNat v.toNat = false) ∧ (findReg a.toNat = some t) ∧ (t.reg ≠ .HRT_CQ_TAIL) ∧ (s.dev.writeReg w t.reg t.ix v.toNat (dieOfAddr a.toNat) = none)) ∧
    (∃ (w : Writer) (s : State), (s.dev.reaches w = false)) :=
  ⟨⟨.other, BitVec.ofNat 48 (F.KEN_CR_BASE_cr_base.addr (Ix.on 0 0)), 0, st (up), by unfold Dev.accessOpen; exact ⟨(by decide +kernel), (by decide +kernel), (someOf1 (by decide +kernel))⟩⟩,
   ⟨.other, BitVec.ofNat 48 (F.KEN_CR_BASE_cr_base.addr (Ix.on 0 0)), 0x1000, st (up), (findReg (F.KEN_CR_BASE_cr_base.addr (Ix.on 0 0))).get (by decide +kernel), by unfold Dev.accessOpen; decide +kernel⟩,
   ⟨.other, st Dev.reset, by decide +kernel⟩⟩

/-- States and operands that meet the hypotheses of `StartupCommandsComplete`. -/
theorem test_hyps_StartupCommandsComplete :
    (∃ (s : State), (s.dev.clk.held = true) ∧ (s.dev.pwr.trip = false)) ∧
    (∃ (s : State), (s.dev.clk.stopped = true)) ∧
    (∃ (s : State), (s.dev.mode ≠ .cold) ∧ (s.dev.mode ≠ .ember) ∧ (s.dev.rd F.HRT_BOOT_step {} = 7)) ∧
    (∃ (s : State), (s.dev.step9Ready = true)) ∧
    (∃ (s : State), (s.dev.step9Ready = false)) ∧
    (∃ (s : State), (s.dev.flag F.HRT_CFG_CHAIN_released {} = true) ∧ ((s.dev.st F.HRT_CFG_CHAIN_done_pin {} 1).step9Ready = true)) ∧
    (∃ (s : State), (s.dev.inChain = true) ∧ (s.dev.mode ≠ .cold) ∧ (s.dev.mode ≠ .ember) ∧ (s.dev.fab.step9 = false) ∧ (s.dev.flag F.HRT_CFG_CHAIN_released {} = true) ∧ (s.dev.flag F.HRT_CFG_CHAIN_done_pin {} = false) ∧ (s.dev.flag F.HRT_CFG_CHAIN_wait_expired {} = false)) ∧
    (∃ (b : Fin 4) (s : State), (s.dev.clk.held = false) ∧ (s.dev.clk.clockLost.contains b.val = false) ∧ (s.dev.clk.failed.contains b.val = false)) ∧
    (∃ (b : Fin 4) (s : State), (s.dev.clk.clockLost.contains b.val = true) ∧ (s.dev.clk.failed.contains b.val = false)) ∧
    (∃ (b : Fin 4) (s : State), (s.dev.clk.inReset.contains b.val = true) ∧ (s.dev.clk.clockLost.contains b.val = false) ∧ (s.dev.clk.failed.contains b.val = false)) ∧
    (∃ (f : Fin 12) (s : State), (s.dev.clk.inReset.contains (4 + f.val) = true) ∧ (s.dev.clk.inReset.contains (f.val / 3) = false) ∧ (s.dev.clk.failed.contains (4 + f.val) = false)) :=
  ⟨⟨st Dev.reset, by decide +kernel⟩,
   ⟨st ({ up with clk := { up.clk with stopped := true } }), by decide +kernel⟩,
   ⟨st (dv [(F.HRT_BOOT_step, {}, 7)] (up)), by decide +kernel⟩,
   ⟨st (dv [(F.HRT_BOOT_step, {}, 8)] (up)), by decide +kernel⟩,
   ⟨st (up), by decide +kernel⟩,
   ⟨st (dv [(F.HRT_CFG_CHAIN_released, {}, 1), (F.HRT_BOOT_step, {}, 8)] (up)), by decide +kernel⟩,
   ⟨st (dv [(F.HRT_CFG_CHAIN_released, {}, 1), (F.HRT_CFG_CHAIN_done_pin, {}, 0), (F.HRT_CFG_CHAIN_wait_expired, {}, 0), (F.HRT_CFG_CHAIN_remaining, {}, 1)] (up)), by decide +kernel⟩,
   ⟨0, st (up), by decide +kernel⟩,
   ⟨0, st ({ up with clk := { up.clk with clockLost := [0] } }), by decide +kernel⟩,
   ⟨0, st ({ up with clk := { up.clk with inReset := [0] } }), by decide +kernel⟩,
   ⟨0, st ({ up with clk := { up.clk with inReset := [4] } }), by decide +kernel⟩⟩

/-- States and operands that meet the hypotheses of `SafePinsAndTamperComplete`. -/
theorem test_hyps_SafePinsAndTamperComplete :
    (∃ (s : State), (s.dev.flag F.HRT_MODE_fence_pin {} = false)) ∧
    (∃ (s : State) (w : ModeWait), (s.dev.pl.modeWait = some w) ∧ (s.dev.mode ≠ .ember) ∧ (modeAllowed s.dev.mode w.mode = true) ∧ ((s.dev.mode = .safe → s.dev.safeBars = 0))) ∧
    (∃ (s : State) (w : ModeWait), (s.dev.pl.modeWait = some w) ∧ (s.dev.mode = .ember)) ∧
    (∃ (s : State) (w : ModeWait), (s.dev.pl.modeWait = some w) ∧ (s.dev.mode ≠ .ember) ∧ (modeAllowed s.dev.mode w.mode = false)) ∧
    (∃ (s : State), (s.dev.pl.modeWait = none)) :=
  ⟨⟨st (dv [(F.HRT_MODE_fence_pin, {}, 0)] (up)), by decide +kernel⟩,
   ⟨st ({ up with pl := { up.pl with modeWait := some mw } }), mw, by decide +kernel⟩,
   ⟨st (dv [(F.HRT_MODE_mode, {}, 6)] ({ up with pl := { up.pl with modeWait := some mw } })), mw, by decide +kernel⟩,
   ⟨st (dv [(F.HRT_MODE_mode, {}, 5)] ({ up with pl := { up.pl with modeWait := some mw } })), mw, by decide +kernel⟩,
   ⟨st (up), by decide +kernel⟩⟩

/-- States and operands that meet the hypotheses of `HouseTimeCommandsComplete`. -/
theorem test_hyps_HouseTimeCommandsComplete :
    (∃ (s : State), (s.dev.clk.refLost = false)) ∧
    (∃ (s : State), (s.dev.clk.refLost = true)) ∧
    (∃ (m : PtpMsg) (s : State), (s.dev.htx.servoOn = true) ∧ ((m.port : Nat) = s.dev.rd F.HT_CFG_ptp_port {}) ∧ (m.version = 2) ∧ (m.domain = s.dev.rd F.HT_CFG_ptp_domain {}) ∧ (m.lenOk = true) ∧ (s.dev.htx.master = some m.srcPort) ∧ (m.kind = .sync false)) ∧
    (∃ (m : PtpMsg) (s : State), (s.dev.htx.servoOn = true) ∧ ((m.port : Nat) = s.dev.rd F.HT_CFG_ptp_port {}) ∧ ((m.version ≠ 2 ∨ m.domain ≠ s.dev.rd F.HT_CFG_ptp_domain {} ∨ m.lenOk = false))) ∧
    (∃ (s : State), (s.dev.htx.servoOn = false)) ∧
    (∃ (id : _) (s : State), (s.dev.ptpHas .followUp id = true)) ∧
    (∃ (s : State), (s.dev.flag F.HT_STATUS_locked {} = false) ∧ (s.dev.htx.tenMOk = false)) ∧
    (∃ (die : Fin 4) (gen : Fin 64) (ev : CgEvent) (s : State), (s.dev.cgIssues (Ix.on die gen) ev = true) ∧ (s.dev.flag F.HT_ALIGN_invalid (Ix.onDie die) = false) ∧ (s.dev.mode ≠ .cold) ∧ (s.dev.htx.waiting.contains (die.val * 64 + gen.val) = false)) :=
  ⟨⟨st (up), by decide +kernel⟩,
   ⟨st ({ up with clk := { up.clk with refLost := true } }), by decide +kernel⟩,
   ⟨ptp, st ({ up with htx := { up.htx with servoOn := true, master := some 3 } }), by decide +kernel⟩,
   ⟨{ ptp with version := 1 }, st ({ up with htx := { up.htx with servoOn := true } }), by decide +kernel⟩,
   ⟨st (up), by decide +kernel⟩,
   ⟨1, st ({ up with htx := { up.htx with waits := [⟨.followUp, 1, 0⟩] } }), by decide +kernel⟩,
   ⟨st (dv [(F.HT_STATUS_locked, {}, 0)] ({ up with htx := { up.htx with tenMOk := false } })), by decide +kernel⟩,
   ⟨0, 63, .frame, st (dv [(F.HT_ALIGN_invalid, (Ix.onDie 0), 0), (F.HT_CG_CFG_enable, Ix.on 0 63, 1)] (up)), by decide +kernel⟩⟩

/-- States and operands that meet the hypotheses of `StreamPacketsComplete`, part 1. -/
theorem test_hyps_StreamPacketsComplete_1 :
    (∃ (x : _) (s : State), (x.length = 256) ∧ (s.dev.streaming = true) ∧ (s.dev.rd F.HRT_CFG_STAT_state {} = 1) ∧ (s.dev.unreadable 256 = false) ∧ ((∀ t, s.dev.cfg.path ≠ .txn t)) ∧ ((s.dev.st F.HRT_CFG_STAT_bytes_in {} 256).headerError x (s.dev.st F.HRT_CFG_STAT_bytes_in {} 256).kindAllowed = none)) ∧
    (∃ (n : BitVec 24) (s : State), (s.dev.packetOpen n.toNat)) ∧
    (∃ (o : BitVec 32) (n : BitVec 24) (s : State), (s.dev.packetOpen n.toNat) ∧ (o ≠ 0)) ∧
    (∃ (o : BitVec 32) (v : Word64) (s : State), (s.dev.packetOpen 1) ∧ (o.toNat % 8 = 0) ∧ (o.toNat ≤ 0x60) ∧ (∃ d', s.dev.imageWrite (cfgReg (o.toNat / 8)) (cfgIx (o.toNat / 8)) v.toNat o.toNat = .ok d')) ∧
    (∃ (o : BitVec 32) (p : List Word64) (s : State), (s.dev.packetOpen p.length) ∧ (o.toNat % 8 = 0) ∧ (o.toNat ≤ 0x60) ∧ (p.length ≠ 1)) ∧
    (∃ (o : BitVec 32) (p : List Word64) (s : State), (s.dev.packetOpen p.length) ∧ (o.toNat < 2 ^ 30) ∧ (o.toNat % 2 ^ 28 % 8 = 0) ∧ (p ≠ []) ∧ (∃ d', Dev.imageWrites .base (o.toNat / 2 ^ 28) (fun _ _ _ _ => true) (o.toNat % 2 ^ 28) p s.dev = .ok d')) ∧
    (∃ (o : BitVec 32) (p : List Word64) (s : State), (s.dev.packetOpen p.length) ∧ (s.dev.cfg.hdr.kind ≠ 2) ∧ (o.toNat / 2 ^ 24 < 12) ∧ (o.toNat % 2 ^ 24 % 8 = 0) ∧ (p ≠ []) ∧ (∃ d', Dev.imageWrites .fabric (o.toNat / 2 ^ 24) ownWrite (o.toNat % 2 ^ 24) p s.dev = .ok d')) ∧
    (∃ (o : BitVec 32) (p : List Word64) (s : State), (s.dev.packetOpen p.length) ∧ (p ≠ []) ∧ (p.length % 32 = 0) ∧ (∃ d', s.dev.frames o.toNat (p.length / 32) (cutFrames (p.length / 32) p) = .ok d')) ∧
    (∃ (o : BitVec 32) (w : Word64) (p : List Word64) (s : State), (s.dev.packetOpen 33) ∧ (o.toNat < 2 ^ 24) ∧ (p.length = 32) ∧ (w.toNat ≠ 0) ∧ (w.toNat < 2 ^ 24) ∧ (∃ d', s.dev.frames o.toNat w.toNat (List.replicate w.toNat (p.map (fun (v : Word64) => v.toNat))) = .ok d')) ∧
    (∃ (o : BitVec 32) (p : List Word64) (s : State), (s.dev.packetOpen p.length) ∧ (p.length = 640) ∧ (o.toNat < 2 ^ 24) ∧ (o.toNat % 256 = 0) ∧ (bits o.toNat 20 4 ≤ 11) ∧ (bits o.toNat 16 4 ≤ 11) ∧ (s.dev.cfg.hdr.kind = 0)) ∧
    (∃ (o : BitVec 32) (p : List Word64) (s : State), (s.dev.packetOpen p.length) ∧ (p.length ≠ 640) ∧ (o.toNat < 2 ^ 24) ∧ (o.toNat % 256 = 0) ∧ (bits o.toNat 20 4 ≤ 11) ∧ (bits o.toNat 16 4 ≤ 11)) ∧
    (∃ (o : BitVec 32) (s : State), (s.dev.packetOpen 0) ∧ (o.toNat = s.dev.cfg.frames) ∧ (s.dev.bodyEnd ≤ s.dev.cfg.pos + 8) ∧ (({ s.dev with cfg := { s.dev.cfg with ended := true } } : Dev).contention = none) ∧ (∃ t, s.dev.streamTxn = some t)) :=
  ⟨⟨hdr, s0, by exact ⟨by decide +kernel, by decide +kernel, by decide +kernel, by decide +kernel, s0_path, s0_header⟩⟩,
   ⟨0, st (strm), by unfold Dev.packetOpen; decide +kernel⟩,
   ⟨1, 0, st (strm), by unfold Dev.packetOpen; decide +kernel⟩,
   ⟨0, 0, st (strm), by unfold Dev.packetOpen; exact ⟨(by decide +kernel), (by decide +kernel), (by decide +kernel), (pktOf1 (by decide +kernel))⟩⟩,
   ⟨0, [], st (strm), by unfold Dev.packetOpen; decide +kernel⟩,
   ⟨BitVec.ofNat 32 (F.KEN_CR_BASE_cr_base.addr (Ix.on 0 0) % 2 ^ 28), [BitVec.ofNat 64 (8 * 2 ^ 55 + 0x1000)], st (strm), by unfold Dev.packetOpen; exact ⟨(by decide +kernel), (by decide +kernel), (by decide +kernel), (by decide +kernel), (pktOf1 (by decide +kernel))⟩⟩,
   ⟨BitVec.ofNat 32 (F.FAB_RGN_CTL_rst_len.addr (Ix.on 0 0) % 2 ^ 24), [16], st (strm), by unfold Dev.packetOpen; exact ⟨(by decide +kernel), (by decide +kernel), (by decide +kernel), (by decide +kernel), (by decide +kernel), (pktOf1 (by decide +kernel))⟩⟩,
   ⟨0, List.replicate 32 0, st (strm), by unfold Dev.packetOpen; exact ⟨(by decide +kernel), (by decide +kernel), (by decide +kernel), (pktOf1 (by decide +kernel))⟩⟩,
   ⟨0, 1, List.replicate 32 0, st (strm), by unfold Dev.packetOpen; exact ⟨(by decide +kernel), (by decide +kernel), (by decide +kernel), (by decide +kernel), (by decide +kernel), (pktOf1 (by decide +kernel))⟩⟩,
   ⟨0, List.replicate 640 0, st (strm), by unfold Dev.packetOpen; decide +kernel⟩,
   ⟨0, [], st (strm), by unfold Dev.packetOpen; decide +kernel⟩,
   ⟨0, st ({ strm with cfg := { strm.cfg with path := .txn 1, hdr := { Hdr.empty with bodyLen := 8 } } }), by unfold Dev.packetOpen; exact ⟨(by decide +kernel), (by decide +kernel), (by decide +kernel), (by decide +kernel), (someOf1 (by decide +kernel))⟩⟩⟩

/-- States and operands that meet the hypotheses of `StreamPacketsComplete`, part 2. -/
theorem test_hyps_StreamPacketsComplete_2 :
    (∃ (o : BitVec 32) (p : List Word64) (s : State), (s.dev.packetOpen p.length) ∧ ((p ≠ [] ∨ o.toNat ≠ s.dev.cfg.frames))) :=
  ⟨0, [0], st (strm), by unfold Dev.packetOpen; decide +kernel⟩

/-- States and operands that meet the hypotheses of `StreamEndsComplete`. -/
theorem test_hyps_StreamEndsComplete :
    (∃ (s : State), (s.dev.streaming = true) ∧ (s.dev.rd F.HRT_CFG_STAT_state {} = 3) ∧ (s.dev.unreadable (if s.dev.cfg.hdr.signed then 112 else 16) = false) ∧ (s.dev.cfg.err = none)) ∧
    (∃ (s : State), (s.dev.streaming = true) ∧ (s.dev.rd F.HRT_CFG_STAT_state {} = 3) ∧ (s.dev.unreadable (if s.dev.cfg.hdr.signed then 112 else 16) = false)) ∧
    (∃ (s : State), (s.dev.streaming = true) ∧ (s.dev.rd F.HRT_CFG_STAT_state {} = 4)) ∧
    (∃ (s : State), (s.dev.receiving = true) ∧ (s.dev.rd F.HRT_CFG_STAT_source {} = 2)) ∧
    (∃ (s : State), (s.dev.receiving = true) ∧ (s.dev.rd F.HRT_CFG_STAT_source {} = 5)) ∧
    (∃ (s : State), (s.dev.receiving = true) ∧ (s.dev.rd F.HRT_CFG_STAT_source {} = 4) ∧ (s.dev.rd F.HRT_CFG_STAT_bytes_in {} = 0)) ∧
    (∃ (s : State), (s.dev.rd F.HRT_CFG_STAT_state {} = 5)) :=
  ⟨⟨st (dv [(F.HRT_CFG_STAT_state, {}, 3)] ({ strm with cfg := { strm.cfg with pos := 80256 } })), by decide +kernel⟩,
   ⟨st (dv [(F.HRT_CFG_STAT_state, {}, 3)] ({ strm with cfg := { strm.cfg with pos := 80256 } })), by decide +kernel⟩,
   ⟨st (dv [(F.HRT_CFG_STAT_state, {}, 4)] (strm)), by decide +kernel⟩,
   ⟨st (dv [(F.HRT_CFG_STAT_source, {}, 2)] (strm)), by decide +kernel⟩,
   ⟨st (dv [(F.HRT_CFG_STAT_source, {}, 5)] (strm)), by decide +kernel⟩,
   ⟨st (dv [(F.HRT_CFG_STAT_source, {}, 4), (F.HRT_CFG_STAT_bytes_in, {}, 0)] (strm)), by decide +kernel⟩,
   ⟨st (dv [(F.HRT_CFG_STAT_state, {}, 5)] (strm)), by decide +kernel⟩⟩

/-- States and operands that meet the hypotheses of `TransactionCommandsComplete`, part 1. -/
theorem test_hyps_TransactionCommandsComplete_1 :
    (∃ (c : HostCmd) (ms : BitVec 64) (s : State) (t : _) (d' : _), (s.dev.hostOpen c grpTXN 1) ∧ (ms ≠ 0) ∧ (ms.toNat ≤ 600000) ∧ ((s.dev.taken c.fn).openTxn c.fn false ms.toNat = some (t, d'))) ∧
    (∃ (c : HostCmd) (s : State), (s.dev.hostOpen c grpTXN 1) ∧ (∃ t d', (s.dev.taken c.fn).openTxn c.fn false 10000 = some (t, d'))) ∧
    (∃ (c : HostCmd) (ms : BitVec 64) (s : State), (s.dev.hostOpen c grpTXN 1) ∧ (ms ≠ 0) ∧ (ms.toNat ≤ 600000) ∧ ((s.dev.taken c.fn).openTxn c.fn false ms.toNat = none)) ∧
    (∃ (c : HostCmd) (t : BitVec 8) (die : BitVec 8) (off : BitVec 32) (v : Word64) (s : State), (s.dev.txnOpen c 2 t.toNat openOrReady) ∧ (die.toNat < 4) ∧ (off.toNat % 8 = 0) ∧ (∃ d', (s.dev.taken c.fn).txnStage t.toNat c.fn (findIn .base die.toNat off.toNat allRegs) v.toNat = .ok d')) ∧
    (∃ (c : HostCmd) (t : BitVec 8) (die : BitVec 8) (s : State), (s.dev.txnOpen c 2 t.toNat openOrReady) ∧ (12 ≤ die.toNat)) ∧
    (∃ (c : HostCmd) (t : BitVec 8) (n : BitVec 32) (l : List (Word64 × Word64)) (s : State), (s.dev.txnOpen c 3 t.toNat openOrReady) ∧ (n ≠ 0) ∧ (n.toNat ≤ 65536) ∧ (∃ d', Dev.txnStageList t.toNat c.fn 0 l (s.dev.taken c.fn) = .ok d')) ∧
    (∃ (c : HostCmd) (t : BitVec 8) (off : BitVec 32) (s : State), (s.dev.txnOpen c 4 t.toNat openOrReady) ∧ (off.toNat < areaSize) ∧ ((s.dev.taken c.fn).isVf c.fn = false) ∧ ((s.dev.taken c.fn).rd F.HRT_TXN_STAT_streams (Ix.at t.toNat) < 16) ∧ ((s.dev.taken c.fn).flag F.HRT_CFG_STAT_busy {} = false)) ∧
    (∃ (c : HostCmd) (t : BitVec 8) (addr : Word64) (s : State) (x : _), (s.dev.txnOpen c 5 t.toNat (fun s => decide (1 ≤ s) && decide (s ≤ tLAUNCHED))) ∧ (findReg addr.toNat = some x) ∧ ((s.dev.taken c.fn).vfBarred (.fn c.fn) x.reg x.ix = false) ∧ (x.reg ≠ .HRT_CFG_RD)) ∧
    (∃ (c : HostCmd) (t : BitVec 8) (trig : Trigger) (s : State) (detail : _) (d' : _), (s.dev.txnOpen c 6 t.toNat openOrReady) ∧ ((s.dev.taken c.fn).arm t.toNat trig = (0, detail, d'))) ∧
    (∃ (c : HostCmd) (t : BitVec 8) (trig : Trigger) (s : State) (e : _) (detail : _) (d' : _), (s.dev.txnOpen c 6 t.toNat openOrReady) ∧ ((s.dev.taken c.fn).arm t.toNat trig = (e, detail, d')) ∧ (e ≠ 0)) ∧
    (∃ (c : HostCmd) (t : BitVec 8) (s : State), (s.dev.txnOpen c 7 t.toNat (fun s => s = tARMED))) ∧
    (∃ (c : HostCmd) (t : BitVec 8) (s : State), (s.dev.txnOpen c 8 t.toNat (fun s => decide (1 ≤ s) && decide (s ≤ tARMED)))) :=
  ⟨⟨hc, 1, st up, 0, (((up.taken 0).openTxn 0 false 1).getD (0, up)).2, by unfold Dev.hostOpen; decide +kernel⟩,
   ⟨hc, st (tx), by unfold Dev.hostOpen; exact ⟨(by decide +kernel), (someOf2 (by decide +kernel))⟩⟩,
   ⟨hc, 1, st (dv [(F.HRT_TXN_STAT_state, Ix.at 1, 1), (F.HRT_TXN_STAT_owner, Ix.at 1, 0), (F.HRT_TXN_STAT_state, Ix.at 2, 1), (F.HRT_TXN_STAT_owner, Ix.at 2, 0), (F.HRT_TXN_STAT_state, Ix.at 3, 1), (F.HRT_TXN_STAT_owner, Ix.at 3, 0)] (tx)), by unfold Dev.hostOpen; decide +kernel⟩,
   ⟨hc, 0, 0, BitVec.ofNat 32 (F.KEN_CR_BASE_cr_base.addr (Ix.on 0 0) % 2 ^ 28), BitVec.ofNat 64 (8 * 2 ^ 55 + 0x1000), st (tx), by unfold Dev.txnOpen Dev.hostOpen; exact ⟨(by decide +kernel), (by decide +kernel), (by decide +kernel), (okOf1 (by decide +kernel))⟩⟩,
   ⟨hc, 0, 12, st (tx), by unfold Dev.txnOpen Dev.hostOpen; decide +kernel⟩,
   ⟨hc, 0, 1, [(BitVec.ofNat 64 (F.KEN_CR_BASE_cr_base.addr (Ix.on 0 0)), BitVec.ofNat 64 (8 * 2 ^ 55 + 0x1000))], st (tx), by unfold Dev.txnOpen Dev.hostOpen; exact ⟨(by decide +kernel), (by decide +kernel), (by decide +kernel), (okOf1 (by decide +kernel))⟩⟩,
   ⟨hc, 0, 0, st (tx), by unfold Dev.txnOpen Dev.hostOpen; decide +kernel⟩,
   ⟨hc, 0, BitVec.ofNat 64 (F.KEN_CR_BASE_cr_base.addr (Ix.on 0 0)), st (tx), (findReg (F.KEN_CR_BASE_cr_base.addr (Ix.on 0 0))).get (by decide +kernel), by unfold Dev.txnOpen Dev.hostOpen; decide +kernel⟩,
   ⟨hc, 0, .instant 1 0, st (tx), 0, ((tx.taken 0).arm 0 (.instant 1 0)).2.2, by unfold Dev.txnOpen Dev.hostOpen; decide +kernel⟩,
   ⟨hc, 0, .instant 0 1, st (tx), ((tx.taken 0).arm 0 (.instant 0 1)).1, ((tx.taken 0).arm 0 (.instant 0 1)).2.1, ((tx.taken 0).arm 0 (.instant 0 1)).2.2, by unfold Dev.txnOpen Dev.hostOpen; decide +kernel⟩,
   ⟨hc, 0, st (dv [(F.HRT_TXN_STAT_state, Ix.at 0, 4)] (tx)), by unfold Dev.txnOpen Dev.hostOpen; decide +kernel⟩,
   ⟨hc, 0, st (tx), by unfold Dev.txnOpen Dev.hostOpen; decide +kernel⟩⟩

/-- States and operands that meet the hypotheses of `TransactionCommandsComplete`, part 2. -/
theorem test_hyps_TransactionCommandsComplete_2 :
    (∃ (c : HostCmd) (t : BitVec 8) (s : State), (s.dev.txnOpen c 9 t.toNat (fun s => s ≠ tIDLE))) :=
  ⟨hc, 0, st (tx), by unfold Dev.txnOpen Dev.hostOpen; decide +kernel⟩

/-- States and operands that meet the hypotheses of `TransactionEventsComplete`. -/
theorem test_hyps_TransactionEventsComplete :
    (∃ (t : Fin 16) (s : State), ((s.dev.txn t.val).dflt = true) ∧ (openOrReady (s.dev.tState t.val) = true) ∧ (s.dev.mode = .rehearse)) ∧
    (∃ (t : Fin 16) (s : State), (openOrReady (s.dev.tState t.val) = true) ∧ ((s.dev.txn t.val).dflt = false) ∧ ((s.dev.txn t.val).timeout ≠ 0)) ∧
    (∃ (t : Fin 16) (s : State), (s.dev.tState t.val = tARMED) ∧ (s.dev.mode ≠ .ember) ∧ (s.dev.unquiet (s.dev.txn t.val).staged = false)) ∧
    (∃ (t : Fin 16) (s : State), (s.dev.tState t.val = tARMED) ∧ (s.dev.mode = .ember)) ∧
    (∃ (t : Fin 16) (s : State), (s.dev.tState t.val = tLAUNCHED)) ∧
    (∃ (t : Fin 16) (s : State), (tCOMMITTED ≤ s.dev.tState t.val)) ∧
    (∃ (f : Fin 12) (n : Fin 64) (s : State), (s.dev.fab.regionReset.contains (f.val * 64 + n.val) = true)) ∧
    (∃ (f : Fin 12) (n : Fin 64) (s : State), (s.dev.fab.regionReset.contains (f.val * 64 + n.val) = true) ∧ (s.dev.flag F.FAB_RGN_STAT_clk_stalled (Ix.on f n) = false)) :=
  ⟨⟨0, st ({ tx with pl := { tx.pl with txn := [(0, { TxnSt.empty with dflt := true })] } }), by decide +kernel⟩,
   ⟨0, st ({ tx with pl := { tx.pl with txn := [(0, { TxnSt.empty with timeout := 7 })] } }), by decide +kernel⟩,
   ⟨0, st (dv [(F.HRT_TXN_STAT_state, Ix.at 0, 4)] (tx)), by decide +kernel⟩,
   ⟨0, st (dv [(F.HRT_TXN_STAT_state, Ix.at 0, 4), (F.HRT_MODE_mode, {}, 6)] (tx)), by decide +kernel⟩,
   ⟨0, st (dv [(F.HRT_TXN_STAT_state, Ix.at 0, 5)] (tx)), by decide +kernel⟩,
   ⟨0, st (dv [(F.HRT_TXN_STAT_state, Ix.at 0, 6)] (tx)), by decide +kernel⟩,
   ⟨0, 0, st ({ up with fab := { up.fab with regionReset := [0] } }), by decide +kernel⟩,
   ⟨0, 0, st (dv [(F.FAB_RGN_STAT_clk_stalled, (Ix.on (0 : Fin 12) (0 : Fin 64)), 0)] ({ up with fab := { up.fab with regionReset := [0] } })), by decide +kernel⟩⟩

/-- States and operands that meet the hypotheses of `InternalPortAndScrubComplete`. -/
theorem test_hyps_InternalPortAndScrubComplete :
    (∃ (f : Fin 12) (s : State) (t : _) (d' : _), (s.dev.icpOn f = true) ∧ (s.dev.icpTxn f = some (t, d')) ∧ (openOrReady (d'.tState t) = true)) ∧
    (∃ (f : Fin 12) (p : Word64) (s : State) (t : _) (d' : _), (s.dev.icpOn f = true) ∧ (s.dev.icpTxn f = some (t, d')) ∧ (openOrReady (d'.tState t) = true) ∧ (d'.flag F.FAB_ICP_CTL_peat_ok (Ix.onDie f) = true) ∧ (p.toNat / 2 ^ 32 ≠ 0) ∧ (p.toNat % 2 ^ 32 + p.toNat / 2 ^ 32 ≤ areaSize)) ∧
    (∃ (f : Fin 12) (s : State), (s.dev.icpOn f = true) ∧ (s.dev.flag F.FAB_ICP_CTL_readback_ok (Ix.onDie f) = false)) ∧
    (∃ (f : Fin 12) (p : Word64) (s : State), (s.dev.icpOn f = true) ∧ (s.dev.flag F.FAB_ICP_CTL_readback_ok (Ix.onDie f) = true) ∧ (p.toNat / 2 ^ 24 % 2 ^ 24 ≠ 0) ∧ (bits (p.toNat % 2 ^ 24) 20 4 = f.val) ∧ (frameExists (p.toNat % 2 ^ 24) = true) ∧ ((frameRun (p.toNat / 2 ^ 24 % 2 ^ 24) (bits (p.toNat % 2 ^ 24) 16 4) (bits (p.toNat % 2 ^ 24) 6 10) (bits (p.toNat % 2 ^ 24) 0 6)).any (fun x => decide (11 < x.1)) = false)) ∧
    (∃ (f : Fin 12) (p : Word64) (s : State) (t : _) (d' : _) (detail : _) (d'' : _), (s.dev.icpOn f = true) ∧ (s.dev.icpTxn f = some (t, d')) ∧ (openOrReady (d'.tState t) = true) ∧ (d'.arm t (.cadence (p.toNat % 4) (p.toNat / 4 % 64) (bits p.toNat 8 3)) = (0, detail, d''))) ∧
    (∃ (f : Fin 12) (s : State) (t : _) (d' : _), (s.dev.icpOn f = true) ∧ (s.dev.icpTxn f = some (t, d')) ∧ (1 ≤ d'.tState t) ∧ (d'.tState t ≤ tARMED)) ∧
    (∃ (f : Fin 12) (s : State), (s.dev.streaming = true) ∧ (s.dev.cfg.icp = some f.val)) ∧
    (∃ (f : Fin 12) (s : State), (s.dev.flag F.FAB_ICP_STAT_busy_other (Ix.onDie f) = true)) ∧
    (∃ (a : BitVec 24) (s : State), (s.dev.scrubs a.toNat = true) ∧ (Tbl.get 0 s.dev.pl.corrected a.toNat = 0)) ∧
    (∃ (sh : Bool) (a : BitVec 24) (s : State), (s.dev.pl.rebuild.contains (planeKey sh a.toNat) = true) ∧ (s.dev.scrubs a.toNat = true) ∧ (s.dev.frameTxn a.toNat = none) ∧ (s.dev.pl.stale.contains a.toNat = false) ∧ (s.dev.pl.resync.contains a.toNat = false) ∧ (s.dev.pl.rebuild.contains (planeKey (!sh) a.toNat) = false)) :=
  ⟨⟨0, st (ic), 0, icT, by decide +kernel⟩,
   ⟨0, BitVec.ofNat 64 (2 ^ 32), st (dv [(F.FAB_ICP_CTL_peat_ok, Ix.onDie 0, 1)] ic), 0, icP, by decide +kernel⟩,
   ⟨0, st (dv [(F.FAB_ICP_CTL_readback_ok, (Ix.onDie (0 : Fin 12)), 0)] (ic)), by decide +kernel⟩,
   ⟨0, BitVec.ofNat 64 (2 ^ 24), st (dv [(F.FAB_ICP_CTL_readback_ok, (Ix.onDie (0 : Fin 12)), 1)] (ic)), by decide +kernel⟩,
   ⟨0, 256, st (ic), 0, icT, 0, (icT.arm 0 (.cadence 0 0 1)).2.2, by decide +kernel⟩,
   ⟨0, st (ic), 0, icT, by decide +kernel⟩,
   ⟨0, st ({ strm with cfg := { strm.cfg with icp := some 0 } }), by decide +kernel⟩,
   ⟨0, st (dv [(F.FAB_ICP_STAT_busy_other, (Ix.onDie (0 : Fin 12)), 1)] (up)), by decide +kernel⟩,
   ⟨0, st (up), by decide +kernel⟩,
   ⟨false, 0, st ({ up with pl := { up.pl with rebuild := [0] } }), by decide +kernel⟩⟩

/-- States and operands that meet the hypotheses of `FabricCommandsComplete`. -/
theorem test_hyps_FabricCommandsComplete :
    (∃ (line : BitVec 32) (frame : BitVec 24), (lineExists line.toNat = true) ∧ (frameExists frame.toNat = true)) ∧
    (∃ (f : Fin 12) (p : Fin 6) (s : State), (s.dev.pllOn f p = true) ∧ (s.dev.flag F.FAB_PLL_STAT_ref_bad (Ix.on f p) = false)) ∧
    (∃ (f : Fin 12) (p : Fin 6) (s : State), (s.dev.pllOn f p = true) ∧ (s.dev.fab.step9 = true) ∧ (s.dev.flag F.FAB_PLL_STAT_locked (Ix.on f p) = false)) ∧
    (∃ (f : Fin 12) (p : Fin 6) (khz : _) (s : State), (s.dev.pllOn f p = true) ∧ (s.dev.rd F.FAB_PLL_CFG_ref_sel (Ix.on f p) ≠ 0) ∧ ((s.dev.st F.FAB_PLL_STAT_ref_khz (Ix.on f p) khz).pllRefOk f p khz = true)) ∧
    (∃ (f : Fin 12) (p : Fin 6) (khz : _) (s : State), (s.dev.pllOn f p = true) ∧ (s.dev.rd F.FAB_PLL_CFG_ref_sel (Ix.on f p) ≠ 0) ∧ ((s.dev.st F.FAB_PLL_STAT_ref_khz (Ix.on f p) khz).pllRefOk f p khz = false)) ∧
    (∃ (f : Fin 12) (p : Fin 6) (s : State), (s.dev.flag F.FAB_PLL_STAT_locked (Ix.on f p) = true)) ∧
    (∃ (f : Fin 12) (n : Fin 32) (s : State), (s.dev.flag F.FAB_GNET_mon_en (Ix.on f n) = true) ∧ (bits (s.dev.rd F.FAB_STATUS_net_stopped (Ix.onDie f)) n 1 = 0)) ∧
    (∃ (f : Fin 12) (n : Fin 32) (s : State), (bits (s.dev.rd F.FAB_STATUS_net_stopped (Ix.onDie f)) n 1 = 1)) ∧
    (∃ (pair : Fin 8) (bundle : Fin 4096) (s : State), ((Tbl.get BundleSt.fresh s.dev.fab.bundles (bundleKey pair bundle)).taken = [])) :=
  ⟨⟨0, 0, by decide +kernel⟩,
   ⟨0, 0, st (dv [(F.FAB_PLL_STAT_ref_bad, (Ix.on (0 : Fin 12) (0 : Fin 6)), 0)] (pl)), by decide +kernel⟩,
   ⟨0, 0, st (dv [(F.FAB_PLL_STAT_locked, (Ix.on (0 : Fin 12) (0 : Fin 6)), 0)] (pl)), by decide +kernel⟩,
   ⟨0, 0, 100000, st (dv [(F.FAB_PLL_CFG_ref_sel, (Ix.on (0 : Fin 12) (0 : Fin 6)), 1)] (pl)), by decide +kernel⟩,
   ⟨0, 0, 0, st (dv [(F.FAB_PLL_CFG_ref_sel, (Ix.on (0 : Fin 12) (0 : Fin 6)), 1)] (pl)), by decide +kernel⟩,
   ⟨0, 0, st (dv [(F.FAB_PLL_STAT_locked, (Ix.on (0 : Fin 12) (0 : Fin 6)), 1)] (up)), by decide +kernel⟩,
   ⟨0, 0, st (dv [(F.FAB_GNET_mon_en, (Ix.on (0 : Fin 12) (0 : Fin 32)), 1)] (up)), by decide +kernel⟩,
   ⟨0, 0, st (dv [(F.FAB_STATUS_net_stopped, Ix.onDie 0, 1)] (up)), by decide +kernel⟩,
   ⟨0, 0, st (up), by decide +kernel⟩⟩

/-- States and operands that meet the hypotheses of `PacketCommandsComplete`, part 1. -/
theorem test_hyps_PacketCommandsComplete_1 :
    (∃ (f : Fin 12) (a : Fin 32) (addr : BitVec 63) (s : State), (s.dev.apClosed f a = false) ∧ (s.dev.mode ≠ .ember) ∧ (addr.toNat / 2 ^ 48 % 256 ≠ 0)) ∧
    (∃ (f : Fin 12) (a : Fin 32) (addr : BitVec 63) (len : Fin 32) (tag : BitVec 8) (s : State), (s.dev.apClosed f a = false) ∧ (s.dev.mode ≠ .ember) ∧ (addr.toNat / 2 ^ 48 % 256 = 0) ∧ (s.dev.req (apEndpoint f a) tag.toNat = none) ∧ (s.dev.quarantined (apEndpoint f a) tag.toNat = false) ∧ ((s.dev.fabCount f 35 a 1).decodeAddr (addr.toNat % 2 ^ 48) = none) ∧ (len.val < 31)) ∧
    (∃ (f : Fin 12) (a : Fin 32) (addr : BitVec 63) (tag : BitVec 8) (s : State), (s.dev.apClosed f a = false) ∧ (s.dev.mode ≠ .ember) ∧ (addr.toNat / 2 ^ 48 % 256 = 0) ∧ (s.dev.req (apEndpoint f a) tag.toNat = none) ∧ (s.dev.quarantined (apEndpoint f a) tag.toNat = false) ∧ (∃ dst, (s.dev.fabCount f 35 a 1).decodeAddr (addr.toNat % 2 ^ 48) = some dst)) ∧
    (∃ (b : Fin 4) (r : Fin 32) (p : NocPkt) (s : State), (s.dev.mode ≠ .ember) ∧ ((s.dev.unbuffer p.id).rtState b r = 1) ∧ (p.fieldsOk = true) ∧ (p.pkg = 0)) ∧
    (∃ (b : Fin 4) (r : Fin 32) (p : NocPkt) (s : State), (s.dev.mode ≠ .ember) ∧ ((s.dev.unbuffer p.id).rtState b r = 1)) ∧
    (∃ (p : NocPkt) (answer : Option ApAnswer) (s : State) (r : _) (l : _) (d' : _), (s.dev.lands p) ∧ ((s.dev.atTarget p).decodeAddr (pktAddr p) = some p.dst.toNat) ∧ ((s.dev.atTarget p).serveRead (pktKey p) (pktAddr p) (128 * p.rdLen) answer = some (r, l, d'))) ∧
    (∃ (p : NocPkt) (answer : Option ApAnswer) (s : State), (s.dev.lands p) ∧ ((s.dev.atTarget p).decodeAddr (pktAddr p) = some p.dst.toNat) ∧ ((s.dev.atTarget p).serveRead (pktKey p) (pktAddr p) (128 * p.rdLen) answer = none)) ∧
    (∃ (p : NocPkt) (answer : Option ApAnswer) (s : State) (r : _) (l : _) (d' : _), (s.dev.lands p) ∧ ((s.dev.atTarget p).decodeAddr (pktAddr p) = some p.dst.toNat) ∧ ((s.dev.atTarget p).pktWrite p answer = some (r, l, d'))) ∧
    (∃ (p : NocPkt) (s : State) (r : _) (l : _) (d' : _), (s.dev.lands p) ∧ ((s.dev.atTarget p).decodeAddr (pktAddr p) = some p.dst.toNat) ∧ ((s.dev.atTarget p).pktWrite p (some { code := 0, data := [] }) = some (r, l, d'))) ∧
    (∃ (p : NocPkt) (s : State), (s.dev.lands p) ∧ ((s.dev.atTarget p).decodeAddr (pktAddr p) ≠ some p.dst.toNat)) ∧
    (∃ (p : NocPkt) (s : State), (s.dev.lands p)) ∧
    (∃ (p : NocPkt) (q : _) (s : State), (p.op.val = 3) ∧ (p.dst.toNat < 1024) ∧ ((s.dev.unbuffer p.id).localShut (p.dst.toNat / 256) (p.dst.toNat / 8 % 32) (p.dst.toNat % 8) = false) ∧ ((s.dev.unbuffer p.id).quarantined p.dst.toNat p.tag.toNat = false) ∧ ((s.dev.unbuffer p.id).req p.dst.toNat p.tag.toNat = some q) ∧ (q.parts = 1) ∧ (q.code = 0)) :=
  ⟨⟨0, 0, BitVec.ofNat 63 (2 ^ 48), st (up), by decide +kernel⟩,
   ⟨0, 0, BitVec.ofNat 63 (2 ^ 45), 0, 0, st (up), by decide +kernel⟩,
   ⟨0, 0, 0, 0, st (up), by exact ⟨(by decide +kernel), (by decide +kernel), (by decide +kernel), (by decide +kernel), (by decide +kernel), (someOf1 (by decide +kernel))⟩⟩,
   ⟨0, 0, rdP, st (dv [(F.NOC_RT_STAT_state, Ix.on 0 0, 1)] (up)), by decide +kernel⟩,
   ⟨0, 0, rdP, st (dv [(F.NOC_RT_STAT_state, Ix.on 0 0, 1)] (up)), by decide +kernel⟩,
   ⟨rdP, none, st (up), .done, (((up.atTarget rdP).serveRead (pktKey rdP) (pktAddr rdP) 128 none).getD (.done, [], up)).2.1, (((up.atTarget rdP).serveRead (pktKey rdP) (pktAddr rdP) 128 none).getD (.done, [], up)).2.2, by unfold Dev.lands; decide +kernel⟩,
   ⟨{ rdP with addr := BitVec.ofNat 63 0x4000000000, dst := 0 }, none, st (up), by unfold Dev.lands; decide +kernel⟩,
   ⟨rdP, none, st (up), .reject, [], (((up.atTarget rdP).pktWrite rdP none).getD (.done, [], up)).2.2, by unfold Dev.lands; decide +kernel⟩,
   ⟨{ rdP with addr := BitVec.ofNat 63 0x4000000000, dst := 0 }, st (up), .done, [], up, by unfold Dev.lands; decide +kernel⟩,
   ⟨{ rdP with dst := 0 }, st (up), by unfold Dev.lands; decide +kernel⟩,
   ⟨rdP, st (up), by unfold Dev.lands; decide +kernel⟩,
   ⟨{ rdP with op := 3, dst := 0 }, nReq, st ({ up with noc := { up.noc with reqs := [(0, some nReq)] } }), by decide +kernel⟩⟩

/-- States and operands that meet the hypotheses of `PacketCommandsComplete`, part 2. -/
theorem test_hyps_PacketCommandsComplete_2 :
    (∃ (e : Fin 1024) (answer : Option ApAnswer) (s : State) (t : _) (rest : _), (s.dev.mode ≠ .ember) ∧ (s.dev.packUp (e.val / 32) = true) ∧ ((s.dev.eng e).xfers = t :: rest) ∧ (s.dev.engState e ≠ 4) ∧ (∃ r d', s.dev.move e t answer = some (r, d'))) ∧
    (∃ (fn : Fin 64) (off : BitVec 36) (bytes : List Byte) (answer : Option ApAnswer) (s : State) (d' : _), (s.dev.clk.held = false) ∧ (s.dev.rd F.HRT_FN_STAT_type (Ix.at fn) ≠ 0) ∧ (2 ≤ s.dev.rd F.HRT_BOOT_step {}) ∧ (s.dev.mode ≠ .ember) ∧ (s.dev.serveWrite (.fn fn) none (s.dev.rd F.HRT_BAR2_key_id (Ix.at fn)) (s.dev.rd F.HRT_BAR2_win (Ix.at fn) * 2 ^ 36 + off.toNat) bytes.length (placeBytes (s.dev.rd F.HRT_BAR2_win (Ix.at fn) * 2 ^ 36 + off.toNat) bytes) false answer = some (.done, d'))) ∧
    (∃ (fn : Fin 64) (s : State), (s.dev.clk.held = false) ∧ (s.dev.rd F.HRT_FN_STAT_type (Ix.at fn) ≠ 0) ∧ (2 ≤ s.dev.rd F.HRT_BOOT_step {}) ∧ (s.dev.mode = .ember)) :=
  ⟨⟨0, none, st ({ eg with en := { eg.en with eng := [(0, { EngSt.fresh with xfers := [fxf] })] } }), fxf, [], by exact ⟨(by decide +kernel), (by decide +kernel), (by decide +kernel), (by decide +kernel), (someOf2 (by decide +kernel))⟩⟩,
   ⟨0, 0, List.replicate 8 0, some { code := 0, data := [] }, st (dv [(F.HRT_FN_STAT_type, (Ix.at (0 : Fin 64)), 1), (F.HRT_BAR2_win, Ix.at 0, 4)] (up)), dv [(F.HRT_BAR2_win, Ix.at 0, 4)] up, by decide +kernel⟩,
   ⟨0, st (dv [(F.HRT_FN_STAT_type, (Ix.at (0 : Fin 64)), 1), (F.HRT_MODE_mode, {}, 6)] (up)), by decide +kernel⟩⟩

/-- States and operands that meet the hypotheses of `NetworkEventsComplete`. -/
theorem test_hyps_NetworkEventsComplete :
    (∃ (pid : _) (x : NocBuf) (s : State), (s.dev.noc.bufs.find? (fun x => decide (x.pkt.id = pid) && x.port.isNone) = some x)) ∧
    (∃ (pid : _) (x : NocBuf) (s : State), (s.dev.noc.bufs.find? (fun x => decide (x.pkt.id = pid)) = some x) ∧ (12 ≤ (s.dev.birthNow.val + 16 - x.pkt.birth.val) % 16)) ∧
    (∃ (pid : _) (x : NocBuf) (s : State), (s.dev.noc.bufs.find? (fun x => decide (x.pkt.id = pid)) = some x) ∧ ((s.dev.birthNow.val + 16 - x.pkt.birth.val) % 16 < 12)) ∧
    (∃ (b : Fin 4) (r : Fin 32) (s : State), (s.dev.rtState b r ≠ 4) ∧ (s.dev.rtState b r ≠ 0)) ∧
    (∃ (s : State), (s.dev.flag F.NOC_STATUS_epoch_draining {} = true)) ∧
    (∃ (s : State), (s.dev.flag F.NOC_STATUS_epoch_draining {} = false)) ∧
    (∃ (src : Fin 1024) (tag : BitVec 12) (s : State), (s.dev.mode ≠ .ember) ∧ ((s.dev.req src tag.toNat).isSome = true)) ∧
    (∃ (src : BitVec 12) (tag : BitVec 12) (p : _) (s : State), (s.dev.noc.taken.find? (fun p => decide (p.src = src) && decide (p.tag = tag)) = some p)) ∧
    (∃ (b : Fin 4) (r : Fin 32) (u : Fin 101) (s : State), ((s.dev.st F.NOC_RT_STAT_util (Ix.on b r) u.val).rd F.NOC_CFG_thr_on (Ix.onDie b) < u.val)) :=
  ⟨⟨1, nBuf, st ({ up with noc := { up.noc with bufs := [nBuf] } }), by decide +kernel⟩,
   ⟨1, { nBuf with pkt := { rdP with birth := up.birthNow + 1 } }, st ({ up with noc := { up.noc with bufs := [{ nBuf with pkt := { rdP with birth := up.birthNow + 1 } }] } }), by decide +kernel⟩,
   ⟨1, { nBuf with pkt := { rdP with birth := up.birthNow } }, st ({ up with noc := { up.noc with bufs := [{ nBuf with pkt := { rdP with birth := up.birthNow } }] } }), by decide +kernel⟩,
   ⟨0, 0, st (dv [(F.NOC_RT_STAT_state, Ix.on 0 0, 1)] (up)), by decide +kernel⟩,
   ⟨st (dv [(F.NOC_STATUS_epoch_draining, {}, 1)] (up)), by decide +kernel⟩,
   ⟨st (dv [(F.NOC_STATUS_epoch_draining, {}, 0)] (up)), by decide +kernel⟩,
   ⟨0, 0, st ({ up with noc := { up.noc with reqs := [(0, some nReq)] } }), by decide +kernel⟩,
   ⟨0, 0, rdP, st ({ up with noc := { up.noc with taken := [rdP] } }), by decide +kernel⟩,
   ⟨0, 0, 100, st (up), by decide +kernel⟩⟩

/-- States and operands that meet the hypotheses of `CordCommandsComplete`, part 1. -/
theorem test_hyps_CordCommandsComplete_1 :
    (∃ (c : CordId) (s : State), (s.dev.cordEndReset c = false) ∧ ((s.dev.cord c).owed = false) ∧ ((s.dev.cord c).replay = []) ∧ (c.isLight = false) ∧ ((s.dev.cord c).retest = false)) ∧
    (∃ (c : CordId) (s : State), (s.dev.cordState c = 1)) ∧
    (∃ (c : CordId) (flit : CordFlit) (s : State), (s.dev.cordUp c = true) ∧ (s.dev.mode ≠ .ember) ∧ ((s.dev.cord c).maySend flit = true) ∧ (flit.seq.val = ((s.dev.cord c).send flit).expect)) ∧
    (∃ (c : CordId) (flit : CordFlit) (s : State), (s.dev.cordUp c = true) ∧ (s.dev.mode ≠ .ember) ∧ ((s.dev.cord c).maySend flit = true)) ∧
    (∃ (c : CordId) (s : State), (s.dev.cordUp c = true) ∧ (s.dev.mode ≠ .ember)) ∧
    (∃ (c : CordId) (vc : Fin 4) (n : Fin 32) (s : State), (s.dev.cordUp c = true) ∧ (s.dev.mode ≠ .ember) ∧ ((n.val + 32 - (s.dev.cord c).counted.getD vc 0) % 32 ≤ (s.dev.cord c).outst.getD vc 0)) ∧
    (∃ (c : CordId) (vc : Fin 4) (n : Fin 32) (s : State), (s.dev.cordUp c = true) ∧ (s.dev.mode ≠ .ember) ∧ ((s.dev.cord c).outst.getD vc 0 < (n.val + 32 - (s.dev.cord c).counted.getD vc 0) % 32)) ∧
    (∃ (c : CordId) (s : State), (s.dev.cordUp c = true) ∧ ((s.dev.cord c).tries = 1)) ∧
    (∃ (c : CordId) (s : State), (s.dev.cordUp c = true) ∧ (1 < (s.dev.cord c).tries) ∧ ((s.dev.cord c).retested = false)) ∧
    (∃ (c : CordId) (s : State), (s.dev.cordUp c = true) ∧ (c.isLight = false) ∧ ((s.dev.cord c).bad.contains 70 = false) ∧ ((s.dev.cord c).bad.contains 71 = false)) ∧
    (∃ (c : CordId) (w : Fin 72) (s : State), (s.dev.cordUp c = true) ∧ ((s.dev.cord c).test = none) ∧ (w.val < 70) ∧ ((s.dev.spareMapOf c).any (fun p => decide (p.2 = w.val)) = false)) ∧
    (∃ (c : CordId) (sp : _) (w : Nat) (s : State), ((s.dev.cord c).test = some (sp, w)) ∧ ((s.dev.cord c).waitW = [])) :=
  ⟨⟨.cord 0, st (up), by decide +kernel⟩,
   ⟨.cord 0, st (dv [(F.CRD_CORD_STAT_state, Ix.at 0, 1)] (up)), by decide +kernel⟩,
   ⟨.cord 0, { seq := 0, vc := 0, tail := false, pkt := 0, twin := false }, st (cd), by decide +kernel⟩,
   ⟨.cord 0, { seq := 0, vc := 0, tail := false, pkt := 0, twin := false }, st (cd), by decide +kernel⟩,
   ⟨.cord 0, st (cd), by decide +kernel⟩,
   ⟨.cord 0, 0, 0, st (cd), by decide +kernel⟩,
   ⟨.cord 0, 0, 1, st (cd), by decide +kernel⟩,
   ⟨.cord 0, st (dv [(F.CRD_CORD_STAT_state, Ix.at 0, 2)] (cst { CordSt.fresh with tries := 1 })), by decide +kernel⟩,
   ⟨.cord 0, st (dv [(F.CRD_CORD_STAT_state, Ix.at 0, 2)] (cst { CordSt.fresh with tries := 2 })), by decide +kernel⟩,
   ⟨.cord 0, st (cd), by decide +kernel⟩,
   ⟨.cord 0, 69, st (cd), by decide +kernel⟩,
   ⟨.cord 0, 70, 0, st (cst { CordSt.fresh with test := some (70, 0) }), by decide +kernel⟩⟩

/-- States and operands that meet the hypotheses of `CordCommandsComplete`, part 2. -/
theorem test_hyps_CordCommandsComplete_2 :
    (∃ (c : CordId) (s : State), (s.dev.cordState c = 4) ∧ ((s.dev.cord c).test = none) ∧ ((s.dev.cord c).replay = []) ∧ ((s.dev.cord c).narrow = [])) ∧
    (∃ (c : CordId) (failed : List (Fin 70)) (s : State), (s.dev.cordUp c = true) ∧ (s.dev.narrowEn c = true) ∧ ((s.dev.restart c (failed.map (fun (w : Fin 70) => w.val)) true).cordState c = 3)) ∧
    (∃ (c : CordId) (failed : List (Fin 70)) (s : State), (s.dev.cordUp c = true) ∧ ((s.dev.restart c (failed.map (fun (w : Fin 70) => w.val)) false).cordState c = 2)) ∧
    (∃ (c : CordId) (s : State), (s.dev.cordUp c = true)) :=
  ⟨⟨.cord 0, st (dv [(F.CRD_CORD_STAT_state, Ix.at 0, 4)] (up)), by decide +kernel⟩,
   ⟨.cord 0, [], st (dv [(F.CRD_CFG_narrow_en, Ix.onDie 0, 1)] cd), by decide +kernel⟩,
   ⟨.cord 0, [], st (cd), by decide +kernel⟩,
   ⟨.cord 0, st (cd), by decide +kernel⟩⟩

/-- States and operands that meet the hypotheses of `LinkExchangeAndFarLinkComplete`. -/
theorem test_hyps_LinkExchangeAndFarLinkComplete :
    (∃ (c : CordId) (r : _) (s : State), (s.dev.inExchange (.cord c) = true) ∧ (capValid false r = true) ∧ ((Tbl.get CordSt.fresh s.dev.crd.cords (linkKey (.cord c))).recSeen = 0)) ∧
    (∃ (l : LinkId) (s : State), (s.dev.inExchange l = false)) ∧
    (∃ (l : LinkId) (s : State), (s.dev.inExchange l = true)) ∧
    (∃ (b : Fin 4) (g : Fin 2) (frame : FarFrame) (s : State), (s.dev.flag F.CRD_FAR_CFG_enable (Ix.on b g) = true) ∧ (2 ≤ s.dev.rd F.CRD_FAR_STAT_state (Ix.on b g)) ∧ (frame.crcOk = false)) ∧
    (∃ (b : Fin 4) (g : Fin 2) (frame : FarFrame) (s : State), (s.dev.flag F.CRD_FAR_CFG_enable (Ix.on b g) = true) ∧ (3 ≤ s.dev.rd F.CRD_FAR_STAT_state (Ix.on b g)) ∧ (frame.crcOk = true) ∧ (frame.kind = .idle)) ∧
    (∃ (b : Fin 4) (g : Fin 2) (l : Fin 4) (s : State), (3 ≤ s.dev.rd F.CRD_FAR_STAT_state (Ix.on b g)) ∧ (bits (s.dev.rd F.CRD_FAR_STAT_lanes_up (Ix.on b g)) l 1 = 1) ∧ (s.dev.rd F.CRD_FAR_STAT_lanes_up (Ix.on b g) ≠ 2 ^ l.val)) ∧
    (∃ (b : Fin 4) (g : Fin 2) (s : State), (3 ≤ s.dev.rd F.CRD_FAR_STAT_state (Ix.on b g))) :=
  ⟨⟨.cord 0, capR, st (dv [(F.CRD_CORD_STAT_state, Ix.at 0, 1)] (up)), by decide +kernel⟩,
   ⟨.cord (.cord 0), st (up), by decide +kernel⟩,
   ⟨.cord (.cord 0), st (dv [(F.CRD_CORD_STAT_state, Ix.at 0, 1)] (up)), by decide +kernel⟩,
   ⟨0, 0, { crcOk := false, kind := .idle, credit := none, nak := false, ack := 0 }, st (dv [(F.CRD_FAR_CFG_enable, (Ix.on (0 : Fin 4) (0 : Fin 2)), 1), (F.CRD_FAR_STAT_state, Ix.on 0 0, 2)] (up)), by decide +kernel⟩,
   ⟨0, 0, { crcOk := true, kind := .idle, credit := none, nak := false, ack := 0 }, st (dv [(F.CRD_FAR_CFG_enable, (Ix.on (0 : Fin 4) (0 : Fin 2)), 1), (F.CRD_FAR_STAT_state, Ix.on 0 0, 3)] (up)), by decide +kernel⟩,
   ⟨0, 0, 0, st (dv [(F.CRD_FAR_STAT_state, Ix.on 0 0, 3), (F.CRD_FAR_STAT_lanes_up, Ix.on 0 0, 15)] (up)), by decide +kernel⟩,
   ⟨0, 0, st (dv [(F.CRD_FAR_STAT_state, Ix.on 0 0, 3)] (up)), by decide +kernel⟩⟩

/-- States and operands that meet the hypotheses of `StreamSwitchCommandsComplete`, part 1. -/
theorem test_hyps_StreamSwitchCommandsComplete_1 :
    (∃ (g : Fin 4096) (y : _) (r : _) (s : State), (s.dev.streamsOpen = true) ∧ (s.dev.slotOn g = true) ∧ ((s.dev.slot g).srcQ = y :: r) ∧ (y.last = false)) ∧
    (∃ (g : Fin 4096) (s : State), (s.dev.streamsOpen = true) ∧ (s.dev.slotOn g = true) ∧ ((s.dev.slot g).srcQ = [])) ∧
    (∃ (s : State), (s.dev.mode ≠ .ember)) ∧
    (∃ (g : Fin 4096) (s : State), (s.dev.mode ≠ .ember) ∧ (s.dev.dieOff (s.dev.rd F.SSW_SLOT_CFG_sink_die (slotIx g)) = false)) ∧
    (∃ (g : Fin 4096) (s : State), (s.dev.slotOn g = true) ∧ (s.dev.twinned g = false) ∧ ((s.dev.mrg g).fresh = false) ∧ (s.dev.periodsPast g (s.dev.rd F.SSW_SLOT_TWIN_loss_units (slotIx g)) (s.dev.root - (s.dev.mrg g).lastAt) = true)) ∧
    (∃ (g : Fin 4096) (t : _) (s : State), ((s.dev.slot g).swapRel = some t) ∧ (s.dev.rd F.SSW_SLOT_STAT_prot (slotIx g) = 3) ∧ (s.dev.periodsPast g 64 (s.dev.root - t) = true)) ∧
    (∃ (f : Fin 12) (p : Fin 64) (s : State), (s.dev.flag F.SSW_FSRC_enable { die := f.val / 3, i := f.val % 3, j := p } = true) ∧ (s.dev.streamsOpen = true) ∧ (s.dev.dieOff (f.val / 3) = false) ∧ (s.dev.dieOff (4 + f.val) = false) ∧ (s.dev.fab.closedSp.any (fun e => decide (e.1 = f.val * 64 + p.val)) = false) ∧ (s.dev.slotOn (f.val / 3 * 1024 + s.dev.rd F.SSW_FSRC_slot { die := f.val / 3, i := f.val % 3, j := p }) = false)) ∧
    (∃ (f : Fin 12) (p : Fin 64) (s : State), (s.dev.flag F.SSW_FSRC_enable { die := f.val / 3, i := f.val % 3, j := p } = true) ∧ (s.dev.streamsOpen = true) ∧ (s.dev.dieOff (f.val / 3) = false) ∧ (s.dev.dieOff (4 + f.val) = false) ∧ (s.dev.fab.closedSp.any (fun e => decide (e.1 = f.val * 64 + p.val)) = false) ∧ (s.dev.slotOn (f.val / 3 * 1024 + s.dev.rd F.SSW_FSRC_slot { die := f.val / 3, i := f.val % 3, j := p }) = true) ∧ (s.dev.rd F.SSW_SLOT_CFG_src_type (slotIx (f.val / 3 * 1024 + s.dev.rd F.SSW_FSRC_slot { die := f.val / 3, i := f.val % 3, j := p })) = 2) ∧ (s.dev.rd F.SSW_SLOT_CFG_src_unit (slotIx (f.val / 3 * 1024 + s.dev.rd F.SSW_FSRC_slot { die := f.val / 3, i := f.val % 3, j := p })) = f.val % 3) ∧ (s.dev.rd F.SSW_SLOT_CFG_src_idx (slotIx (f.val / 3 * 1024 + s.dev.rd F.SSW_FSRC_slot { die := f.val / 3, i := f.val % 3, j := p })) = p.val)) ∧
    (∃ (k : Fin 256) (s : State), (s.dev.flag F.SSW_FS_CFG_enable (fsIx k) = true) ∧ (s.dev.streamsOpen = true) ∧ ((s.dev.fsOf k).done.contains ((s.dev.rd F.SSW_FS_STAT_r_slot (fsIx k) + 1) % s.dev.rd F.SSW_FS_CFG_depth (fsIx k)) = true)) ∧
    (∃ (k : Fin 256) (s : State), (s.dev.flag F.SSW_FS_CFG_enable (fsIx k) = true) ∧ (s.dev.streamsOpen = true) ∧ ((s.dev.fsOf k).done.contains ((s.dev.rd F.SSW_FS_STAT_r_slot (fsIx k) + 1) % s.dev.rd F.SSW_FS_CFG_depth (fsIx k)) = false)) ∧
    (∃ (g : Fin 4096) (u : Fin 8192) (s : State), (s.dev.slotOn g = true) ∧ (s.dev.rd F.SSW_SLOT_CFG_src_type (slotIx g) = 3) ∧ (s.dev.flag F.SSW_FS_CFG_enable (fsIx (s.dev.rd F.SSW_SLOT_CFG_fs (slotIx g))) = true) ∧ (s.dev.streamsOpen = true) ∧ (u.val < s.dev.rd F.SSW_SLOT_RATE_units (slotIx g)) ∧ (Tbl.get none s.dev.ssw.reads g = none)) ∧
    (∃ (g : Fin 4096) (r : _) (s : State), (Tbl.get none s.dev.ssw.reads g = some r) ∧ (r.again = true)) :=
  ⟨⟨0, frg, [], st (dv [(F.SSW_SLOT_CFG_enable, slotIx 0, 1)] ({ up with fab := { up.fab with step9 := true }, ssw := { up.ssw with slots := [(0, { SlotSt.fresh with srcQ := [frg] })] } })), by decide +kernel⟩,
   ⟨0, st (dv [(F.SSW_SLOT_CFG_enable, slotIx 0, 1)] ({ up with fab := { up.fab with step9 := true } })), by decide +kernel⟩,
   ⟨st (up), by decide +kernel⟩,
   ⟨0, st (up), by decide +kernel⟩,
   ⟨0, st (dv [(F.SSW_SLOT_CFG_enable, slotIx 0, 1)] ({ up with ssw := { up.ssw with merges := [(0, { MergeSt.start with fresh := false })] } })), by decide +kernel⟩,
   ⟨0, 0, st (dv [(F.SSW_SLOT_STAT_prot, (slotIx (0 : Fin 4096)), 3)] ({ up with ssw := { up.ssw with slots := [(0, { SlotSt.fresh with swapRel := some 0 })] } })), by decide +kernel⟩,
   ⟨0, 0, st (dv [(F.SSW_FSRC_enable, { die := (0 : Fin 12).val / 3, i := (0 : Fin 12).val % 3, j := (0 : Fin 64) }, 1)] ({ up with fab := { up.fab with step9 := true } })), by decide +kernel⟩,
   ⟨0, 0, st (dv [(F.SSW_FSRC_enable, { die := (0 : Fin 12).val / 3, i := (0 : Fin 12).val % 3, j := (0 : Fin 64) }, 1), (F.SSW_SLOT_CFG_enable, slotIx 0, 1), (F.SSW_SLOT_CFG_src_type, slotIx 0, 2)] ({ up with fab := { up.fab with step9 := true } })), by decide +kernel⟩,
   ⟨0, st (dv [(F.SSW_FS_CFG_enable, (fsIx (0 : Fin 256)), 1)] ({ up with fab := { up.fab with step9 := true }, ssw := { up.ssw with fs := [(0, { FsSt.fresh with done := [1] })] } })), by decide +kernel⟩,
   ⟨0, st (dv [(F.SSW_FS_CFG_enable, (fsIx (0 : Fin 256)), 1)] ({ up with fab := { up.fab with step9 := true } })), by decide +kernel⟩,
   ⟨0, 0, st (dv [(F.SSW_SLOT_CFG_src_type, (slotIx (0 : Fin 4096)), 3), (F.SSW_SLOT_CFG_enable, slotIx 0, 1), (F.SSW_FS_CFG_enable, fsIx 0, 1)] ({ up with fab := { up.fab with step9 := true } })), by decide +kernel⟩,
   ⟨0, { unit := 0, mirror := false, again := true, slot := 0, frame := 0 }, st ({ up with ssw := { up.ssw with reads := [(0, some { unit := 0, mirror := false, again := true, slot := 0, frame := 0 })] } }), by decide +kernel⟩⟩

/-- States and operands that meet the hypotheses of `StreamSwitchCommandsComplete`, part 2. -/
theorem test_hyps_StreamSwitchCommandsComplete_2 :
    (∃ (b : Fin 4) (c : Fin 9) (s : State), (bits (s.dev.rd F.SSW_STATUS_de_up (Ix.onDie b)) c 1 = 1) ∧ (c.val < 8) ∧ (s.dev.flag F.SSW_STATUS_spare_busy (Ix.onDie b) = false) ∧ (bits (s.dev.rd F.SSW_STATUS_de_up (Ix.onDie b)) 8 1 = 1)) :=
  ⟨0, 0, st (dv [(F.SSW_STATUS_spare_busy, (Ix.onDie (0 : Fin 4)), 0), (F.SSW_STATUS_de_up, Ix.onDie 0, 511)] (up)), by decide +kernel⟩

/-- States and operands that meet the hypotheses of `LaneCommandsComplete`. -/
theorem test_hyps_LaneCommandsComplete :
    (∃ (b : Fin 4) (l : Fin 32) (s : State), ((s.dev.st F.LN_STAT_sig_det (Ix.on b l) 1).laneIn b l 1)) ∧
    (∃ (b : Fin 4) (l : Fin 32) (s : State), (s.dev.laneIn b l 2)) ∧
    (∃ (b : Fin 4) (l : Fin 32) (s : State), (s.dev.laneIn b l 3)) ∧
    (∃ (b : Fin 4) (l : Fin 32) (s : State), (s.dev.laneIn b l 4) ∧ (s.dev.farLane b l = false)) ∧
    (∃ (b : Fin 4) (l : Fin 32) (s : State), (s.dev.laneIn b l 5)) ∧
    (∃ (b : Fin 4) (l : Fin 32) (st : _) (s : State), (s.dev.laneIn b l st) ∧ (2 ≤ st) ∧ (st ≤ 6) ∧ (s.dev.linkOf b l = none) ∧ ((((s.dev.st F.LN_STAT_err (Ix.on b l) (stateErr st (s.dev.lane b l).capErr)).bump F.LN_STAT_fails (Ix.on b l)).flag F.LN_STAT_retrain (Ix.on b l)) = true) ∧ ((((((s.dev.st F.LN_STAT_err (Ix.on b l) (stateErr st (s.dev.lane b l).capErr)).bump F.LN_STAT_fails (Ix.on b l)).setLane b l { s.dev.lane b l with waiting := true }).st F.LN_STAT_retrain (Ix.on b l) 0).linkOf b l) = none)) ∧
    (∃ (b : Fin 4) (l : Fin 32) (s : State), ((s.dev.lane b l).waiting = true)) ∧
    (∃ (b : Fin 4) (l : Fin 32) (ppb : _) (s : State), (s.dev.laneIn b l 4) ∧ (5000 < ppb)) ∧
    (∃ (b : Fin 4) (l : Fin 32) (s : State), (s.dev.rd F.LN_CFG_mode (Ix.on b l) = 3) ∧ (s.dev.mode ≠ .ember) ∧ (s.dev.mode ≠ .cold)) ∧
    (∃ (b : Fin 4) (n : Fin 6) (s : State), (s.dev.flag F.LN_NL_CFG_enable (Ix.on b n) = true) ∧ (s.dev.flag F.LN_NL_CFG_simplex (Ix.on b n) = true) ∧ ((s.dev.nl b n).phase = 0)) ∧
    (∃ (b : Fin 4) (l : Fin 32) (s : State), (s.dev.rd F.LN_CFG_mode (Ix.on b l) = 2) ∧ (s.dev.flag F.LN_CFG_tx_en (Ix.on b l) = true)) :=
  ⟨⟨0, 0, st (lan 1), by unfold Dev.laneIn; decide +kernel⟩,
   ⟨0, 0, st (lan 2), by unfold Dev.laneIn; decide +kernel⟩,
   ⟨0, 0, st (lan 3), by unfold Dev.laneIn; decide +kernel⟩,
   ⟨0, 0, st (lan 4), by unfold Dev.laneIn; decide +kernel⟩,
   ⟨0, 0, st (lan 5), by unfold Dev.laneIn; decide +kernel⟩,
   ⟨0, 0, 6, State.mk [] (dv [(F.LN_STAT_retrain, Ix.on 0 0, 1)] (lan 6)), by unfold Dev.laneIn; decide +kernel⟩,
   ⟨0, 0, st ({ up with ln := { up.ln with lanes := [(0, { LaneSt.fresh with waiting := true })] } }), by decide +kernel⟩,
   ⟨0, 0, 5001, st (lan 4), by unfold Dev.laneIn; decide +kernel⟩,
   ⟨0, 0, st (dv [(F.LN_CFG_mode, (Ix.on (0 : Fin 4) (0 : Fin 32)), 3)] (up)), by decide +kernel⟩,
   ⟨0, 0, st (dv [(F.LN_NL_CFG_enable, (Ix.on (0 : Fin 4) (0 : Fin 6)), 1), (F.LN_NL_CFG_simplex, (Ix.on (0 : Fin 4) (0 : Fin 6)), 1)] (up)), by decide +kernel⟩,
   ⟨0, 0, st (dv [(F.LN_CFG_mode, (Ix.on (0 : Fin 4) (0 : Fin 32)), 2), (F.LN_CFG_tx_en, (Ix.on (0 : Fin 4) (0 : Fin 32)), 1)] (up)), by decide +kernel⟩⟩

/-- States and operands that meet the hypotheses of `NativeLinkCommandsComplete`. -/
theorem test_hyps_NativeLinkCommandsComplete :
    (∃ (b : Fin 4) (l : Fin 32) (x : BilletIn) (s : State), (5 ≤ s.dev.lnState b l) ∧ (s.dev.lnState b l ≤ 7) ∧ ((s.dev.billetIn b l x).takesBillets b l = none)) ∧
    (∃ (b : Fin 4) (l : Fin 32) (n : _) (x : BilletIn) (s : State), (s.dev.inTurn b l n x)) ∧
    (∃ (b : Fin 4) (l : Fin 32) (n : _) (x : BilletIn) (s : State), (s.dev.takesBillets b l = some n) ∧ (x.checkOk = true) ∧ (x.seq.val ≠ ((s.dev.billetIn b l x).lane b l).rxSeq) ∧ ((s.dev.billetIn b l x).flag F.LN_NL_CFG_simplex (Ix.on b n) = false) ∧ ((s.dev.billetIn b l x).lnState b l = 7)) ∧
    (∃ (b : Fin 4) (l : Fin 32) (n : _) (x : BilletIn) (s : State), (s.dev.takesBillets b l = some n) ∧ (x.checkOk = true) ∧ ((s.dev.billetIn b l x).flag F.LN_NL_CFG_simplex (Ix.on b n) = false)) ∧
    (∃ (b : Fin 4) (l : Fin 32) (n : _) (x : BilletIn) (r : _) (s : State), (s.dev.linkOf b l = some n) ∧ ((s.dev.lnState b l = 6 ∨ s.dev.lnState b l = 7)) ∧ (s.dev.mode ≠ .ember) ∧ (x.checkOk = true) ∧ (nlCapValid r = false)) ∧
    (∃ (b : Fin 4) (l : Fin 32) (n : _) (x : BilletIn) (r : _) (s : State), (s.dev.linkOf b l = some n) ∧ (s.dev.lnState b l = 6) ∧ (s.dev.mode ≠ .ember) ∧ (x.checkOk = true) ∧ (nlCapValid r = true) ∧ ((s.dev.billetIn b l x).nlMismatch b n l r = false) ∧ (fieldAt r 0x1C 4 = 0) ∧ ((s.dev.billetIn b l x).lnState b l = 6) ∧ (((s.dev.billetIn b l x).lane b l).capRec.length = 0)) ∧
    (∃ (b : Fin 4) (l : Fin 32) (s : State), (s.dev.lnState b l = 7) ∧ (s.dev.farLane b l = false)) ∧
    (∃ (b : Fin 4) (n : Fin 6) (s : State), (s.dev.rd F.LN_NL_STAT_lanes_up (Ix.on b n) = 0)) :=
  ⟨⟨0, 0, bil, st (lan 5), by decide +kernel⟩,
   ⟨0, 0, 0, bil, st (lnk 7), by unfold Dev.inTurn; decide +kernel⟩,
   ⟨0, 0, 0, { bil with seq := 1 }, st (lnk 7), by decide +kernel⟩,
   ⟨0, 0, 0, bil, st (lnk 7), by decide +kernel⟩,
   ⟨0, 0, 0, bil, [], st (lnk 6), by decide +kernel⟩,
   ⟨0, 0, 0, bil, nlR, st (lnk 6), by refine ⟨?_, ?_, ?_, ?_, nlOk, ?_, ?_, ?_, ?_⟩ <;> decide +kernel⟩,
   ⟨0, 0, st (lnk 7), by decide +kernel⟩,
   ⟨0, 0, st (dv [(F.LN_NL_STAT_lanes_up, (Ix.on (0 : Fin 4) (0 : Fin 6)), 0)] (up)), by decide +kernel⟩⟩

/-- States and operands that meet the hypotheses of `MediaPortCommandsComplete`. -/
theorem test_hyps_MediaPortCommandsComplete :
    (∃ (b : Fin 4) (g : Fin 6) (c : Fin 8) (x : SdiLine) (s : State), (s.dev.flag F.MP_SDI_CFG_enable (s.dev.sdiCfg b g c) = true) ∧ (s.dev.flag F.MP_SDI_CFG_dir (s.dev.sdiCfg b g c) = false) ∧ (s.dev.pgRuns b g = true) ∧ (x.trsOk = false)) ∧
    (∃ (b : Fin 4) (g : Fin 6) (c : Fin 8) (s : State), (s.dev.flag F.MP_SDI_CFG_enable (s.dev.sdiCfg b g c) = false)) ∧
    (∃ (b : Fin 4) (g : Fin 6) (c : Fin 8) (s : State), (s.dev.flag F.MP_SDI_STAT_locked (pgIx b g c) = true)) ∧
    (∃ (b : Fin 4) (g : Fin 6) (c : Fin 8) (s : State), (s.dev.flag F.MP_SDI_CFG_enable (pgIx b g c) = true) ∧ (s.dev.flag F.MP_SDI_CFG_dir (pgIx b g c) = true) ∧ (s.dev.pgRuns b g = true) ∧ (s.dev.txFlows b g 2 c = []) ∧ ((s.dev.sdi b g c).anc = []) ∧ (s.dev.lanesFenced = false)) ∧
    (∃ (b : Fin 4) (g : Fin 6) (c : Fin 8) (x : SdiLine) (s : State), (s.dev.flag F.MP_SDI_CFG_enable (s.dev.sdiCfg b g c) = true) ∧ (s.dev.flag F.MP_SDI_CFG_dir (s.dev.sdiCfg b g c) = false) ∧ (s.dev.pgRuns b g = true) ∧ (x.trsOk = true) ∧ (x.numOk = true) ∧ (x.crcOk = true) ∧ (s.dev.flag F.MP_SDI_STAT_locked (pgIx b g c) = true) ∧ (x.frameStart = false) ∧ (x.pid = none) ∧ (x.active = none) ∧ (x.anc = none)) ∧
    (∃ (b : Fin 4) (g : Fin 6) (m : Fin 4) (x : EthFrame) (s : State), (s.dev.flag F.MP_MAC_CFG_enable (pgIx b g m) = true) ∧ (s.dev.pgRuns b g = true) ∧ (x.fcsOk = false)) ∧
    (∃ (b : Fin 4) (g : Fin 6) (m : Fin 4) (x : EthFrame) (s : State), (s.dev.flag F.MP_MAC_CFG_enable (pgIx b g m) = true) ∧ (s.dev.pgRuns b g = true) ∧ (x.fcsOk = true) ∧ (x.size < 64)) ∧
    (∃ (b : Fin 4) (g : Fin 6) (m : Fin 4) (x : EthFrame) (s : State) (d' : _), (s.dev.flag F.MP_MAC_CFG_enable (pgIx b g m) = true) ∧ (s.dev.pgRuns b g = true) ∧ (x.fcsOk = true) ∧ (64 ≤ x.size) ∧ (x.size ≤ s.dev.rd F.MP_MAC_CFG_max_frame (pgIx b g m)) ∧ (x.tags ≤ 1) ∧ (s.dev.secIn b g m x = (true, d')) ∧ (x.kind = .other true)) ∧
    (∃ (b : Fin 4) (g : Fin 6) (i : Fin 64) (seq : BitVec 32) (s : State), ((s.dev.rxf b g i).asm.any (fun u => decide (u.seq = seq) && decide (u.since + s.dev.rd F.MP_RXF_CFG_asm_us (pgIx b g i) * 3200 ≤ s.dev.root)) = true)) ∧
    (∃ (b : Fin 4) (g : Fin 6) (i : Fin 64) (s : State), (s.dev.flag F.MP_RXF_CFG_enable (pgIx b g i) = true) ∧ (s.dev.flag F.MP_RXF_CFG_merge (pgIx b g i) = true) ∧ (s.dev.flag F.MP_RXF_STAT_leg_lost (pgIx b g i) = false) ∧ ((s.dev.rxf b g i).legB + 100 * msCycles ≤ s.dev.root)) ∧
    (∃ (b : Fin 4) (g : Fin 6) (i : Fin 64) (u : _) (seq : _) (s : State), (s.dev.flag F.MP_TXF_CFG_enable (pgIx b g i) = true) ∧ (3 ≤ s.dev.rd F.MP_TXF_CFG_type (pgIx b g i)) ∧ (s.dev.rd F.MP_TXF_CFG_type (pgIx b g i) ≠ 8) ∧ (s.dev.pgRuns b g = true) ∧ (s.dev.sinkUnits (pgSink b g i) = [u]) ∧ (u.seq = seq) ∧ (laterSeq seq u.seq = false)) ∧
    (∃ (b : Fin 4) (g : Fin 6) (i : Fin 64) (s : State), (s.dev.flag F.MP_TXF_CFG_enable (pgIx b g i) = true) ∧ (3 ≤ s.dev.rd F.MP_TXF_CFG_type (pgIx b g i)) ∧ (s.dev.rd F.MP_TXF_CFG_type (pgIx b g i) ≠ 8) ∧ (s.dev.pgRuns b g = true) ∧ (s.dev.sinkUnits (pgSink b g i) = [])) :=
  ⟨⟨0, 0, 0, { ln0 with trsOk := false }, st (dv [(F.MP_SDI_CFG_enable, pgIx 0 0 0, 1)] (opn)), by decide +kernel⟩,
   ⟨0, 0, 0, st (up), by decide +kernel⟩,
   ⟨0, 0, 0, st (dv [(F.MP_SDI_STAT_locked, (pgIx (0 : Fin 4) (0 : Fin 6) (0 : Fin 8)), 1)] (up)), by decide +kernel⟩,
   ⟨0, 0, 0, st (dv [(F.MP_SDI_CFG_enable, (pgIx (0 : Fin 4) (0 : Fin 6) (0 : Fin 8)), 1), (F.MP_SDI_CFG_dir, (pgIx (0 : Fin 4) (0 : Fin 6) (0 : Fin 8)), 1)] (opn)), by decide +kernel⟩,
   ⟨0, 0, 0, ln0, st (dv [(F.MP_SDI_STAT_locked, (pgIx (0 : Fin 4) (0 : Fin 6) (0 : Fin 8)), 1), (F.MP_SDI_CFG_enable, pgIx 0 0 0, 1)] (opn)), by decide +kernel⟩,
   ⟨0, 0, 0, { eth with fcsOk := false }, st (dv [(F.MP_MAC_CFG_enable, (pgIx (0 : Fin 4) (0 : Fin 6) (0 : Fin 4)), 1)] (opn)), by decide +kernel⟩,
   ⟨0, 0, 0, { eth with size := 63 }, st (dv [(F.MP_MAC_CFG_enable, (pgIx (0 : Fin 4) (0 : Fin 6) (0 : Fin 4)), 1)] (opn)), by decide +kernel⟩,
   ⟨0, 0, 0, eth, st mac, mac, by decide +kernel⟩,
   ⟨0, 0, 0, 0, st ({ up with mp := { up.mp with rx := [(0, { RxSt.fresh with asm := [{ seq := 0, line := 0, frame := 0, since := 0, parts := [] }] })] } }), by decide +kernel⟩,
   ⟨0, 0, 0, st (dv [(F.MP_RXF_CFG_enable, (pgIx (0 : Fin 4) (0 : Fin 6) (0 : Fin 64)), 1), (F.MP_RXF_CFG_merge, (pgIx (0 : Fin 4) (0 : Fin 6) (0 : Fin 64)), 1), (F.MP_RXF_STAT_leg_lost, (pgIx (0 : Fin 4) (0 : Fin 6) (0 : Fin 64)), 0)] ({ up with root := 100 * msCycles })), by decide +kernel⟩,
   ⟨0, 0, 0, su, su.seq, st (dv [(F.MP_TXF_CFG_enable, (pgIx (0 : Fin 4) (0 : Fin 6) (0 : Fin 64)), 1), (F.MP_TXF_CFG_type, (pgIx (0 : Fin 4) (0 : Fin 6) (0 : Fin 64)), 0), (F.MP_TXF_CFG_type, pgIx 0 0 0, 3)] ({ opn with ssw := { opn.ssw with sinks := [(0, [su])] } })), by decide +kernel⟩,
   ⟨0, 0, 0, st (dv [(F.MP_TXF_CFG_enable, (pgIx (0 : Fin 4) (0 : Fin 6) (0 : Fin 64)), 1), (F.MP_TXF_CFG_type, (pgIx (0 : Fin 4) (0 : Fin 6) (0 : Fin 64)), 0), (F.MP_TXF_CFG_type, pgIx 0 0 0, 3)] (opn)), by decide +kernel⟩⟩

/-- States and operands that meet the hypotheses of `QueryAndLogCommandsComplete`. -/
theorem test_hyps_QueryAndLogCommandsComplete :
    (∃ (c : HostCmd) (s : State), (s.dev.hostOpen c grpQUERY 1)) ∧
    (∃ (c : HostCmd) (s : State), (s.dev.hostOpen c grpQUERY 2)) ∧
    (∃ (c : HostCmd) (s : State), (s.dev.hostOpen c grpQUERY 3)) ∧
    (∃ (c : HostCmd) (s : State), (s.dev.hostOpen c grpQUERY 4)) ∧
    (∃ (c : HostCmd) (max : BitVec 32) (s : State) (r : _), (s.dev.hostOpen c grpLOG 1) ∧ (1 ≤ max.toNat) ∧ (max.toNat ≤ 256) ∧ ((((s.dev.taken c.fn).unread c.fn).take max.toNat).getLast? = some r)) ∧
    (∃ (c : HostCmd) (max : BitVec 32) (s : State), (s.dev.hostOpen c grpLOG 1) ∧ (1 ≤ max.toNat) ∧ (max.toNat ≤ 256) ∧ ((s.dev.taken c.fn).unread c.fn = [])) ∧
    (∃ (c : HostCmd) (vec : BitVec 32) (sev : BitVec 8) (s : State), (s.dev.hostOpen c grpLOG 2) ∧ (vec.toNat < 32) ∧ (sev.toNat ≤ 3)) ∧
    (∃ (c : HostCmd) (s : State), (s.dev.ringOpen c.fn = true)) ∧
    (∃ (fn : Fin 64) (s : State), (s.dev.clk.held = false) ∧ (s.dev.rd F.HRT_FN_STAT_type (Ix.at fn) ≠ 0) ∧ (s.dev.mode ≠ .ember)) ∧
    (∃ (fn : Fin 64) (s : State), (s.dev.clk.held = false) ∧ (s.dev.rd F.HRT_FN_STAT_type (Ix.at fn) ≠ 0) ∧ (s.dev.mode = .ember)) ∧
    (∃ (s : State), (s.dev.clk.held = false)) :=
  ⟨⟨hc, st (up), by unfold Dev.hostOpen; decide +kernel⟩,
   ⟨hc, st (up), by unfold Dev.hostOpen; decide +kernel⟩,
   ⟨hc, st (up), by unfold Dev.hostOpen; decide +kernel⟩,
   ⟨hc, st (up), by unfold Dev.hostOpen; decide +kernel⟩,
   ⟨hc, 1, st { up with flt := { up.flt with ring := [(0, some rec1)] } }, rec1, by unfold Dev.hostOpen; decide +kernel⟩,
   ⟨hc, 1, st (up), by unfold Dev.hostOpen; decide +kernel⟩,
   ⟨hc, 0, 0, st (up), by unfold Dev.hostOpen; decide +kernel⟩,
   ⟨hc, st (up), by decide +kernel⟩,
   ⟨0, st (dv [(F.HRT_FN_STAT_type, (Ix.at (0 : Fin 64)), 1)] (up)), by decide +kernel⟩,
   ⟨0, st (dv [(F.HRT_FN_STAT_type, (Ix.at (0 : Fin 64)), 1), (F.HRT_MODE_mode, {}, 6)] (up)), by decide +kernel⟩,
   ⟨st (up), by decide +kernel⟩⟩

/-- States and operands that meet the hypotheses of `EngineScalarInstructionsComplete`. -/
theorem test_hyps_EngineScalarInstructionsComplete :
    (∃ (e : Fin 1024) (z : State), (z.dev.engReady e)) :=
  ⟨0, st (egs), by unfold Dev.engReady; decide +kernel⟩

/-- States and operands that meet the hypotheses of `EngineImmediateAndFieldInstructionsComplete`. -/
theorem test_hyps_EngineImmediateAndFieldInstructionsComplete :
    (∃ (e : Fin 1024) (z : State), (z.dev.engReady e)) ∧
    (∃ (e : Fin 1024) (pos : Fin 32) (wm1 : Fin 32) (z : State), (z.dev.engReady e) ∧ (pos.val + (wm1.val + 1) ≤ 32)) ∧
    (∃ (e : Fin 1024) (pos : Fin 32) (wm1 : Fin 32) (z : State), (z.dev.engReady e) ∧ (32 < pos.val + (wm1.val + 1))) ∧
    (∃ (e : Fin 1024) (t : Fin 32) (z : State), (z.dev.engReady e) ∧ ((pwReg t (z.dev.engView e)).2 ≠ 0) ∧ ((pwReg t (z.dev.engView e)).1 + (pwReg t (z.dev.engView e)).2 ≤ 32)) :=
  ⟨⟨0, st (egs), by unfold Dev.engReady; decide +kernel⟩,
   ⟨0, 0, 0, st (egs), by unfold Dev.engReady; decide +kernel⟩,
   ⟨0, 31, 1, st (egs), by unfold Dev.engReady; decide +kernel⟩,
   ⟨0, 2, st (egs), by unfold Dev.engReady; decide +kernel⟩⟩

/-- States and operands that meet the hypotheses of `EngineVectorInstructionsComplete`. -/
theorem test_hyps_EngineVectorInstructionsComplete :
    (∃ (e : Fin 1024) (d : Fin 32) (s : Fin 32) (t : Fin 32) (z : State), (z.dev.engReady e) ∧ (vecOk d = true) ∧ (vecOk s = true) ∧ (vecOk t = true)) ∧
    (∃ (e : Fin 1024) (d : Fin 32) (s : Fin 32) (z : State), (z.dev.engReady e) ∧ (vecOk d = true) ∧ (vecOk s = true)) ∧
    (∃ (e : Fin 1024) (d : Fin 32) (z : State), (z.dev.engReady e) ∧ (vecOk d = false)) ∧
    (∃ (e : Fin 1024) (d : Fin 32) (s : Fin 32) (sh : Fin 32) (z : State), (z.dev.engReady e) ∧ (vecOk d = true) ∧ (vecOk s = true) ∧ (sh.val ≤ 15)) ∧
    (∃ (e : Fin 1024) (d : Fin 32) (s : Fin 32) (sh : Fin 32) (z : State), (z.dev.engReady e) ∧ (vecOk d = true) ∧ (vecOk s = true) ∧ (15 < sh.val)) ∧
    (∃ (e : Fin 1024) (s : Fin 32) (z : State), (z.dev.engReady e) ∧ (vecOk s = true)) ∧
    (∃ (e : Fin 1024) (m : MemOp) (z : State), (z.dev.engReady e) ∧ (∃ a y, (z.dev.engView e).opM m 8 = .ok (a, y))) ∧
    (∃ (e : Fin 1024) (z : State), (z.dev.engReady e)) ∧
    (∃ (e : Fin 1024) (sh : Fin 64) (z : State), (z.dev.engReady e) ∧ (sh.val ≤ 47)) :=
  ⟨⟨0, 2, 4, 6, st (egs), by unfold Dev.engReady; decide +kernel⟩,
   ⟨0, 2, 4, st (egs), by unfold Dev.engReady; decide +kernel⟩,
   ⟨0, 0, st (egs), by unfold Dev.engReady; decide +kernel⟩,
   ⟨0, 2, 4, 0, st (egs), by unfold Dev.engReady; decide +kernel⟩,
   ⟨0, 2, 4, 16, st (egs), by unfold Dev.engReady; decide +kernel⟩,
   ⟨0, 4, st (egs), by unfold Dev.engReady; decide +kernel⟩,
   ⟨0, mo, st (egs), by unfold Dev.engReady; exact ⟨(by decide +kernel), (okOf2 (by decide +kernel))⟩⟩,
   ⟨0, st (egs), by unfold Dev.engReady; decide +kernel⟩,
   ⟨0, 0, st (egs), by unfold Dev.engReady; decide +kernel⟩⟩

/-- States and operands that meet the hypotheses of `EngineAccumulateInstructionsComplete`. -/
theorem test_hyps_EngineAccumulateInstructionsComplete :
    (∃ (e : Fin 1024) (p : MacP) (z : State), (z.dev.engReady e) ∧ (∃ xa ya y, macAddrs (z.dev.engView e) p (macW p.bcx) (macW p.bcy) = .ok (xa, ya, y))) ∧
    (∃ (e : Fin 1024) (p : MacP) (z : State), (z.dev.engReady e) ∧ (∃ c, macAddrs (z.dev.engView e) p (macW p.bcx) (macW p.bcy) = .error c)) ∧
    (∃ (e : Fin 1024) (p : MacP) (xa : _) (ya : _) (y : _) (z : State), (z.dev.engReady e) ∧ (p.bcy = false) ∧ (p.mj.val ≠ 0) ∧ (macAddrs (z.dev.engView e) p (macW p.bcx) 2 = .ok (xa, ya, y)) ∧ ((z.dev.engView e).addrCheck p.j ((z.dev.engView e).circ p.j ya (-((z.dev.engView e).stepP p.j p.mj 2))) 2 = none) ∧ (bankY ((z.dev.engView e).circ p.j ya (-((z.dev.engView e).stepP p.j p.mj 2))) = true)) ∧
    (∃ (e : Fin 1024) (p : MacP) (z : State), (z.dev.engReady e) ∧ (p.mj.val = 0)) ∧
    (∃ (e : Fin 1024) (q : MacQ) (z : State), (z.dev.engReady e) ∧ (vecOk q.s = true) ∧ (vecOk q.t = true)) ∧
    (∃ (e : Fin 1024) (k : Fin 8) (am : Fin 4) (sh : Fin 64) (z : State), (z.dev.engReady e) ∧ (sh.val ≤ 47) ∧ (∃ p y, (z.dev.engView e).opP k am 8 = .ok (p, y))) ∧
    (∃ (e : Fin 1024) (g : Fin 32) (sh : Fin 64) (z : State), (z.dev.engReady e) ∧ (sh.val ≤ 47) ∧ (vecOk g = true)) ∧
    (∃ (e : Fin 1024) (z : State), (z.dev.engReady e)) ∧
    (∃ (e : Fin 1024) (g : Fin 32) (z : State), (z.dev.engReady e) ∧ (vecOk g = true)) ∧
    (∃ (e : Fin 1024) (g : Fin 32) (z : State), (z.dev.engReady e) ∧ (vecOk g = false)) :=
  ⟨⟨0, mp, st (egs), by unfold Dev.engReady; exact ⟨(by decide +kernel), (okOf3 (by decide +kernel))⟩⟩,
   ⟨0, { mp with j := 0 }, st (egs), by unfold Dev.engReady; exact ⟨(by decide +kernel), (errOf1 (by decide +kernel))⟩⟩,
   ⟨0, mp, 0, 32768, ((macAddrs (egs.engView 0) mp 8 2).toOption.getD (0, 0, es)).2.2, st (egs), by unfold Dev.engReady; decide +kernel⟩,
   ⟨0, { mp with mj := 0 }, st (egs), by unfold Dev.engReady; decide +kernel⟩,
   ⟨0, { mq with s := 2 }, st (egs), by unfold Dev.engReady; decide +kernel⟩,
   ⟨0, 0, 0, 0, st (egs), by unfold Dev.engReady; exact ⟨(by decide +kernel), (by decide +kernel), (okOf2 (by decide +kernel))⟩⟩,
   ⟨0, 2, 0, st (egs), by unfold Dev.engReady; decide +kernel⟩,
   ⟨0, st (egs), by unfold Dev.engReady; decide +kernel⟩,
   ⟨0, 2, st (egs), by unfold Dev.engReady; decide +kernel⟩,
   ⟨0, 0, st (egs), by unfold Dev.engReady; decide +kernel⟩⟩

/-- States and operands that meet the hypotheses of `EngineMemoryInstructionsComplete`. -/
theorem test_hyps_EngineMemoryInstructionsComplete :
    (∃ (e : Fin 1024) (m : MemOp) (z : State), (z.dev.engReady e) ∧ (∃ a y, (z.dev.engView e).opM m 2 = .ok (a, y))) ∧
    (∃ (e : Fin 1024) (m : MemOp) (z : State), (z.dev.engReady e) ∧ (∃ a y, (z.dev.engView e).opM m 4 = .ok (a, y))) ∧
    (∃ (e : Fin 1024) (g : Fin 32) (m : MemOp) (z : State), (z.dev.engReady e) ∧ (vecOk g = true) ∧ (∃ a y, (z.dev.engView e).opM m 8 = .ok (a, y))) ∧
    (∃ (e : Fin 1024) (z : State), (z.dev.engReady e)) ∧
    (∃ (e : Fin 1024) (m : MemOp) (z : State), (z.dev.engReady e) ∧ (∃ c, (z.dev.engView e).opM m 2 = .error c)) ∧
    (∃ (e : Fin 1024) (g : Fin 32) (i : Fin 64) (z : State), (z.dev.engReady e) ∧ (specialOk i ((z.dev.engView e).g g) = true)) ∧
    (∃ (e : Fin 1024) (g : Fin 32) (i : Fin 64) (z : State), (z.dev.engReady e) ∧ (specialOk i ((z.dev.engView e).g g) = false)) ∧
    (∃ (e : Fin 1024) (i : Fin 64) (z : State), (z.dev.engReady e) ∧ (∃ v, (z.dev.engView e).special e i = some v)) ∧
    (∃ (e : Fin 1024) (w : Fin 32) (t : Fin 32) (z : State), (z.dev.engReady e) ∧ (vecOk w = true) ∧ ((z.dev.engView e).g (w.val + 1) + (z.dev.engView e).g t < 32)) ∧
    (∃ (e : Fin 1024) (d : Fin 32) (r : Fin 32) (t : Fin 32) (z : State), (z.dev.engReady e) ∧ (vecOk r = true) ∧ (d.val ≠ r.val) ∧ (d.val ≠ r.val + 1) ∧ ((z.dev.engView e).g t ≤ (z.dev.engView e).g (r.val + 1)) ∧ ((z.dev.engView e).g (r.val + 1) ≤ 32)) :=
  ⟨⟨0, mo, st (egs), by unfold Dev.engReady; exact ⟨(by decide +kernel), (okOf2 (by decide +kernel))⟩⟩,
   ⟨0, mo, st (egs), by unfold Dev.engReady; exact ⟨(by decide +kernel), (okOf2 (by decide +kernel))⟩⟩,
   ⟨0, 2, mo, st (egs), by unfold Dev.engReady; exact ⟨(by decide +kernel), (by decide +kernel), (okOf2 (by decide +kernel))⟩⟩,
   ⟨0, st (egs), by unfold Dev.engReady; decide +kernel⟩,
   ⟨0, mo, st (eg1 EngSt.fresh), by unfold Dev.engReady; exact ⟨(by decide +kernel), (errOf1 (by decide +kernel))⟩⟩,
   ⟨0, 0, 0, st (egs), by unfold Dev.engReady; decide +kernel⟩,
   ⟨0, 0, 63, st (egs), by unfold Dev.engReady; decide +kernel⟩,
   ⟨0, 0, st (egs), by unfold Dev.engReady; exact ⟨(by decide +kernel), (someOf1 (by decide +kernel))⟩⟩,
   ⟨0, 4, 0, st (egs), by unfold Dev.engReady; decide +kernel⟩,
   ⟨0, 0, 4, 0, st (egs), by unfold Dev.engReady; decide +kernel⟩⟩

/-- States and operands that meet the hypotheses of `EngineFarInstructionsComplete`. -/
theorem test_hyps_EngineFarInstructionsComplete :
    (∃ (e : Fin 1024) (s : Fin 32) (k : Fin 8) (tag : Fin 8) (n : Fin 512) (z : State), (z.dev.engReady e) ∧ (vecOk s = true) ∧ ((z.dev.engView e).pair s < 2 ^ 63) ∧ ((z.dev.engView e).p k % 8 = 0) ∧ ((z.dev.engView e).pair s % 8 = 0) ∧ ((z.dev.engView e).inOne ((z.dev.engView e).p k) ((n.val + 1) * 8) = true) ∧ ((z.dev.engView e).tag tag ≠ tagBusy)) ∧
    (∃ (e : Fin 1024) (tag : Fin 8) (z : State), (z.dev.engReady e) ∧ ((z.dev.engView e).tag tag = tagBusy)) ∧
    (∃ (e : Fin 1024) (tag : Fin 8) (z : State), (z.dev.engReady e) ∧ ((z.dev.engView e).tag tag ≠ tagBusy)) ∧
    (∃ (e : Fin 1024) (s : Fin 32) (i : BitVec 16) (o : _) (z : State), (z.dev.engReady e) ∧ (llOffset ((z.dev.engView e).g s) (sgn 16 i.toNat) = .ok o) ∧ (((z.dev.engIssued e).packOf (e / 32)).bad.contains (o / 8) = false)) ∧
    (∃ (e : Fin 1024) (s : Fin 32) (i : BitVec 11) (o : _) (z : State), (z.dev.engReady e) ∧ (llOffset ((z.dev.engView e).g s) (sgn 11 i.toNat) = .ok o) ∧ ((z.dev.engView e).ll ≠ some (o / 64))) ∧
    (∃ (e : Fin 1024) (s : Fin 32) (i : BitVec 11) (o : _) (z : State), (z.dev.engReady e) ∧ (llOffset ((z.dev.engView e).g s) (sgn 11 i.toNat) = .ok o) ∧ ((z.dev.engView e).ll = some (o / 64))) ∧
    (∃ (e : Fin 1024) (i : Fin 64) (s : Fin 32) (tag : Fin 8) (seq : _) (kind : _) (line : _) (frame : _) (data : _) (g : _) (z : State), (z.dev.engReady e) ∧ ((z.dev.engView e).tag tag ≠ tagBusy) ∧ ((z.dev.engView e).g s < 16384) ∧ (((z.dev.engIssued e).packOf (e / 32)).unitAt ((z.dev.engView e).g s) = some (seq, kind, line, frame, data)) ∧ ((z.dev.engIssued e).slotsFrom (e / 256) 1 (e / 32 % 8) i = [g]) ∧ (((z.dev.engIssued e).sourceUnit g (BitVec.ofNat 32 seq) kind line frame data).engState e = 1)) ∧
    (∃ (e : Fin 1024) (k : Fin 32) (z : State), (z.dev.engReady e) ∧ (bits ((z.dev.engIssued e).rd F.PK_STIM_stim_en { die := e / 256, u := e / 32 % 8 }) k 1 = 1) ∧ (((z.dev.engIssued e).packOf (e / 32)).stim.length < 64)) ∧
    (∃ (e : Fin 1024) (s : Fin 32) (z : State), (z.dev.engReady e) ∧ ((((z.dev.engIssued e).taskEnd e stOK 0 ((z.dev.engView e).g s % 2 ^ 16)).engLeave e (z.dev.engView e)).engState e = 0)) :=
  ⟨⟨0, 6, 0, 0, 0, st (egs), by unfold Dev.engReady; decide +kernel⟩,
   ⟨0, 0, st (eg1 { es with xq := [(0, 1)] }), by unfold Dev.engReady; decide +kernel⟩,
   ⟨0, 0, st (egs), by unfold Dev.engReady; decide +kernel⟩,
   ⟨0, 0, 0, 0, st (egs), by unfold Dev.engReady; decide +kernel⟩,
   ⟨0, 0, 0, 0, st (egs), by unfold Dev.engReady; decide +kernel⟩,
   ⟨0, 0, 0, 0, st (eg1 { es with ll := some 0 }), by unfold Dev.engReady; decide +kernel⟩,
   ⟨0, 0, 0, 0, 0, 0, 0, 0, [0], 7, st (dv [(F.SSW_SLOT_CFG_enable, slotIx 7, 1), (F.SSW_SLOT_CFG_src_type, slotIx 7, 1)] { egs with en := { egs.en with pack := [(0, { PackSt.fresh with pm := [(16, 1)] })] } }), by unfold Dev.engReady; decide +kernel⟩,
   ⟨0, 0, st (dv [(F.PK_STIM_stim_en, { die := 0, u := 0 }, 1)] egs), by unfold Dev.engReady; decide +kernel⟩,
   ⟨0, 0, st (run1 tsk egs), by unfold Dev.engReady; decide +kernel⟩⟩

/-- States and operands that meet the hypotheses of `EngineControlInstructionsComplete`. -/
theorem test_hyps_EngineControlInstructionsComplete :
    (∃ (e : Fin 1024) (c : Fin 16) (z : State), (z.dev.engReady e) ∧ (∃ taken, (z.dev.engView e).cond c = some taken)) ∧
    (∃ (e : Fin 1024) (c : Fin 16) (z : State), (z.dev.engReady e) ∧ (13 ≤ c.val)) ∧
    (∃ (e : Fin 1024) (z : State), (z.dev.engReady e)) ∧
    (∃ (e : Fin 1024) (s : Fin 32) (z : State), (z.dev.engReady e) ∧ ((z.dev.engView e).gB s % 4 = 0) ∧ ((z.dev.engView e).gB s < 2 ^ 18)) ∧
    (∃ (e : Fin 1024) (s : Fin 32) (z : State), (z.dev.engReady e) ∧ ((z.dev.engView e).gB s % 4 ≠ 0)) ∧
    (∃ (e : Fin 1024) (z : State), (z.dev.engReady e) ∧ ((z.dev.engView e).rd .late locIH ≠ 0)) ∧
    (∃ (e : Fin 1024) (z : State), (z.dev.engReady e) ∧ ((z.dev.engView e).rd .late locIH = 0)) ∧
    (∃ (e : Fin 1024) (s : Fin 32) (z : State), (z.dev.engReady e) ∧ ((z.dev.engView e).g s ≠ 0) ∧ ((z.dev.engView e).g s ≤ 1024)) ∧
    (∃ (e : Fin 1024) (len : Fin 1024) (count : Fin 2048) (z : State), (z.dev.engReady e) ∧ (count.val ≤ 1024) ∧ ((z.dev.engView e).active 0 = false) ∧ ((z.dev.engView e).inBlock = false) ∧ ((z.dev.engView e).pc + 4 * (len.val + 1) < 2 ^ 18)) ∧
    (∃ (e : Fin 1024) (len : Fin 1024) (s : Fin 32) (z : State), (z.dev.engReady e) ∧ ((z.dev.engView e).g s ≤ 1024) ∧ ((z.dev.engView e).active 0 = false) ∧ ((z.dev.engView e).inBlock = false) ∧ ((z.dev.engView e).pc + 4 * (len.val + 1) < 2 ^ 18)) ∧
    (∃ (e : Fin 1024) (w : BitVec 32) (z : State), (z.dev.engReady e) ∧ (wordOp w.toNat = none)) :=
  ⟨⟨0, 0, st (egs), by unfold Dev.engReady; exact ⟨(by decide +kernel), (someOf1 (by decide +kernel))⟩⟩,
   ⟨0, 13, st (egs), by unfold Dev.engReady; decide +kernel⟩,
   ⟨0, st (egs), by unfold Dev.engReady; decide +kernel⟩,
   ⟨0, 0, st (egs), by unfold Dev.engReady; decide +kernel⟩,
   ⟨0, 4, st (egs), by unfold Dev.engReady; decide +kernel⟩,
   ⟨0, st (eg1 { es with regs := [(135, 1)] }), by unfold Dev.engReady; decide +kernel⟩,
   ⟨0, st (egs), by unfold Dev.engReady; decide +kernel⟩,
   ⟨0, 4, st (egs), by unfold Dev.engReady; decide +kernel⟩,
   ⟨0, 0, 0, st (egs), by unfold Dev.engReady; decide +kernel⟩,
   ⟨0, 0, 0, st (egs), by unfold Dev.engReady; decide +kernel⟩,
   ⟨0, 0, st (egs), by unfold Dev.engReady; decide +kernel⟩⟩

/-- States and operands that meet the hypotheses of `EngineEventsComplete`. -/
theorem test_hyps_EngineEventsComplete :
    (∃ (e : Fin 1024) (s : State), (s.dev.engState e = 1) ∧ (s.dev.mode.engines = true) ∧ (s.dev.flag F.PK_ENG_STAT_stream_pending (engIx e) = true) ∧ ((s.dev.eng e).acceptance = true) ∧ ((s.dev.eng e).rd .late locIE ≠ 0) ∧ (s.dev.urgent e = false)) ∧
    (∃ (e : Fin 1024) (s : State), (s.dev.urgent e = true) ∧ ((s.dev.eng e).ll.isSome = true)) ∧
    (∃ (e : Fin 1024) (t : _) (t' : _) (d' : _) (s : State), (s.dev.engState e = 1) ∧ (s.dev.mode.engines = true) ∧ (s.dev.flag F.PK_ENG_STAT_preempt_pending (engIx e) = true) ∧ ((s.dev.eng e).acceptance = true) ∧ ((s.dev.eng e).ll = none) ∧ ((s.dev.eng e).debug = false) ∧ (s.dev.taskOn e = some t) ∧ (s.dev.clockTask e t = (t', d'))) ∧
    (∃ (e : Fin 1024) (t : _) (k : _) (c : Task) (s : State), (s.dev.taskOn e = some t) ∧ (t.phase = .saving) ∧ (t.slot = some k) ∧ ((s.dev.eng e).busy = false) ∧ (s.dev.engState e = 2) ∧ ((s.dev.contextSaved e t k).claimant e = some c) ∧ (((s.dev.contextSaved e t k).engLeave e (s.dev.eng e)).engFree e = true)) ∧
    (∃ (e : Fin 1024) (t : _) (k : _) (s : State), (s.dev.taskOn e = some t) ∧ (t.phase = .saving) ∧ (t.slot = some k) ∧ ((s.dev.eng e).busy = false) ∧ (s.dev.engState e = 2) ∧ ((s.dev.contextSaved e t k).claimant e = none)) ∧
    (∃ (e : Fin 1024) (t : _) (k : _) (s : State), (s.dev.taskOn e = some t) ∧ (t.phase = .restoring) ∧ (t.slot = some k) ∧ (s.dev.engState e = 2)) ∧
    (∃ (e : Fin 1024) (t : _) (t' : _) (d' : _) (s : State), (s.dev.engState e = 1) ∧ ((s.dev.eng e).debug = true) ∧ ((s.dev.eng e).acceptance = true) ∧ ((s.dev.eng e).ll = none) ∧ (s.dev.taskOn e = some t) ∧ (s.dev.clockTask e t = (t', d'))) ∧
    (∃ (e : Fin 1024) (s : State), (s.dev.engState e ≠ 4) ∧ (s.dev.engState e ≠ 6) ∧ (s.dev.dieOff (engIx e).die = false)) ∧
    (∃ (p : Fin 32) (i : Fin 64) (u : _) (r : _) (f : _) (l : _) (s : State), (s.dev.packUp p = true) ∧ (s.dev.mode ≠ .ember) ∧ (s.dev.mode ≠ .cold) ∧ (s.dev.sinkUnits (4096 + p / 8 * 512 + p % 8 * 64 + i) = u :: r) ∧ (u.frags = f :: l) ∧ (let a : Ix := { die := p / 8, u := p % 8, i := i }; s.dev.flag F.PK_SRX_CFG_enable a = true) ∧ (let a : Ix := { die := p / 8, u := p % 8, i := i }; let base := s.dev.rd F.PK_SRX_CFG_base a * 64; let n := s.dev.rd F.PK_SRX_CFG_entries a; let prod := s.dev.rd F.PK_SRX_STAT_produced a; (prod + 2 ^ 32 - (s.dev.packOf p).load (base + 8) 4) % 2 ^ 32 < n) ∧ (let a : Ix := { die := p / 8, u := p % 8, i := i }; let lines := s.dev.rd F.PK_SRX_CFG_entry_lines a; u.data.length ≤ (lines - 1) * 64)) ∧
    (∃ (p : Fin 32) (s : State), (s.dev.packUp p = true) ∧ (s.dev.flag F.PK_CFG_pm_scrub { die := p / 8, u := p % 8 } = true)) :=
  ⟨⟨0, st (dv [(F.PK_ENG_STAT_stream_pending, engIx 0, 1)] (eg1 { es with regs := [(134, 1)] })), by decide +kernel⟩,
   ⟨0, st (dv [(F.PK_ENG_STAT_preempt_pending, engIx 0, 1)] (eg1 { es with ll := some 0 })), by decide +kernel⟩,
   ⟨0, tsk, ((dv [(F.PK_ENG_STAT_preempt_pending, engIx 0, 1)] (run1 tsk egs)).clockTask 0 tsk).1, ((dv [(F.PK_ENG_STAT_preempt_pending, engIx 0, 1)] (run1 tsk egs)).clockTask 0 tsk).2, st (dv [(F.PK_ENG_STAT_preempt_pending, engIx 0, 1)] (run1 tsk egs)), by decide +kernel⟩,
   ⟨0, { tsk with phase := .saving, slot := some 0 }, 0, { tsk with id := 5 }, st (dv [(F.PK_CFG_accept, engIx 0, 1), (F.PK_ENG_STAT_state, engIx 0, 2)] { (run1 { tsk with phase := .saving, slot := some 0 } egs) with ken := { (run1 { tsk with phase := .saving, slot := some 0 } egs).ken with pre := [(0, some 5)], ready := [(1, [{ tsk with id := 5 }])] } }), by decide +kernel⟩,
   ⟨0, { tsk with phase := .saving, slot := some 0 }, 0, st (dv [(F.PK_ENG_STAT_state, engIx 0, 2)] (run1 { tsk with phase := .saving, slot := some 0 } egs)), by decide +kernel⟩,
   ⟨0, { tsk with phase := .restoring, slot := some 0 }, 0, st (dv [(F.PK_ENG_STAT_state, engIx 0, 2)] (run1 { tsk with phase := .restoring, slot := some 0 } egs)), by decide +kernel⟩,
   ⟨0, tsk, ((run1 tsk (eg1 { es with debug := true })).clockTask 0 tsk).1, ((run1 tsk (eg1 { es with debug := true })).clockTask 0 tsk).2, st (run1 tsk (eg1 { es with debug := true })), by decide +kernel⟩,
   ⟨0, st (egs), by decide +kernel⟩,
   ⟨0, 0, su, [], frg, [], st (dv [(F.PK_SRX_CFG_enable, { die := 0, u := 0, i := 0 }, 1), (F.PK_SRX_CFG_entries, { die := 0, u := 0, i := 0 }, 4), (F.PK_SRX_CFG_entry_lines, { die := 0, u := 0, i := 0 }, 2)] { up with ssw := { up.ssw with sinks := [(4096, [su])] } }), by decide +kernel⟩,
   ⟨0, st (dv [(F.PK_CFG_pm_scrub, { die := (0 : Fin 32) / 8, u := (0 : Fin 32) % 8 }, 1)] (egs)), by decide +kernel⟩⟩

/-- States and operands that meet the hypotheses of `KennelAcceptanceAndReleaseComplete`. -/
theorem test_hyps_KennelAcceptanceAndReleaseComplete :
    (∃ (q : Fin 8192) (l : _) (d' : _) (s : State), (s.dev.kenRuns (q / 2048) = true) ∧ (s.dev.flag F.KEN_QCFG_enable (qIx q) = true) ∧ (s.dev.flag F.KEN_QCFG_tmpl (qIx q) = false) ∧ (s.dev.rd F.KEN_QPTR_head (qIx q) ≠ s.dev.rd F.KEN_QDB_total (qIx q)) ∧ (s.dev.tokenLeft q = true) ∧ (s.dev.ringSlot q (s.dev.rd F.KEN_QPTR_head (qIx q)) = (some l, d')) ∧ ((d'.addWrap F.KEN_QPTR_head (qIx q)).descFault q l false = none) ∧ ((Desc.parse l).delay = 0) ∧ ((Desc.parse l).period = 0)) ∧
    (∃ (q : Fin 8192) (l : _) (d' : _) (s : State), (s.dev.kenRuns (q / 2048) = true) ∧ (s.dev.flag F.KEN_QCFG_enable (qIx q) = true) ∧ (s.dev.flag F.KEN_QCFG_tmpl (qIx q) = false) ∧ (s.dev.rd F.KEN_QPTR_head (qIx q) ≠ s.dev.rd F.KEN_QDB_total (qIx q)) ∧ (s.dev.tokenLeft q = true) ∧ (s.dev.ringSlot q (s.dev.rd F.KEN_QPTR_head (qIx q)) = (some l, d')) ∧ ((d'.addWrap F.KEN_QPTR_head (qIx q)).descFault q l false = none) ∧ (¬ ((Desc.parse l).delay = 0 ∧ (Desc.parse l).period = 0))) ∧
    (∃ (q : Fin 8192) (l : _) (d' : _) (code : _) (s : State), (s.dev.kenRuns (q / 2048) = true) ∧ (s.dev.flag F.KEN_QCFG_enable (qIx q) = true) ∧ (s.dev.flag F.KEN_QCFG_tmpl (qIx q) = false) ∧ (s.dev.rd F.KEN_QPTR_head (qIx q) ≠ s.dev.rd F.KEN_QDB_total (qIx q)) ∧ (s.dev.tokenLeft q = true) ∧ (s.dev.ringSlot q (s.dev.rd F.KEN_QPTR_head (qIx q)) = (some l, d')) ∧ ((d'.addWrap F.KEN_QPTR_head (qIx q)).descFault q l false = some code)) ∧
    (∃ (q : Fin 8192) (l : _) (d' : _) (s : State), (s.dev.kenRuns (q / 2048) = true) ∧ (s.dev.flag F.KEN_QCFG_enable (qIx q) = true) ∧ (s.dev.flag F.KEN_QCFG_tmpl (qIx q) = false) ∧ (s.dev.rd F.KEN_QPTR_head (qIx q) ≠ s.dev.rd F.KEN_QDB_total (qIx q)) ∧ (s.dev.tokenLeft q = true) ∧ (s.dev.ringSlot q (s.dev.rd F.KEN_QPTR_head (qIx q)) = (some l, d'))) ∧
    (∃ (q : Fin 8192) (t : _) (s : State), (s.dev.kenRuns (q / 2048) = true) ∧ (s.dev.flag F.KEN_QCFG_enable (qIx q) = true) ∧ (s.dev.flag F.KEN_QCFG_tmpl (qIx q) = true) ∧ (s.dev.tmplOf q = some t) ∧ (s.dev.tokenLeft q = true)) ∧
    (∃ (q : Fin 8192) (t : _) (s : State), (s.dev.kenRuns (q / 2048) = true) ∧ (s.dev.flag F.KEN_QCFG_enable (qIx q) = true) ∧ (s.dev.flag F.KEN_QCFG_tmpl (qIx q) = true) ∧ (s.dev.tmplOf q = some t) ∧ (s.dev.tokenLeft q = false)) ∧
    (∃ (b : Fin 4) (t : Fin 4) (s : State), (s.dev.rd F.KEN_TICK_mode (Ix.on b t) ≠ 0) ∧ (s.dev.mode ≠ .ember) ∧ (s.dev.kenRuns b = true)) ∧
    (∃ (q : Fin 8192) (s : State), (s.dev.dieOff (q / 2048) = false)) :=
  ⟨⟨0, (((kn [(34, 1)]).ringSlot 0 0).1.getD []), ((kn [(34, 1)]).ringSlot 0 0).2, st (kn [(34, 1)]), by decide +kernel⟩,
   ⟨0, (((kn [(28, 1), (34, 1)]).ringSlot 0 0).1.getD []), ((kn [(28, 1), (34, 1)]).ringSlot 0 0).2, st (kn [(28, 1), (34, 1)]), by decide +kernel⟩,
   ⟨0, (((kn []).ringSlot 0 0).1.getD []), ((kn []).ringSlot 0 0).2, 3, st (kn []), by decide +kernel⟩,
   ⟨0, (((kn []).ringSlot 0 0).1.getD []), ((kn []).ringSlot 0 0).2, st (kn []), by decide +kernel⟩,
   ⟨0, tmp1, st (dv [(F.KEN_QCFG_tmpl, qIx 0, 1)] { (kn []) with ken := { (kn []).ken with tmpl := [(0, some tmp1)] } }), by decide +kernel⟩,
   ⟨0, tmp1, st (dv [(F.KEN_QCFG_tmpl, qIx 0, 1)] { (kn []) with ken := { (kn []).ken with tmpl := [(0, some tmp1)] }, led := { (kn []).led with out := [(ledKey 0 3 0, 16)] } }), by decide +kernel⟩,
   ⟨0, 0, st (dv [(F.KEN_TICK_mode, (Ix.on (0 : Fin 4) (0 : Fin 4)), 1)] (opn)), by decide +kernel⟩,
   ⟨0, st (up), by decide +kernel⟩⟩

/-- States and operands that meet the hypotheses of `KennelDecisionsComplete`. -/
theorem test_hyps_KennelDecisionsComplete :
    (∃ (b : Fin 4) (h : Fin 8) (e : _) (r : _) (t : _) (s : State), (s.dev.kenRuns b = true) ∧ (s.dev.laneServes b h = true) ∧ (s.dev.freeOf (8 * b.val + h.val) = e :: r) ∧ ((e :: r).findSome? (fun e => (s.dev.claimant e).map (fun t => (e, t))) = none) ∧ (s.dev.heldReady (8 * b.val + h.val) = none) ∧ (s.dev.firstOf (8 * b.val + h.val) (s.dev.offers (8 * b.val + h.val) (fun t => !t.held)) = some t) ∧ (t.aff = none)) ∧
    (∃ (b : Fin 4) (h : Fin 8) (e : _) (e' : _) (r : _) (t : _) (s : State), (s.dev.kenRuns b = true) ∧ (s.dev.laneServes b h = true) ∧ (s.dev.freeOf (8 * b.val + h.val) = e :: r) ∧ ((e :: r).findSome? (fun e => (s.dev.claimant e).map (fun t => (e, t))) = none) ∧ (s.dev.heldReady (8 * b.val + h.val) = none) ∧ (s.dev.firstOf (8 * b.val + h.val) (s.dev.offers (8 * b.val + h.val) (fun t => !t.held)) = some t) ∧ (t.aff = some e') ∧ (e' / 32 = 8 * b.val + h.val) ∧ (s.dev.engFree e' = true)) ∧
    (∃ (b : Fin 4) (h : Fin 8) (e : Nat) (r : _) (t : _) (s : State), (s.dev.kenRuns b = true) ∧ (s.dev.laneServes b h = true) ∧ (s.dev.freeOf (8 * b.val + h.val) = e :: r) ∧ ((e :: r).findSome? (fun e => (s.dev.claimant e).map (fun t => (e, t))) = none) ∧ (s.dev.heldReady (8 * b.val + h.val) = none) ∧ (s.dev.firstOf (8 * b.val + h.val) (s.dev.offers (8 * b.val + h.val) (fun t => !t.held)) = none) ∧ ((s.dev.offers (8 * b.val + h.val) (fun t => t.held)).isEmpty = true) ∧ (s.dev.stealFrom b (stealOrder h) false = some t)) ∧
    (∃ (q : Fin 8192) (t : _) (e : _) (r : _) (s : State), (s.dev.kenRuns (q / 2048) = true) ∧ ((s.dev.queue q).find? (fun t => t.held) = some t) ∧ ((s.dev.setQueue q ((s.dev.queue q).map (fun x => if x.id = t.id then { t with held := false, aff := none } else x))).freeOf (8 * (q / 2048) + s.dev.rd F.KEN_QCFG_home (qIx q)) = e :: r)) ∧
    (∃ (b : Fin 4) (h : Fin 8) (e : _) (r : _) (t : _) (s : State), (s.dev.kenRuns b = true) ∧ (s.dev.laneServes b h = true) ∧ (s.dev.freeOf (8 * b.val + h.val) = e :: r) ∧ ((s.dev.offers (8 * b.val + h.val) (fun _ => true)).isEmpty = true) ∧ (s.dev.stealFrom b (stealOrder h) false = none) ∧ ([b.val ^^^ 1, b.val ^^^ 2, b.val ^^^ 3].findSome? (fun v => if s.dev.kenRuns v then s.dev.stealFrom v (h.val :: stealOrder h.val) true else none) = some t)) ∧
    (∃ (b : Fin 4) (h : Fin 8) (t : _) (e : _) (v : _) (k : _) (s : State), (s.dev.kenRuns b = true) ∧ (s.dev.laneServes b h = true) ∧ ((s.dev.freeOf (8 * b.val + h.val)).isEmpty = true) ∧ (s.dev.firstOf (8 * b.val + h.val) (s.dev.offers (8 * b.val + h.val) (fun t => !t.held && s.dev.flag F.KEN_QCFG_preemptor (qIx t.q) && !(s.dev.ken.pre.filterMap (fun e => e.2)).contains t.id)) = some t) ∧ (s.dev.victim (8 * b.val + h.val) (s.dev.prio t.q) = some (e, v, k))) ∧
    (∃ (e : Fin 1024) (t : _) (s : State), (s.dev.taskOn e = some t) ∧ (t.desc.wd ≠ 0) ∧ (t.budget = 0) ∧ (s.dev.engState e = 1) ∧ ((s.dev.eng e).acceptance = true) ∧ (s.dev.mode.engines = true)) :=
  ⟨⟨0, 0, 0, (kf.freeOf 0).tail, tsk, st (dv [(F.KEN_STATUS_lane_up, Ix.onDie 0, 511)] (kq [tsk] kf)), by decide +kernel⟩,
   ⟨0, 0, 0, 1, (kf.freeOf 0).tail, { tsk with aff := some 1 }, st (dv [(F.KEN_STATUS_lane_up, Ix.onDie 0, 511)] (kq [{ tsk with aff := some 1 }] kf)), by decide +kernel⟩,
   ⟨0, 0, 0, (kf.freeOf 0).tail, tsk, st (dv [(F.KEN_STATUS_lane_up, Ix.onDie 0, 511), (F.KEN_QCFG_home, qIx 0, 1), (F.KEN_QCFG_pinned, qIx 0, 0), (F.KEN_QCFG_steal_after, qIx 0, 0)] (kq [tsk] kf)), by decide +kernel⟩,
   ⟨0, { tsk with held := true, aff := some 1 }, 0, (kf.freeOf 0).tail, st (kq [{ tsk with held := true, aff := some 1 }] kf), by decide +kernel⟩,
   ⟨0, 0, 0, (kf.freeOf 0).tail, { tsk with q := 2048 }, st (dv [(F.KEN_STATUS_lane_up, Ix.onDie 0, 511), (F.KEN_QCFG_enable, qIx 2048, 1), (F.KEN_QCFG_pinned, qIx 2048, 0), (F.KEN_QCFG_steal_after, qIx 2048, 0), (F.KEN_QCFG_cross_die, qIx 2048, 1)] { kf with ken := { kf.ken with ready := [(2048, [{ tsk with q := 2048 }])] } }), by decide +kernel⟩,
   ⟨0, 0, tsk, 0, { tsk with id := 9, q := 1 }, 0, st (dv [(F.KEN_STATUS_lane_up, Ix.onDie 0, 511), (F.PK_CFG_accept, engIx 0, 0), (F.PK_ENG_STAT_state, engIx 0, 1), (F.KEN_SAVE_slots, Ix.on 0 0, 4), (F.KEN_SAVE_slot_lines, Ix.on 0 0, 8), (F.KEN_QCFG_preemptor, qIx 0, 1), (F.KEN_QCFG_preemptible, qIx 1, 1), (F.KEN_QCFG_prio, qIx 0, 1), (F.KEN_QCFG_prio, qIx 1, 3)] (run1 { tsk with id := 9, q := 1 } (kq [tsk] kf))), by decide +kernel⟩,
   ⟨0, { tsk with desc := { dsc with wd := 1 } }, st (run1 { tsk with desc := { dsc with wd := 1 } } egs), by decide +kernel⟩⟩

/-- States and operands that meet the hypotheses of `KennelCompletionsAndFailuresComplete`. -/
theorem test_hyps_KennelCompletionsAndFailuresComplete :
    (∃ (b : Fin 4) (r : Fin 256) (x : _) (rest : _) (s : State), (let a := Ix.on b r; s.dev.flag F.KEN_CR_CFG_enable a = true) ∧ (s.dev.dieOff b = false) ∧ (let a := Ix.on b r; let size := 2 ^ s.dev.rd F.KEN_CR_BASE_size_log2 a; let prod := s.dev.rd F.KEN_CR_PROD_prod a; (prod + 2 ^ 32 - s.dev.rd F.KEN_CR_CONS_cons a) % 2 ^ 32 < size) ∧ (s.dev.nextRec (Tbl.get [] s.dev.ken.waiting (b * 256 + r)) = some (x, rest)) ∧ (∃ w d', let a := Ix.on b r; let size := 2 ^ s.dev.rd F.KEN_CR_BASE_size_log2 a; let prod := s.dev.rd F.KEN_CR_PROD_prod a; ({ s.dev with ken := { s.dev.ken with waiting := s.dev.ken.waiting.set [] (b * 256 + r) rest } } : Dev).devWrite none (s.dev.rd F.KEN_CR_BASE_key_id a) (s.dev.rd F.KEN_CR_BASE_cr_base a + prod % size * 32) 32 (wordBytes (s.dev.rd F.KEN_CR_BASE_cr_base a + prod % size * 32) (x.words.map (BitVec.ofNat 64))) false = some (w, d'))) ∧
    (∃ (b : Fin 4) (h : Fin 8) (s : State), (let up := s.dev.rd F.KEN_STATUS_lane_up (Ix.onDie b); bits up h 1 = 1) ∧ (let up := s.dev.rd F.KEN_STATUS_lane_up (Ix.onDie b); bits up 8 1 = 1) ∧ (let up := s.dev.rd F.KEN_STATUS_lane_up (Ix.onDie b); (s.dev.st F.KEN_STATUS_lane_up (Ix.onDie b) (up - 2 ^ h.val)).flag F.KEN_STATUS_spare_busy (Ix.onDie b) = false)) ∧
    (∃ (q : Fin 8192) (t : _) (s : State), ((s.dev.queue q).find? (fun t => t.spilled) = some t)) ∧
    (∃ (b : Fin 4) (s : State), (s.dev.kenRuns b = true)) :=
  ⟨⟨0, 0, crec, [], st cr1, by exact ⟨(by decide +kernel), (by decide +kernel), (by decide +kernel), (by decide +kernel), (someOf2 (by decide +kernel))⟩⟩,
   ⟨0, 0, st (dv [(F.KEN_STATUS_lane_up, Ix.onDie 0, 511)] up), by decide +kernel⟩,
   ⟨0, { tsk with spilled := true }, st (kq [{ tsk with spilled := true }] up), by decide +kernel⟩,
   ⟨0, st (opn), by decide +kernel⟩⟩

/-- States and operands that meet the hypotheses of `StackEventsComplete`. -/
theorem test_hyps_StackEventsComplete :
    (∃ (k : Fin 8) (block : Nat) (s : State), (s.dev.stackUp k = true) ∧ (s.dev.flag F.HBM_CFG_patrol (ctlIx k) = true) ∧ (block * 64 < stackBytes)) ∧
    (∃ (k : Fin 8) (s : State), (s.dev.stackUp k = true) ∧ (s.dev.flag F.HBM_CFG_ppr_auto (ctlIx k) = true)) ∧
    (∃ (k : Fin 8) (pc : Fin 32) (s : State), (s.dev.stackUp k = true) ∧ (let o := s.dev.rd F.HBM_STATUS_pc_failed (ctlIx k); bits o pc 1 ≠ 1) ∧ (let o := s.dev.rd F.HBM_STATUS_pc_failed (ctlIx k); (s.dev.st F.HBM_STATUS_pc_failed (ctlIx k) (o + 2 ^ pc.val)).flag F.HBM_STATUS_spare_used (ctlIx k) = false)) ∧
    (∃ (k : Fin 8) (pc : Fin 32) (s : State), (s.dev.stackUp k = true) ∧ (let o := s.dev.rd F.HBM_STATUS_pc_failed (ctlIx k); bits o pc 1 ≠ 1) ∧ (let o := s.dev.rd F.HBM_STATUS_pc_failed (ctlIx k); (s.dev.st F.HBM_STATUS_pc_failed (ctlIx k) (o + 2 ^ pc.val)).flag F.HBM_STATUS_spare_used (ctlIx k) = true)) ∧
    (∃ (k : Fin 8) (s : State), (s.dev.flag F.HBM_STATUS_copying (ctlIx k) = true)) ∧
    (∃ (k : Fin 8) (s : State), (s.dev.rd F.HBM_STATUS_state (ctlIx k) ≠ 4)) ∧
    (∃ (k : Fin 8) (s : State), (s.dev.rd F.HBM_STATUS_state (ctlIx k) = 4)) ∧
    (∃ (k : Fin 8) (pipe : Fin 52) (i : _) (r : _) (s : State), (bits (s.dev.rd F.CRY_PIPE_up (ctlIx k)) pipe 1 ≠ 0) ∧ (s.dev.freePipes k = i :: r)) :=
  ⟨⟨0, 0, st (dv [(F.HBM_CFG_patrol, (ctlIx (0 : Fin 8)), 1), (F.HBM_STATUS_state, ctlIx 0, 2)] (up)), by decide +kernel⟩,
   ⟨0, st (dv [(F.HBM_CFG_ppr_auto, (ctlIx (0 : Fin 8)), 1), (F.HBM_STATUS_state, ctlIx 0, 2)] (up)), by decide +kernel⟩,
   ⟨0, 0, st (stk), by decide +kernel⟩,
   ⟨0, 0, st (dv [(F.HBM_STATUS_spare_used, ctlIx 0, 1)] stk), by decide +kernel⟩,
   ⟨0, st (dv [(F.HBM_STATUS_copying, (ctlIx (0 : Fin 8)), 1)] (up)), by decide +kernel⟩,
   ⟨0, st (dv [(F.HBM_STATUS_state, (ctlIx (0 : Fin 8)), 0)] (up)), by decide +kernel⟩,
   ⟨0, st (dv [(F.HBM_STATUS_state, (ctlIx (0 : Fin 8)), 4)] (up)), by decide +kernel⟩,
   ⟨0, 0, 51, [], st (dv [(F.CRY_PIPE_up, ctlIx 0, 2 ^ 51 - 1)] (up)), by decide +kernel⟩⟩

/-- States and operands that meet the hypotheses of `KeyCommandsComplete`. -/
theorem test_hyps_KeyCommandsComplete :
    (∃ (c : HostCmd) (key : BitVec 8) (level : BitVec 8) (src : KeySrc) (kcv : BitVec 32) (v : _) (d' : _) (s : State), (s.dev.hostOpen c grpKEY 1) ∧ (badKeyId key.toNat = false) ∧ (let D := s.dev.taken c.fn; D.keyInPart c.fn key.toNat = true) ∧ (1 ≤ level.toNat) ∧ (level.toNat ≤ 3) ∧ (let D := s.dev.taken c.fn; D.rd F.CRY_KEYSTATE_state (Ix.at key.toNat) = 0) ∧ (let D := s.dev.taken c.fn; D.takeKey c.fn src = (some v, d')) ∧ (checkValue v = kcv.toNat)) ∧
    (∃ (c : HostCmd) (key : BitVec 8) (level : BitVec 8) (src : KeySrc) (kcv : BitVec 32) (v : _) (d' : _) (s : State), (s.dev.hostOpen c grpKEY 1) ∧ (badKeyId key.toNat = false) ∧ (let D := s.dev.taken c.fn; D.keyInPart c.fn key.toNat = true) ∧ (1 ≤ level.toNat) ∧ (level.toNat ≤ 3) ∧ (let D := s.dev.taken c.fn; D.rd F.CRY_KEYSTATE_state (Ix.at key.toNat) = 3) ∧ (let D := s.dev.taken c.fn; D.takeKey c.fn src = (some v, d')) ∧ (checkValue v = kcv.toNat) ∧ (d'.rd F.CRY_KEYSTATE_kcv (Ix.at key.toNat) = kcv.toNat) ∧ (d'.rd F.CRY_KEYSTATE_level (Ix.at key.toNat) = level.toNat)) ∧
    (∃ (c : HostCmd) (key : BitVec 8) (level : BitVec 8) (src : KeySrc) (kcv : BitVec 32) (v : _) (d' : _) (s : State), (s.dev.hostOpen c grpKEY 1) ∧ (badKeyId key.toNat = false) ∧ (let D := s.dev.taken c.fn; D.keyInPart c.fn key.toNat = true) ∧ (1 ≤ level.toNat) ∧ (level.toNat ≤ 3) ∧ (let D := s.dev.taken c.fn; D.rd F.CRY_KEYSTATE_state (Ix.at key.toNat) = 0) ∧ (let D := s.dev.taken c.fn; D.takeKey c.fn src = (some v, d')) ∧ (checkValue v ≠ kcv.toNat)) ∧
    (∃ (c : HostCmd) (key : BitVec 8) (s : State), (s.dev.hostOpen c grpKEY 2) ∧ (badKeyId key.toNat = false) ∧ (let D := s.dev.taken c.fn; D.keyInPart c.fn key.toNat = true) ∧ (let D := s.dev.taken c.fn; D.rd F.CRY_KEYSTATE_state (Ix.at key.toNat) = 1) ∧ (let D := s.dev.taken c.fn; (D.keyLevel key.toNat = 3 → D.linkKeyInUse key.toNat = false))) ∧
    (∃ (c : HostCmd) (key : BitVec 8) (s : State), (s.dev.hostOpen c grpKEY 2) ∧ (badKeyId key.toNat = false) ∧ (let D := s.dev.taken c.fn; D.keyInPart c.fn key.toNat = true) ∧ (let D := s.dev.taken c.fn; D.rd F.CRY_KEYSTATE_state (Ix.at key.toNat) = 3) ∧ (let D := s.dev.taken c.fn; (D.keyLevel key.toNat = 3 → D.linkKeyInUse key.toNat = false))) ∧
    (∃ (key : Fin 128) (s : State), (s.dev.rd F.CRY_KEYSTATE_state (Ix.at key) = 2) ∧ ((List.range 8).any (fun k => decide (s.dev.ledOut (k / 2) 4 (k % 2 * 128 + key.val) ≠ 0)) = false)) ∧
    (∃ (c : HostCmd) (src : KeySrc) (v : _) (d' : _) (s : State), (s.dev.hostOpen c grpKEY 7) ∧ ((s.dev.taken c.fn).takeKey c.fn src = (some v, d'))) ∧
    (∃ (c : HostCmd) (key : BitVec 8) (s : State), (s.dev.hostOpen c grpKEY 8) ∧ (badKeyId key.toNat = false) ∧ ((s.dev.taken c.fn).keyInPart c.fn key.toNat = true)) ∧
    (∃ (b : Fin 4) (g : Fin 2) (s : State), (3 ≤ s.dev.rd F.CRD_FAR_STAT_state (Ix.on b g)) ∧ (s.dev.rd F.CRY_LINK_next_key_id (Ix.on b g) ≠ 0)) ∧
    (∃ (b : Fin 4) (g : Fin 2) (s : State), (3 ≤ s.dev.rd F.CRD_FAR_STAT_state (Ix.on b g)) ∧ (s.dev.rd F.CRY_LINK_next_key_id (Ix.on b g) = 0)) :=
  ⟨⟨hc, 1, 1, .wrapped (some 5), BitVec.ofNat 32 (checkValue 5), 5, up.taken 0, st up, by unfold Dev.hostOpen; refine ⟨?_, ?_, ?_, ?_, ?_, ?_, ?_, kcvOk 5⟩ <;> decide +kernel⟩,
   ⟨hc, 1, 1, .wrapped (some 5), BitVec.ofNat 32 (checkValue 5), 5, k3.taken 0, st k3, by unfold Dev.hostOpen; refine ⟨?_, ?_, ?_, ?_, ?_, ?_, rfl, kcvOk 5, (kcvOk 5 ▸ (by rfl : (k3.taken 0).rd F.CRY_KEYSTATE_kcv (Ix.at 1) = checkValue 5)), ?_⟩ <;> decide +kernel⟩,
   ⟨hc, 1, 1, .wrapped (some 5), BitVec.ofNat 32 (checkValue 5 + 1), 5, up.taken 0, st up, by unfold Dev.hostOpen; refine ⟨?_, ?_, ?_, ?_, ?_, ?_, ?_, kcvBad 5⟩ <;> decide +kernel⟩,
   ⟨hc, 1, st (dv [(F.CRY_KEYSTATE_state, Ix.at 1, 1)] (up)), by unfold Dev.hostOpen; decide +kernel⟩,
   ⟨hc, 1, st (dv [(F.CRY_KEYSTATE_state, Ix.at 1, 3)] (up)), by unfold Dev.hostOpen; decide +kernel⟩,
   ⟨0, st (dv [(F.CRY_KEYSTATE_state, (Ix.at (0 : Fin 128)), 2)] (up)), by decide +kernel⟩,
   ⟨hc, .wrapped (some 5), 5, up.taken 0, st up, by unfold Dev.hostOpen; decide +kernel⟩,
   ⟨hc, 1, st (up), by unfold Dev.hostOpen; decide +kernel⟩,
   ⟨0, 0, st (dv [(F.CRY_LINK_next_key_id, (Ix.on (0 : Fin 4) (0 : Fin 2)), 1), (F.CRD_FAR_STAT_state, Ix.on 0 0, 3)] (up)), by decide +kernel⟩,
   ⟨0, 0, st (dv [(F.CRY_LINK_next_key_id, (Ix.on (0 : Fin 4) (0 : Fin 2)), 0), (F.CRD_FAR_STAT_state, Ix.on 0 0, 3)] (up)), by decide +kernel⟩⟩

/-- States and operands that meet the hypotheses of `RegionCommandsComplete`. -/
theorem test_hyps_RegionCommandsComplete :
    (∃ (c : HostCmd) (key : BitVec 8) (stack : BitVec 8) (n : BitVec 8) (base : BitVec 32) (size : BitVec 32) (metaBase : BitVec 32) (metaUnits : BitVec 32) (wide : Bool) (s : State), (s.dev.hostOpen c grpKEY 3) ∧ (badKeyId key.toNat = false) ∧ (let D := s.dev.taken c.fn; D.keyInPart c.fn key.toNat = true) ∧ (stack.toNat < 8) ∧ (n.toNat < 64) ∧ (1 ≤ size.toNat) ∧ (size.toNat ≤ 12287) ∧ (1 ≤ metaUnits.toNat) ∧ (metaUnits.toNat ≤ 12287) ∧ (metaBytes (size.toNat * unitBytes) wide ≤ metaUnits.toNat * unitBytes) ∧ (let D := s.dev.taken c.fn; D.keyState key.toNat = 1) ∧ (let D := s.dev.taken c.fn; D.keyLevel key.toNat = 2) ∧ (let D := s.dev.taken c.fn; let a := rgnIx stack.toNat n.toNat; D.rd F.CRY_RGN_state a = 0) ∧ (let D := s.dev.taken c.fn; D.stackUp stack.toNat = true) ∧ (let D := s.dev.taken c.fn; D.regionOverlaps stack.toNat base.toNat size.toNat metaBase.toNat metaUnits.toNat = false)) ∧
    (∃ (k : Fin 8) (n : Fin 64) (s : State), (s.dev.rd F.CRY_RGN_state (rgnIx k n) = 1)) ∧
    (∃ (c : HostCmd) (stack : BitVec 8) (n : BitVec 8) (s : State), (s.dev.hostOpen c grpKEY 4) ∧ ((s.dev.taken c.fn).regionBad c.fn stack.toNat n.toNat = none)) ∧
    (∃ (c : HostCmd) (stack : BitVec 8) (n : BitVec 8) (s : State), (s.dev.hostOpen c grpKEY 4) ∧ (∃ e, (s.dev.taken c.fn).regionBad c.fn stack.toNat n.toNat = some e)) ∧
    (∃ (c : HostCmd) (stack : BitVec 8) (n : BitVec 8) (s : State), (s.dev.hostOpen c grpKEY 5) ∧ (let D := s.dev.taken c.fn; D.regionBad c.fn stack.toNat n.toNat = none) ∧ (let D := s.dev.taken c.fn; let a := rgnIx stack.toNat n.toNat; D.flag F.CRY_RGN_wide a = false) ∧ (let D := s.dev.taken c.fn; let a := rgnIx stack.toNat n.toNat; D.rd F.CRY_RGN_state a = 2) ∧ (let D := s.dev.taken c.fn; D.stackUp stack.toNat = true) ∧ (let D := s.dev.taken c.fn; let a := rgnIx stack.toNat n.toNat; D.rd F.CRY_RGN_generation a ≠ 2 ^ 24 - 1)) ∧
    (∃ (k : Fin 8) (n : Fin 64) (s : State), (s.dev.rd F.CRY_RGN_state (rgnIx k n) = 3)) ∧
    (∃ (c : HostCmd) (stack : BitVec 8) (n : BitVec 8) (first : BitVec 32) (count : BitVec 32) (s : State), (s.dev.hostOpen c grpKEY 6) ∧ (let D := s.dev.taken c.fn; D.regionBad c.fn stack.toNat n.toNat = none) ∧ (let D := s.dev.taken c.fn; let a := rgnIx stack.toNat n.toNat; D.rd F.CRY_RGN_state a = 4) ∧ (let D := s.dev.taken c.fn; D.stackUp stack.toNat = true) ∧ (let D := s.dev.taken c.fn; let r := D.rgnRec stack.toNat n.toNat; r.extents.contains (first.toNat, count.toNat) = true)) ∧
    (∃ (k : Fin 8) (n : Fin 64) (s : State), (2 ≤ s.dev.rd F.CRY_RGN_state (rgnIx k n)) ∧ (s.dev.flag F.CRY_RGN_durable (rgnIx k n) = false)) ∧
    (∃ (k : Fin 8) (n : Fin 64) (s : State), (2 ≤ s.dev.rd F.CRY_RGN_state (rgnIx k n)) ∧ (s.dev.flag F.CRY_RGN_durable (rgnIx k n) = true)) :=
  ⟨⟨hc, 1, 0, 0, 0, 1, 1, 1, false, st (k2), by unfold Dev.hostOpen; decide +kernel⟩,
   ⟨0, 0, st (dv [(F.CRY_RGN_state, (rgnIx (0 : Fin 8) (0 : Fin 64)), 1)] (up)), by decide +kernel⟩,
   ⟨hc, 0, 0, st (rg 2), by unfold Dev.hostOpen; decide +kernel⟩,
   ⟨hc, 0, 0, st (up), by unfold Dev.hostOpen; exact ⟨(by decide +kernel), (someOf1 (by decide +kernel))⟩⟩,
   ⟨hc, 0, 0, st (rg 2), by unfold Dev.hostOpen; decide +kernel⟩,
   ⟨0, 0, st (dv [(F.CRY_RGN_state, (rgnIx (0 : Fin 8) (0 : Fin 64)), 3)] (up)), by decide +kernel⟩,
   ⟨hc, 0, 0, 0, 1, st ({ (rg 4) with mem := { (rg 4).mem with rgn := [(0, { RgnRec.fresh with extents := [(0, 1)] })] } }), by unfold Dev.hostOpen; decide +kernel⟩,
   ⟨0, 0, st (dv [(F.CRY_RGN_durable, (rgnIx (0 : Fin 8) (0 : Fin 64)), 0), (F.CRY_RGN_state, rgnIx 0 0, 2)] (up)), by decide +kernel⟩,
   ⟨0, 0, st (dv [(F.CRY_RGN_durable, (rgnIx (0 : Fin 8) (0 : Fin 64)), 1), (F.CRY_RGN_state, rgnIx 0 0, 2)] (up)), by decide +kernel⟩⟩

/-- States and operands that meet the hypotheses of `ImageCommandsComplete`. -/
theorem test_hyps_ImageCommandsComplete :
    (∃ (c : HostCmd) (slot : BitVec 8) (len : BitVec 32) (bytes : List Byte) (tagOk : Bool) (bad : List Nat) (s : State), (s.dev.hostOpen c grpIMAGE 1) ∧ (slot.toNat ≤ 1) ∧ (1 ≤ len.toNat) ∧ (len.toNat ≤ slotBytes) ∧ (let D := s.dev.taken c.fn; D.slotsShut = false) ∧ (let D := s.dev.taken c.fn; D.slotInUse slot.toNat = false) ∧ (let D := s.dev.taken c.fn; D.flag F.HRT_CFG_STAT_busy {} = false) ∧ (let data := bytes.take len.toNat; data.length = len.toNat) ∧ (let D := s.dev.taken c.fn; let data := bytes.take len.toNat; let units := slotBytes / 4096; let W := (D.bothDirs (fun x => x.setSlot slot.toNat false 0 0)).peatPut (slot.toNat * slotBytes) data; let W : Dev := { W with peat := { W.peat with badUnits := W.peat.badUnits.filter (fun u => decide (u / units ≠ slot.toNat)) ++ (bad.filter (fun u => decide (u < units))).map (fun u => slot.toNat * units + u) } }; W.storedError data (fun k => k = 0) tagOk (fun o m => W.slotBad slot.toNat o m) = none)) ∧
    (∃ (c : HostCmd) (slot : BitVec 8) (len : BitVec 32) (bytes : List Byte) (tagOk : Bool) (bad : List Nat) (code : _) (o : _) (s : State), (s.dev.hostOpen c grpIMAGE 1) ∧ (slot.toNat ≤ 1) ∧ (1 ≤ len.toNat) ∧ (len.toNat ≤ slotBytes) ∧ (let D := s.dev.taken c.fn; D.slotsShut = false) ∧ (let D := s.dev.taken c.fn; D.slotInUse slot.toNat = false) ∧ (let D := s.dev.taken c.fn; D.flag F.HRT_CFG_STAT_busy {} = false) ∧ (let data := bytes.take len.toNat; data.length = len.toNat) ∧ (let D := s.dev.taken c.fn; let data := bytes.take len.toNat; let units := slotBytes / 4096; let W := (D.bothDirs (fun x => x.setSlot slot.toNat false 0 0)).peatPut (slot.toNat * slotBytes) data; let W : Dev := { W with peat := { W.peat with badUnits := W.peat.badUnits.filter (fun u => decide (u / units ≠ slot.toNat)) ++ (bad.filter (fun u => decide (u < units))).map (fun u => slot.toNat * units + u) } }; W.storedError data (fun k => k = 0) tagOk (fun o m => W.slotBad slot.toNat o m) = some (code, o))) ∧
    (∃ (c : HostCmd) (src : BitVec 8) (s : State), (s.dev.hostOpen c grpIMAGE 2) ∧ (src.toNat ≤ 1) ∧ (let D := s.dev.taken c.fn; (D.mode = .rehearse ∨ D.mode = .safe)) ∧ (let D := s.dev.taken c.fn; D.flag F.HRT_MODE_fence_pin {} = false) ∧ (let D := s.dev.taken c.fn; D.flag F.HRT_CFG_STAT_busy {} = false) ∧ (let D := s.dev.taken c.fn; D.slotsShut = false) ∧ (let D := s.dev.taken c.fn; D.slotDir.valid src.toNat = true)) ∧
    (∃ (c : HostCmd) (addr : Word64) (len : BitVec 32) (s : State), (s.dev.hostOpen c grpIMAGE 2) ∧ (1 ≤ len.toNat) ∧ (addr.toNat + len.toNat < 2 ^ 64) ∧ (let D := s.dev.taken c.fn; (D.mode = .rehearse ∨ D.mode = .safe)) ∧ (let D := s.dev.taken c.fn; D.flag F.HRT_MODE_fence_pin {} = false) ∧ (let D := s.dev.taken c.fn; D.flag F.HRT_CFG_STAT_busy {} = false)) ∧
    (∃ (c : HostCmd) (s : State), (s.dev.hostOpen c grpIMAGE 3) ∧ ((s.dev.taken c.fn).cfg.path = .startup)) ∧
    (∃ (c : HostCmd) (s : State), (s.dev.hostOpen c grpIMAGE 3) ∧ ((s.dev.taken c.fn).cfg.path = .hostLoad)) ∧
    (∃ (c : HostCmd) (slot : BitVec 8) (s : State), (s.dev.hostOpen c grpIMAGE 4) ∧ (slot.toNat ≤ 1)) ∧
    (∃ (c : HostCmd) (s : State), (s.dev.hostOpen c grpIMAGE 5) ∧ (let D := s.dev.taken c.fn; D.pl.image = true) ∧ (let D := s.dev.taken c.fn; D.cfg.reached = true) ∧ (let D := s.dev.taken c.fn; D.fuse.svnFuse < D.cfg.runSvn)) ∧
    (∃ (c : HostCmd) (off : BitVec 32) (len : BitVec 32) (bytes : List Byte) (tagOk : Bool) (s : State), (s.dev.hostOpen c grpIMAGE 6) ∧ (1 ≤ len.toNat) ∧ (off.toNat + len.toNat ≤ areaSize) ∧ (let D := s.dev.taken c.fn; D.flag F.HRT_CFG_STAT_busy {} = false) ∧ (let data := bytes.take len.toNat; data.length = len.toNat) ∧ (let D := s.dev.taken c.fn; let data := bytes.take len.toNat; D.storedError data (fun _ => true) tagOk (fun _ _ => false) = none)) ∧
    (∃ (c : HostCmd) (len : BitVec 32) (x : FwImage) (s : State), (s.dev.hostOpen c grpIMAGE 7) ∧ (1 ≤ len.toNat) ∧ (len.toNat ≤ bankBytes) ∧ (x.sigOk = true) ∧ (x.journalOk = true) ∧ (let D := s.dev.taken c.fn; let B := (D.st F.HRT_HEARTH_fw_staged {} 0).setBank (1 - D.hst.runBank) { version := x.version, svn := x.svn, content := x.content }; B.fuse.fwSvn ≤ x.svn.val)) ∧
    (∃ (c : HostCmd) (s : State), (s.dev.hostOpen c grpIMAGE 8) ∧ (let D := s.dev.taken c.fn; D.flag F.HRT_HEARTH_fw_staged {} = true) ∧ (let D := s.dev.taken c.fn; D.flag F.HRT_HEARTH_standby_ready {} = true)) ∧
    (∃ (s : State), (s.dev.clk.held = false) ∧ (s.dev.mode ≠ .ember) ∧ (s.dev.flag F.HRT_HEARTH_standby_ready {} = true)) :=
  ⟨⟨hc, 0, 280, img, true, [], st kd, by unfold Dev.hostOpen; refine ⟨by decide +kernel, by decide +kernel, by decide +kernel, by decide +kernel, by decide +kernel, by decide +kernel, by decide +kernel, by decide +kernel, ?_⟩; intro D data; have hd : data = img := img_take; rw [hd]; intro units W W'; apply storedOk <;> rfl⟩,
   ⟨hc, 0, 1, [0], true, [], 0x15, 1, st kd, by unfold Dev.hostOpen; decide +kernel⟩,
   ⟨hc, 0, st ({ up with peat := { up.peat with dirA := { up.peat.dirA with valid0 := true } } }), by unfold Dev.hostOpen; decide +kernel⟩,
   ⟨hc, 0, 1, st (up), by unfold Dev.hostOpen; decide +kernel⟩,
   ⟨hc, st (strm), by unfold Dev.hostOpen; decide +kernel⟩,
   ⟨hc, st ({ strm with cfg := { strm.cfg with path := .hostLoad } }), by unfold Dev.hostOpen; decide +kernel⟩,
   ⟨hc, 0, st (up), by unfold Dev.hostOpen; decide +kernel⟩,
   ⟨hc, st ({ up with cfg := { up.cfg with reached := true, runSvn := 1 } }), by unfold Dev.hostOpen; decide +kernel⟩,
   ⟨hc, 0, 280, img, true, st kd, by unfold Dev.hostOpen; refine ⟨by decide +kernel, by decide +kernel, by decide +kernel, by decide +kernel, by decide +kernel, ?_⟩; intro D data; have hd : data = img := img_take; rw [hd]; apply storedOk <;> rfl⟩,
   ⟨hc, 1, { version := 1, svn := 64, content := 0, sigOk := true, journalOk := true }, st (up), by unfold Dev.hostOpen; decide +kernel⟩,
   ⟨hc, st (dv [(F.HRT_HEARTH_fw_staged, {}, 1), (F.HRT_HEARTH_standby_ready, {}, 1)] (up)), by unfold Dev.hostOpen; decide +kernel⟩,
   ⟨st (dv [(F.HRT_HEARTH_standby_ready, {}, 1)] (up)), by decide +kernel⟩⟩

/-- States and operands that meet the hypotheses of `ModeCommandsComplete`. -/
theorem test_hyps_ModeCommandsComplete :
    (∃ (c : HostCmd) (s : State), (s.dev.hostOpen c grpMODE 1) ∧ (let D := s.dev.taken c.fn; modeAllowed D.mode .safe = true) ∧ (let D := s.dev.taken c.fn; D.mode ≠ .safe)) ∧
    (∃ (c : HostCmd) (mode : BitVec 8) (trig : Trigger) (t : _) (s : State), (s.dev.hostOpen c grpMODE 1) ∧ (mode.toNat ≤ 7) ∧ (Mode.ofCode mode.toNat ≠ .safe) ∧ (let D := s.dev.taken c.fn; modeAllowed D.mode (Mode.ofCode mode.toNat) = true) ∧ (let D := s.dev.taken c.fn; D.pl.modeWait = none) ∧ (let D := s.dev.taken c.fn; D.mode ≠ .safe) ∧ (let D := s.dev.taken c.fn; D.mode ≠ .bench) ∧ (let D := s.dev.taken c.fn; D.trigger trig = .ok t)) ∧
    (∃ (c : HostCmd) (mode : BitVec 8) (s : State), (s.dev.hostOpen c grpMODE 1) ∧ (mode.toNat ≤ 7) ∧ (let D := s.dev.taken c.fn; modeAllowed D.mode (Mode.ofCode mode.toNat) = false)) ∧
    (∃ (c : HostCmd) (s : State), (s.dev.hostOpen c grpMODE 2)) ∧
    (∃ (c : HostCmd) (s : State), (s.dev.hostOpen c grpMODE 3)) :=
  ⟨⟨hc, st (up), by unfold Dev.hostOpen; decide +kernel⟩,
   ⟨hc, 3, .instant 1 0, 10 ^ 9 * nsUnits, st (up), by unfold Dev.hostOpen; decide +kernel⟩,
   ⟨hc, 0, st (up), by unfold Dev.hostOpen; decide +kernel⟩,
   ⟨hc, st (up), by unfold Dev.hostOpen; decide +kernel⟩,
   ⟨hc, st (up), by unfold Dev.hostOpen; decide +kernel⟩⟩

/-- States and operands that meet the hypotheses of `RepairCommandsComplete`. -/
theorem test_hyps_RepairCommandsComplete :
    (∃ (c : HostCmd) (die : BitVec 8) (s : State), (s.dev.hostOpen c grpREPAIR 1) ∧ (die.toNat ≤ 3) ∧ (let D := s.dev.taken c.fn; D.dieGone die.toNat = false) ∧ (let D := s.dev.taken c.fn; die.toNat ≠ D.hearthDie)) ∧
    (∃ (c : HostCmd) (die : BitVec 8) (s : State), (s.dev.hostOpen c grpREPAIR 1) ∧ (die.toNat ≤ 3) ∧ (let D := s.dev.taken c.fn; D.dieGone die.toNat = false) ∧ (let D := s.dev.taken c.fn; die.toNat = D.hearthDie) ∧ (let D := s.dev.taken c.fn; D.flag F.HRT_HEARTH_standby_ready {} = true)) ∧
    (∃ (c : HostCmd) (die : BitVec 8) (s : State), (s.dev.hostOpen c grpREPAIR 1) ∧ (die.toNat ≤ 3) ∧ (let D := s.dev.taken c.fn; D.dieGone die.toNat = false) ∧ (let D := s.dev.taken c.fn; die.toNat = D.hearthDie) ∧ (let D := s.dev.taken c.fn; D.flag F.HRT_HEARTH_standby_ready {} = false)) ∧
    (∃ (c : HostCmd) (die : BitVec 8) (s : State), (s.dev.hostOpen c grpREPAIR 2) ∧ (die.toNat ≤ 11) ∧ (let D := s.dev.taken c.fn; D.dieGone (4 + die.toNat) = false) ∧ (let D := s.dev.taken c.fn; D.dieGone (die.toNat / 3) = false)) ∧
    (∃ (c : HostCmd) (die : BitVec 8) (block : BitVec 8) (inst : BitVec 32) (s : State), (s.dev.hostOpen c grpREPAIR 3) ∧ (die.toNat ≤ 3) ∧ (block.toNat ≤ 15) ∧ (inst.toNat < blockInsts block.toNat) ∧ ((s.dev.taken c.fn).dieGone die.toNat = false)) ∧
    (∃ (c : HostCmd) (die : BitVec 8) (n : BitVec 32) (k : _) (s : State), (s.dev.hostOpen c grpREPAIR 4) ∧ (die.toNat ≤ 3) ∧ (n.toNat ≤ 223) ∧ (cordAt die.toNat n.toNat = some k) ∧ (let D := s.dev.taken c.fn; D.cordEndReset k = false) ∧ (let D := s.dev.taken c.fn; D.cordState k = 5)) ∧
    (∃ (c : HostCmd) (die : BitVec 8) (n : BitVec 32) (k : _) (s : State), (s.dev.hostOpen c grpREPAIR 4) ∧ (die.toNat ≤ 3) ∧ (n.toNat ≤ 223) ∧ (cordAt die.toNat n.toNat = some k) ∧ (let D := s.dev.taken c.fn; D.cordEndReset k = false) ∧ (let D := s.dev.taken c.fn; D.cordState k = 3)) ∧
    (∃ (c : HostCmd) (die : BitVec 8) (ctl : BitVec 8) (s : State), (s.dev.hostOpen c grpREPAIR 5) ∧ (die.toNat ≤ 3) ∧ (ctl.toNat ≤ 1) ∧ ((s.dev.taken c.fn).dieGone die.toNat = false)) ∧
    (∃ (c : HostCmd) (s : State), (s.dev.hostOpen c grpREPAIR 6) ∧ (let D := s.dev.taken c.fn; D.flag F.HRT_HEARTH_standby_ready {} = false) ∧ (let D := s.dev.taken c.fn; D.dieGone (2 - D.hearthDie) = false)) ∧
    (∃ (c : HostCmd) (s : State), (s.dev.hostOpen c grpREPAIR 6) ∧ ((s.dev.taken c.fn).flag F.HRT_HEARTH_standby_ready {} = true)) :=
  ⟨⟨hc, 1, st (up), by unfold Dev.hostOpen; decide +kernel⟩,
   ⟨hc, 0, st (dv [(F.HRT_HEARTH_standby_ready, {}, 1)] (up)), by unfold Dev.hostOpen; decide +kernel⟩,
   ⟨hc, 0, st (dv [(F.HRT_HEARTH_standby_ready, {}, 0)] (up)), by unfold Dev.hostOpen; decide +kernel⟩,
   ⟨hc, 0, st (up), by unfold Dev.hostOpen; decide +kernel⟩,
   ⟨hc, 0, 0, 0, st (up), by unfold Dev.hostOpen; decide +kernel⟩,
   ⟨hc, 0, 0, .cord 0, st (dv [(F.CRD_CORD_STAT_state, Ix.at 0, 5)] (up)), by unfold Dev.hostOpen; decide +kernel⟩,
   ⟨hc, 0, 0, .cord 0, st (dv [(F.CRD_CORD_STAT_state, Ix.at 0, 3)] (up)), by unfold Dev.hostOpen; decide +kernel⟩,
   ⟨hc, 0, 0, st (up), by unfold Dev.hostOpen; decide +kernel⟩,
   ⟨hc, st (dv [(F.HRT_HEARTH_standby_ready, {}, 0)] (up)), by unfold Dev.hostOpen; decide +kernel⟩,
   ⟨hc, st (dv [(F.HRT_HEARTH_standby_ready, {}, 1)] (up)), by unfold Dev.hostOpen; decide +kernel⟩⟩

/-- States and operands that meet the hypotheses of `KilnCommandsComplete`. -/
theorem test_hyps_KilnCommandsComplete :
    (∃ (b : Fin 4) (u : Fin 410) (s : State), (s.dev.mode.kiln = true) ∧ (s.dev.dieOff b = false) ∧ (s.dev.slice b = none) ∧ (s.dev.repairNames b u = false) ∧ (s.dev.kln.wait.find? (fun w => decide (w.die = b.val) && decide (w.unit = u.val)) = none) ∧ (s.dev.scheduled b u = true) ∧ (s.dev.unitFailed b u = false) ∧ (s.dev.spareTaken b u = false) ∧ (s.dev.unitReady b u = true)) ∧
    (∃ (b : Fin 4) (u : Fin 410) (s : State), (s.dev.mode.kiln = true) ∧ (s.dev.dieOff b = false) ∧ (s.dev.slice b = none) ∧ (s.dev.repairNames b u = false) ∧ (s.dev.kln.wait.find? (fun w => decide (w.die = b.val) && decide (w.unit = u.val)) = none) ∧ (s.dev.scheduled b u = true) ∧ (s.dev.unitFailed b u = false)) ∧
    (∃ (b : Fin 4) (u : Fin 410) (w : KilnWant) (s : State), (s.dev.mode.kiln = true) ∧ (s.dev.dieOff b = false) ∧ (s.dev.slice b = none) ∧ (s.dev.repairNames b u = false) ∧ (s.dev.kln.wait.find? (fun w => decide (w.die = b.val) && decide (w.unit = u.val)) = some w) ∧ (({ s.dev with kln := { s.dev.kln with wait := s.dev.kln.wait.erase w } } : Dev).unitFailed b u = true)) ∧
    (∃ (b : Fin 4) (x : _) (s : State), (s.dev.slice b = some x)) ∧
    (∃ (b : Fin 4) (x : _) (s : State), (s.dev.slice b = some x) ∧ (x.full = false)) ∧
    (∃ (b : Fin 4) (x : _) (s : State), (s.dev.slice b = some x) ∧ (x.full = true)) ∧
    (∃ (b : Fin 4) (u : Fin 410) (s : State), (s.dev.flag F.KLN_RES_overdue (Ix.on b u) = false) ∧ (s.dev.clk.held = false)) ∧
    (∃ (c : HostCmd) (die : BitVec 8) (block : BitVec 8) (inst : BitVec 32) (u : _) (s : State), (s.dev.hostOpen c grpKILN 1) ∧ (klnUnit block.toNat inst.toNat = some u) ∧ (die.toNat ≤ 3) ∧ (let D := s.dev.taken c.fn; D.dieGone die.toNat = false) ∧ (let D := s.dev.taken c.fn; D.repairNames die.toNat u = false) ∧ (let D := s.dev.taken c.fn; (D.unitFailed die.toNat u = true ∨ D.spareTaken die.toNat u = false))) ∧
    (∃ (c : HostCmd) (die : BitVec 8) (block : BitVec 8) (inst : BitVec 32) (s : State), (s.dev.hostOpen c grpKILN 2) ∧ (∃ u, klnUnit block.toNat inst.toNat = some u) ∧ (die.toNat ≤ 3)) :=
  ⟨⟨0, 0, st (up), by decide +kernel⟩,
   ⟨0, 0, st (up), by decide +kernel⟩,
   ⟨0, 0, { die := 0, unit := 0, cmd := hc }, st (dv [(F.PK_ENG_STAT_state, engIx 0, 4)] { up with kln := { up.kln with wait := [{ die := 0, unit := 0, cmd := hc }] } }), by decide +kernel⟩,
   ⟨0, ksl, st (klnd ksl), by decide +kernel⟩,
   ⟨0, ksl, st (klnd ksl), by decide +kernel⟩,
   ⟨0, { ksl with full := true }, st (klnd { ksl with full := true }), by decide +kernel⟩,
   ⟨0, 0, st (dv [(F.KLN_RES_overdue, (Ix.on (0 : Fin 4) (0 : Fin 410)), 0)] (up)), by decide +kernel⟩,
   ⟨hc, 0, 6, 0, 0, st (up), by unfold Dev.hostOpen; decide +kernel⟩,
   ⟨hc, 0, 0, 0, st (up), by unfold Dev.hostOpen; exact ⟨(by decide +kernel), (someOf1 (by decide +kernel)), (by decide +kernel)⟩⟩⟩

/-- States and operands that meet the hypotheses of `SpdmRequestsComplete`. -/
theorem test_hyps_SpdmRequestsComplete :
    (∃ (fn : Fin 64) (s : State), (s.dev.mailOpen fn)) ∧
    (∃ (fn : Fin 64) (slot : Fin 16) (s : State), (s.dev.mailOpen fn) ∧ (slot.val ≠ 0)) ∧
    (∃ (fn : Fin 64) (index : Byte) (s : State), (s.dev.mailOpen fn) ∧ (1 ≤ index.toNat) ∧ (index.toNat ≤ 6)) :=
  ⟨⟨0, st (up), by unfold Dev.mailOpen; decide +kernel⟩,
   ⟨0, 1, st (up), by unfold Dev.mailOpen; decide +kernel⟩,
   ⟨0, 6, st (up), by unfold Dev.mailOpen; decide +kernel⟩⟩

/-- States and operands that meet the hypotheses of `SpdmSessionsAndSidebandComplete`. -/
theorem test_hyps_SpdmSessionsAndSidebandComplete :
    (∃ (fn : Fin 64) (n : _) (s : State), (s.dev.mailOpen fn) ∧ ((List.range 4).find? (fun n => (s.dev.session n).isNone) = some n)) ∧
    (∃ (fn : Fin 64) (s : State), (s.dev.mailOpen fn) ∧ ((List.range 4).find? (fun n => (s.dev.session n).isNone) = none)) ∧
    (∃ (fn : Fin 64) (n : Fin 4) (x : _) (s : State), (s.dev.mailOpen fn) ∧ (s.dev.session n = some x) ∧ (x.fn = fn.val) ∧ (x.finished = false)) ∧
    (∃ (fn : Fin 64) (n : Fin 4) (s : State), (s.dev.mailOpen fn) ∧ (s.dev.sessionOpen fn n)) ∧
    (∃ (fn : Fin 64) (n : Fin 4) (s : State), (s.dev.mailOpen fn) ∧ (s.dev.session n = none)) ∧
    (∃ (fn : Fin 64) (n : Fin 4) (target : BitVec 8) (buffer : BitVec 8) (s : State), (s.dev.mailOpen fn) ∧ (s.dev.sessionOpen fn n) ∧ (buffer.toNat ≤ 7) ∧ (target.toNat ≤ 63) ∧ ((target.toNat = fn.val ∨ (fn.val = 0 ∧ s.dev.isVf target.toNat = true)))) ∧
    (∃ (n : Fin 4) (x : _) (s : State), (s.dev.session n = some x)) ∧
    (∃ (s : State), (s.dev.bmcServed = true)) ∧
    (∃ (s : State), (s.dev.bmcServed = true) ∧ (s.dev.fuse.bmcSafe = true) ∧ (modeAllowed s.dev.mode .safe = true)) ∧
    (∃ (s : State), (s.dev.fuse.bmcSafe = false)) :=
  ⟨⟨0, 0, st (up), by unfold Dev.mailOpen; decide +kernel⟩,
   ⟨0, st ({ up with hst := { up.hst with sessions := [(0, some ses), (1, some ses), (2, some ses), (3, some ses)] } }), by unfold Dev.mailOpen; decide +kernel⟩,
   ⟨0, 0, { ses with finished := false }, st (sesd { ses with finished := false }), by unfold Dev.mailOpen; decide +kernel⟩,
   ⟨0, 0, st (sesd ses), by unfold Dev.mailOpen Dev.sessionOpen; exact ⟨by decide +kernel, ses, by decide +kernel⟩⟩,
   ⟨0, 0, st (up), by unfold Dev.mailOpen; decide +kernel⟩,
   ⟨0, 0, 0, 7, st (sesd ses), by unfold Dev.mailOpen Dev.sessionOpen; exact ⟨by decide +kernel, ⟨ses, by decide +kernel⟩, by decide +kernel⟩⟩,
   ⟨0, ses, st (sesd ses), by decide +kernel⟩,
   ⟨st (up), by decide +kernel⟩,
   ⟨st ({ up with fuse := { up.fuse with bmcSafe := true } }), by decide +kernel⟩,
   ⟨st (up), by decide +kernel⟩⟩

/-- States and operands that meet the hypotheses of `FaultCommandsComplete`. -/
theorem test_hyps_FaultCommandsComplete :
    (∃ (o : FaultIn) (s : State), (s.dev.clk.held = false) ∧ (o.cls.val ≠ 19)) ∧
    (∃ (o : FaultIn) (s : State), (s.dev.clk.held = false) ∧ (o.cls.val = 19) ∧ (o.die.val < 4)) ∧
    (∃ (k : Nat) (r : _) (s : State), (Tbl.get none s.dev.flt.ring k = some r) ∧ ((r.stage = 1 ∨ r.stage = 2))) ∧
    (∃ (k : Nat) (r : _) (s : State), (Tbl.get none s.dev.flt.ring k = some r) ∧ (r.stage = 1) ∧ (k < 256)) ∧
    (∃ (k : Nat) (r : _) (s : State), (Tbl.get none s.dev.flt.ring k = some r) ∧ (r.stage = 1) ∧ (k < 256) ∧ (r.sev ≠ sevDevice)) ∧
    (∃ (k : Nat) (r : _) (s : State), (Tbl.get none s.dev.flt.ring k = some r) ∧ (r.stage = 1) ∧ (k < 256) ∧ (r.sev = sevDevice)) ∧
    (∃ (k : _) (old : _) (s : State), (s.dev.flag F.FLT_STATUS_overflow {} = true) ∧ (s.dev.lowestOpen = some (k, old))) ∧
    (∃ (w : Writer) (b : Fin 4) (v : Word64) (s : State), (∃ d', s.dev.writeLands w (F.FLT_INJECT_go.addr {} + 0x10000000 * b) v.toNat d')) ∧
    (∃ (f : Fin 12) (s : State), (s.dev.clk.held = false) ∧ (s.dev.clk.failed.contains (4 + f) = false) ∧ (s.dev.clk.inReset.contains (4 + f) = false)) ∧
    (∃ (b : Fin 4) (s : State), (s.dev.clk.held = false) ∧ (s.dev.clk.failed.contains b.val = false) ∧ (s.dev.clk.inReset.contains b.val = false) ∧ (b.val ≠ s.dev.hearthDie)) :=
  ⟨⟨fin, st (up), by decide +kernel⟩,
   ⟨{ fin with cls := 19 }, st (up), by decide +kernel⟩,
   ⟨0, { rec1 with stage := 1 }, st (flt1 { rec1 with stage := 1 }), by decide +kernel⟩,
   ⟨0, { rec1 with stage := 1 }, st (flt1 { rec1 with stage := 1 }), by decide +kernel⟩,
   ⟨0, { rec1 with stage := 1 }, st (flt1 { rec1 with stage := 1 }), by decide +kernel⟩,
   ⟨0, { rec1 with stage := 1, sev := 3 }, st (flt1 { rec1 with stage := 1, sev := 3 }), by decide +kernel⟩,
   ⟨0, { rec1 with openR := true }, st (dv [(F.FLT_STATUS_overflow, {}, 1)] (flt1 { rec1 with openR := true })), by decide +kernel⟩,
   ⟨.other, 0, 0, st (up), by exact (landsOf (by decide +kernel))⟩,
   ⟨0, st (up), by decide +kernel⟩,
   ⟨1, st (up), by decide +kernel⟩⟩

/-- States and operands that meet the hypotheses of `LedgerCommandsComplete`. -/
theorem test_hyps_LedgerCommandsComplete :
    (∃ (b : Fin 4) (s : State), (s.dev.clk.held = false) ∧ (s.dev.dieOff b = false)) ∧
    (∃ (b : Fin 4) (kind : Fin 5) (inst : Fin 4096) (s : State), (s.dev.clk.held = false) ∧ (s.dev.dieOff b = false) ∧ (s.dev.led.draining.contains (ledKey b kind inst) = false)) ∧
    (∃ (b : Fin 4) (kind : Fin 5) (inst : Fin 4096) (s : State), (s.dev.led.draining.contains (ledKey b kind inst) = true) ∧ ((kind.val = 0 → s.dev.inputEmpty b inst = true))) ∧
    (∃ (b : Fin 4) (inst : Fin 4096) (s : State), (s.dev.led.draining.contains (ledKey b 0 inst) = true)) ∧
    (∃ (b : Fin 4) (inst : Fin 4096) (s : State), (s.dev.led.draining.contains (ledKey b 2 inst) = true)) :=
  ⟨⟨0, st (up), by decide +kernel⟩,
   ⟨0, 0, 0, st (up), by decide +kernel⟩,
   ⟨0, 1, 0, st ({ up with led := { up.led with draining := [ledKey 0 1 0] } }), by decide +kernel⟩,
   ⟨0, 0, st ({ up with led := { up.led with draining := [ledKey 0 0 0] } }), by decide +kernel⟩,
   ⟨0, 0, st ({ up with led := { up.led with draining := [ledKey 0 2 0] } }), by decide +kernel⟩⟩

/-- States and operands that meet the hypotheses of `PowerCommandsComplete`. -/
theorem test_hyps_PowerCommandsComplete :
    (∃ (b : Fin 4) (r : Fin 8) (mv : Fin 2048) (s : State), (s.dev.clk.held = false) ∧ ((s.dev.railRead b r mv).flag F.PWR_RAIL_valid (Ix.on b r) = true)) ∧
    (∃ (b : Fin 4) (r : Fin 8) (mv : Fin 2048) (s : State), (s.dev.clk.held = false) ∧ ((s.dev.railRead b r mv).flag F.PWR_RAIL_valid (Ix.on b r) = false) ∧ (let D := (s.dev.railRead b r mv).bump F.PWR_RAIL_excursions (Ix.on b r); D.mode ≠ .cold) ∧ (let D := (s.dev.railRead b r mv).bump F.PWR_RAIL_excursions (Ix.on b r); Tbl.get none D.pwr.railAt (b * 8 + r) = none)) ∧
    (∃ (b : Fin 4) (r : Fin 8) (mv : Fin 2048) (t : _) (s : State), (s.dev.clk.held = false) ∧ ((s.dev.railRead b r mv).flag F.PWR_RAIL_valid (Ix.on b r) = false) ∧ (let D := (s.dev.railRead b r mv).bump F.PWR_RAIL_excursions (Ix.on b r); D.mode ≠ .cold) ∧ (let D := (s.dev.railRead b r mv).bump F.PWR_RAIL_excursions (Ix.on b r); Tbl.get none D.pwr.railAt (b * 8 + r) = some t) ∧ (let D := (s.dev.railRead b r mv).bump F.PWR_RAIL_excursions (Ix.on b r); D.root < t + 1000 * msCycles)) ∧
    (∃ (b : Fin 4) (p : Fin 8) (x : _) (s : State), (let n : Fin 54 := ⟨p, by omega⟩; bits (s.dev.plainValue' .PWR_GATE (Ix.onDie b)) n 1 ≠ 1) ∧ (s.dev.dieOff b = false) ∧ (let n : Fin 54 := ⟨p, by omega⟩; gateDom b n = some x) ∧ (s.dev.domShut x = true)) ∧
    (∃ (s : State), (s.dev.clk.held = false) ∧ (s.dev.mode ≠ .cold) ∧ (s.dev.mode ≠ .ember)) ∧
    (∃ (s : State), (s.dev.mode = .ember) ∧ (s.dev.flag F.PWR_EMBER_complete {} = false)) ∧
    (∃ (s : State), (s.dev.mode = .ember) ∧ (s.dev.flag F.PWR_EMBER_complete {} = true) ∧ (s.dev.flag F.PWR_STATUS_retention_lost {} = false)) ∧
    (∃ (s : State), (s.dev.mode = .ember)) ∧
    (∃ (r : Fin 8) (s : State), (s.dev.mode = .ember) ∧ (1 ≤ r.val) ∧ (r.val < 4)) ∧
    (∃ (s : State), (s.dev.clk.held = false)) ∧
    (∃ (uf : Fin 16384) (s : State), (s.dev.clk.held = false) ∧ (s.dev.mode ≠ .ember) ∧ (s.dev.flag F.PWR_HOLD_cap_test {} = true) ∧ (1720 ≤ uf.val)) ∧
    (∃ (uf : Fin 16384) (s : State), (s.dev.clk.held = false) ∧ (s.dev.mode ≠ .ember) ∧ (s.dev.flag F.PWR_HOLD_cap_test {} = true) ∧ (uf.val < 1720)) :=
  ⟨⟨0, 0, 1800, st (up), by decide +kernel⟩,
   ⟨0, 0, 0, st (up), by decide +kernel⟩,
   ⟨0, 0, 0, 6400000, st { up with pwr := { up.pwr with railAt := [(0, some 6400000)] } }, by decide +kernel⟩,
   ⟨0, 0, .pack 0, st ({ up with noc := { up.noc with closing := [.pack 0] } }), by decide +kernel⟩,
   ⟨st (up), by decide +kernel⟩,
   ⟨st (dv [(F.PWR_EMBER_complete, {}, 0), (F.HRT_MODE_mode, {}, 6)] (up)), by decide +kernel⟩,
   ⟨st (dv [(F.PWR_EMBER_complete, {}, 1), (F.PWR_STATUS_retention_lost, {}, 0), (F.HRT_MODE_mode, {}, 6)] (up)), by decide +kernel⟩,
   ⟨st (dv [(F.HRT_MODE_mode, {}, 6)] (up)), by decide +kernel⟩,
   ⟨3, st (dv [(F.HRT_MODE_mode, {}, 6)] (up)), by decide +kernel⟩,
   ⟨st (up), by decide +kernel⟩,
   ⟨1720, st (dv [(F.PWR_HOLD_cap_test, {}, 1)] (up)), by decide +kernel⟩,
   ⟨0, st (dv [(F.PWR_HOLD_cap_test, {}, 1)] (up)), by decide +kernel⟩⟩

/-- States and operands that meet the hypotheses of `TemperatureCommandsComplete`. -/
theorem test_hyps_TemperatureCommandsComplete :
    (∃ (b : Fin 4) (k : Fin 6) (valid : Bool) (v : BitVec 11) (long : Bool) (i : _) (t : _) (s : State), ((s.dev.tempRead b k valid v).clk.held = false) ∧ ((s.dev.tempRead b k valid v).hottest = some (i, t)) ∧ ((s.dev.tempRead b k valid v).thermalLevel t long = 0)) ∧
    (∃ (b : Fin 4) (k : Fin 6) (valid : Bool) (v : BitVec 11) (long : Bool) (i : _) (t : _) (s : State), ((s.dev.tempRead b k valid v).clk.held = false) ∧ ((s.dev.tempRead b k valid v).hottest = some (i, t)) ∧ ((s.dev.tempRead b k valid v).thermalLevel t long = 1) ∧ ((s.dev.tempRead b k valid v).pwr.level = 0)) ∧
    (∃ (b : Fin 4) (k : Fin 6) (valid : Bool) (v : BitVec 11) (long : Bool) (i : _) (t : _) (s : State), ((s.dev.tempRead b k valid v).clk.held = false) ∧ ((s.dev.tempRead b k valid v).hottest = some (i, t)) ∧ ((s.dev.tempRead b k valid v).thermalLevel t long = 3) ∧ ((s.dev.tempRead b k valid v).pwr.level = 2)) ∧
    (∃ (t : BitVec 11), (920 < tempOf t.toNat)) ∧
    (∃ (t : BitVec 11), (tempOf t.toNat ≤ 920)) :=
  ⟨⟨0, 0, true, 100, false, 0, 100, st (up), by decide +kernel⟩,
   ⟨0, 0, true, 760, false, 0, 760, st (up), by decide +kernel⟩,
   ⟨0, 0, true, 841, true, 0, 841, st { up with pwr := { up.pwr with level := 2 } }, by decide +kernel⟩,
   ⟨921, by decide +kernel⟩,
   ⟨0, by decide +kernel⟩⟩

/-- States and operands that meet the hypotheses of `ObservationCommandsComplete`. -/
theorem test_hyps_ObservationCommandsComplete :
    (∃ (w : Writer) (b : Fin 4) (n : Fin 256) (v : Word64) (s : State), (∃ d', s.dev.writeLands w (F.EVT_CNT_count.addr (Ix.on b n)) v.toNat d') ∧ (s.dev.obs.evtOn.contains (b * 256 + n) = true)) ∧
    (∃ (w : Writer) (b : Fin 4) (n : Fin 256) (v : Word64) (s : State), (∃ d', s.dev.writeLands w (F.EVT_CNT_count.addr (Ix.on b n)) v.toNat d') ∧ (s.dev.obs.evtOn.contains (b * 256 + n) = false)) ∧
    (∃ (b : Fin 4) (s : State), (s.dev.clk.held = false) ∧ (s.dev.mode ≠ .cold) ∧ (s.dev.dieOff b = false) ∧ (s.dev.rd F.EVT_SNAP_snap_mode (Ix.onDie b) ≠ 0) ∧ (s.dev.flag F.EVT_TR_CFG_src_snap (Ix.onDie b) = true)) ∧
    (∃ (b : Fin 4) (s : State), (s.dev.clk.held = false) ∧ (s.dev.mode ≠ .cold) ∧ (s.dev.dieOff b = false) ∧ (s.dev.rd F.EVT_TR_CFG_sink (Ix.onDie b) ≠ 0)) ∧
    (∃ (b : Fin 4) (p : _) (r : _) (s : State), (s.dev.clk.held = false) ∧ (s.dev.mode ≠ .cold) ∧ (s.dev.mode ≠ .ember) ∧ (s.dev.dieOff b = false) ∧ (Tbl.get [] s.dev.obs.fifo b = p :: r) ∧ (s.dev.rd F.EVT_TR_CFG_sink (Ix.onDie b) = 1)) ∧
    (∃ (b : Fin 4) (p : _) (r : _) (s : State), (s.dev.clk.held = false) ∧ (s.dev.mode ≠ .cold) ∧ (s.dev.mode ≠ .ember) ∧ (s.dev.dieOff b = false) ∧ (Tbl.get [] s.dev.obs.fifo b = p :: r) ∧ (s.dev.rd F.EVT_TR_CFG_sink (Ix.onDie b) = 2) ∧ (2 ≤ s.dev.rd F.LN_NL_STAT_state (Ix.on b (s.dev.rd F.EVT_TR_CFG_link (Ix.onDie b))))) ∧
    (∃ (b : Fin 4) (p : _) (r : _) (s : State), (s.dev.clk.held = false) ∧ (s.dev.mode ≠ .cold) ∧ (s.dev.mode ≠ .ember) ∧ (s.dev.dieOff b = false) ∧ (Tbl.get [] s.dev.obs.fifo b = p :: r) ∧ (s.dev.rd F.EVT_TR_CFG_sink (Ix.onDie b) = 4)) ∧
    (∃ (w : Writer) (b : Fin 4) (v : Word64) (s : State), (∃ d', s.dev.writeLands w (F.EVT_TR_POP_pop.addr (Ix.onDie b)) v.toNat d')) ∧
    (∃ (f : Fin 12) (port : Fin 256) (s : State), (s.dev.fab.step9 = true) ∧ (s.dev.mode ≠ .ember) ∧ (s.dev.mode ≠ .cold) ∧ (s.dev.clk.inReset.contains (4 + f.val) = false) ∧ (let a := Ix.on f (port.val / 32); s.dev.fab.ungated.contains (netKey f (s.dev.rd F.FAB_STIM_st_clk a)) = true) ∧ (let a := Ix.on f (port.val / 32); bits (s.dev.rd F.FAB_STIM_en a) (port % 32) 1 ≠ 0) ∧ ((Tbl.get [] s.dev.obs.stim (f.val * 8 + port.val / 32)).length < 64)) ∧
    (∃ (f : Fin 12) (port : Fin 256) (s : State), (s.dev.fab.step9 = true) ∧ (s.dev.mode ≠ .ember) ∧ (s.dev.mode ≠ .cold) ∧ (s.dev.clk.inReset.contains (4 + f.val) = false) ∧ (let a := Ix.on f (port.val / 32); s.dev.fab.ungated.contains (netKey f (s.dev.rd F.FAB_STIM_st_clk a)) = true) ∧ (let a := Ix.on f (port.val / 32); bits (s.dev.rd F.FAB_STIM_en a) (port % 32) 1 ≠ 0) ∧ (64 ≤ (Tbl.get [] s.dev.obs.stim (f.val * 8 + port.val / 32)).length)) :=
  ⟨⟨.other, 0, 0, 0, st { up with obs := { up.obs with evtOn := [0] } }, by exact ⟨(landsOf (by decide +kernel)), (by decide +kernel)⟩⟩,
   ⟨.other, 0, 0, 0, st (up), by exact ⟨(landsOf (by decide +kernel)), (by decide +kernel)⟩⟩,
   ⟨0, st (dv [(F.EVT_SNAP_snap_mode, (Ix.onDie (0 : Fin 4)), 1), (F.EVT_TR_CFG_src_snap, (Ix.onDie (0 : Fin 4)), 1)] (up)), by decide +kernel⟩,
   ⟨0, st (dv [(F.EVT_TR_CFG_sink, (Ix.onDie (0 : Fin 4)), 1)] (up)), by decide +kernel⟩,
   ⟨0, tpk, [], st (dv [(F.EVT_TR_CFG_sink, (Ix.onDie (0 : Fin 4)), 1)] (obs1)), by decide +kernel⟩,
   ⟨0, tpk, [], st (dv [(F.EVT_TR_CFG_sink, (Ix.onDie (0 : Fin 4)), 2), (F.LN_NL_STAT_state, Ix.on 0 0, 2)] (obs1)), by decide +kernel⟩,
   ⟨0, tpk, [], st (dv [(F.EVT_TR_CFG_sink, (Ix.onDie (0 : Fin 4)), 4)] (obs1)), by decide +kernel⟩,
   ⟨.other, 0, 0, st (up), by exact (landsOf (by decide +kernel))⟩,
   ⟨0, 0, st (dv [(F.FAB_STIM_en, Ix.on 0 0, 1)] gat), by decide +kernel⟩,
   ⟨0, 0, st (dv [(F.FAB_STIM_en, Ix.on 0 0, 1)] { gat with obs := { gat.obs with stim := [(0, List.replicate 64 (0, 0, 0, 0))] } }), by decide +kernel⟩⟩

/-- States and operands that meet the hypotheses of `LeashSessionCommandsComplete`, part 1. -/
theorem test_hyps_LeashSessionCommandsComplete_1 :
    (∃ (fr : LeashFrame) (s : State), (s.dev.portOpen fr)) ∧
    (∃ (fr : LeashFrame) (s : State), (s.dev.lshOpen = true) ∧ (fr.parityOk = false)) ∧
    (∃ (fr : LeashFrame) (rights : Byte) (slot : Byte) (pub : Nat) (s : State), (s.dev.portOpen fr) ∧ (slot.toNat ≤ 3) ∧ ((rights = 1#8 ∨ (rights = 2#8 ∧ s.dev.controlBarred = false))) ∧ (s.dev.fuse.ownerHash.getD slot.toNat 0 = Config.sha384 [pub]) ∧ (bits s.dev.fuse.ownerRevoke slot.toNat 1 = 0) ∧ (s.dev.lsh.nonce.isSome = true) ∧ (s.dev.lsh.lockUntil ≤ s.dev.root)) ∧
    (∃ (fr : LeashFrame) (rights : Byte) (slot : Byte) (s : State), (s.dev.portOpen fr) ∧ (slot.toNat ≤ 3) ∧ ((rights = 1#8 ∨ (rights = 2#8 ∧ s.dev.controlBarred = false)))) ∧
    (∃ (fr : LeashFrame) (rights : Byte) (s : State), (s.dev.portOpen fr) ∧ ((rights = 1#8 ∨ (rights = 2#8 ∧ s.dev.controlBarred = false))) ∧ (s.dev.fuse.leashPassOff = false) ∧ (s.dev.fuse.leashPassHash ≠ 0) ∧ (s.dev.lsh.nonce.isSome = true) ∧ (s.dev.lsh.lockUntil ≤ s.dev.root)) ∧
    (∃ (fr : LeashFrame) (s : State), (s.dev.portOpen fr) ∧ (s.dev.controlBarred = true)) ∧
    (∃ (fr : LeashFrame) (s : State), (s.dev.sessionPort fr)) ∧
    (∃ (fr : LeashFrame) (s : State), (s.dev.portOpen fr) ∧ (s.dev.rd F.LSH_STAT_rights {} = 0)) ∧
    (∃ (fr : LeashFrame) (s : State), (s.dev.lshOpen = true) ∧ (fr.parityOk = true)) ∧
    (∃ (s : State), (s.dev.lshOpen = true)) ∧
    (∃ (s : State), (s.dev.lsh.wait.isSome = true)) ∧
    (∃ (s : State), (s.dev.rd F.LSH_STAT_rights {} ≠ 0) ∧ (s.dev.mode ≠ .ember)) :=
  ⟨⟨frm, st (up), by unfold Dev.portOpen; decide +kernel⟩,
   ⟨{ frm with parityOk := false }, st (ls), by decide +kernel⟩,
   ⟨frm, 2, 0, 5, st lsO, by unfold Dev.portOpen; exact ⟨by decide +kernel, by decide +kernel, by decide +kernel, lsO_hash, by decide +kernel, by decide +kernel, by decide +kernel⟩⟩,
   ⟨frm, 2, 3, st (ls), by unfold Dev.portOpen; decide +kernel⟩,
   ⟨frm, 2, st ({ ls with fuse := { ls.fuse with leashPassHash := 1 } }), by unfold Dev.portOpen; decide +kernel⟩,
   ⟨frm, st (dv [(F.HRT_MODE_mode, {}, 3)] ls), by unfold Dev.portOpen; decide +kernel⟩,
   ⟨frm, st (ls), by unfold Dev.sessionPort Dev.portOpen; decide +kernel⟩,
   ⟨frm, st (dv [(F.LSH_STAT_rights, {}, 0)] (up)), by unfold Dev.portOpen; decide +kernel⟩,
   ⟨frm, st (up), by decide +kernel⟩,
   ⟨st (up), by decide +kernel⟩,
   ⟨st ({ ls with lsh := { ls.lsh with wait := some (.halt 0) } }), by decide +kernel⟩,
   ⟨st (dv [(F.LSH_STAT_rights, {}, 1)] (up)), by decide +kernel⟩⟩

/-- States and operands that meet the hypotheses of `LeashSessionCommandsComplete`, part 2. -/
theorem test_hyps_LeashSessionCommandsComplete_2 :
    (∃ (s : State), (s.dev.tapActs = true)) ∧
    (∃ (s : State), (s.dev.tapActs = false)) :=
  ⟨⟨st (dv [(F.HRT_MODE_mode, {}, 7)] (up)), by decide +kernel⟩,
   ⟨st (up), by decide +kernel⟩⟩

/-- States and operands that meet the hypotheses of `LeashAccessAndRunControlComplete`, part 1. -/
theorem test_hyps_LeashAccessAndRunControlComplete_1 :
    (∃ (fr : LeashFrame) (addr : Word64) (a : _) (s : State), (s.dev.sessionPort fr) ∧ (s.dev.lshReads = true) ∧ (lshAddr addr = some (0, a)) ∧ (isControl a = true) ∧ (s.dev.dieOff (baseOfAddr a) = false)) ∧
    (∃ (fr : LeashFrame) (addr : Word64) (ans : Option ApAnswer) (key : _) (a : _) (l : _) (d' : _) (s : State), (s.dev.sessionPort fr) ∧ (s.dev.lshReads = true) ∧ (lshAddr addr = some (key, a)) ∧ ((key = 0 ∨ key = 126)) ∧ (isControl a = false) ∧ (s.dev.lshMemory key a 8 = true) ∧ (s.dev.serveRead key a 8 ans = some (.done, l, d'))) ∧
    (∃ (fr : LeashFrame) (s : State), (s.dev.portOpen fr) ∧ (s.dev.rd F.LSH_STAT_rights {} = 0)) ∧
    (∃ (fr : LeashFrame) (addr : Word64) (a : _) (v : _) (d' : _) (s : State), (s.dev.sessionPort fr) ∧ (s.dev.lshReads = true) ∧ (s.dev.lshControl = true) ∧ (lshAddr addr = some (0, a)) ∧ (isControl a = true) ∧ (s.dev.dieOff (baseOfAddr a) = false) ∧ (s.dev.readAt a = (v, d'))) ∧
    (∃ (fr : LeashFrame) (s : State), (s.dev.sessionPort fr) ∧ (s.dev.lshControl = false)) ∧
    (∃ (fr : LeashFrame) (addr : Word64) (value : Word64) (a : _) (d' : _) (s : State), (s.dev.sessionPort fr) ∧ (s.dev.lshWrites = true) ∧ (lshAddr addr = some (0, a)) ∧ (isControl a = true) ∧ (lshNever a = false) ∧ (s.dev.dieOff (baseOfAddr a) = false) ∧ (s.dev.writeAt .leash a value.toNat true = (.done, d'))) ∧
    (∃ (fr : LeashFrame) (addr : Word64) (a : _) (s : State), (s.dev.sessionPort fr) ∧ (s.dev.lshWrites = true) ∧ (lshAddr addr = some (0, a)) ∧ (isControl a = true) ∧ (lshNever a = true)) ∧
    (∃ (fr : LeashFrame) (s : State), (s.dev.sessionPort fr) ∧ (s.dev.lshWrites = false)) ∧
    (∃ (fr : LeashFrame) (addr : Word64) (count : Byte) (ans : List ApAnswer) (key : _) (a : _) (l : _) (d' : _) (s : State), (s.dev.sessionPort fr) ∧ (s.dev.lshReads = true) ∧ (lshAddr addr = some (key, a)) ∧ (1 ≤ count.toNat) ∧ (count.toNat ≤ 28) ∧ (isControl a = false) ∧ (s.dev.lshMemory key a (8 * count.toNat) = true) ∧ (Dev.lshBlock key ans count.toNat a 0 s.dev = (.ok l, d'))) ∧
    (∃ (fr : LeashFrame) (s : State), (s.dev.sessionPort fr) ∧ (s.dev.lshBench = true) ∧ (s.dev.mode = .rehearse)) ∧
    (∃ (fr : LeashFrame) (s : State), (s.dev.sessionPort fr) ∧ (s.dev.lshBench = true) ∧ (s.dev.mode = .bench)) ∧
    (∃ (fr : LeashFrame) (eng : BitVec 16) (s : State), (s.dev.enginePort fr eng.toNat) ∧ (s.dev.engState eng.toNat = 0)) :=
  ⟨⟨frm, BitVec.ofNat 64 crAddr, crAddr, st (ls), by unfold Dev.sessionPort Dev.portOpen; decide +kernel⟩,
   ⟨frm, BitVec.ofNat 64 0x8000000000, none, 0, 0x8000000000, ((ls.serveRead 0 0x8000000000 8 none).getD (.done, [], up)).2.1, ((ls.serveRead 0 0x8000000000 8 none).getD (.done, [], up)).2.2, st ls, by unfold Dev.sessionPort Dev.portOpen; decide +kernel⟩,
   ⟨frm, st (dv [(F.LSH_STAT_rights, {}, 0)] (up)), by unfold Dev.portOpen; decide +kernel⟩,
   ⟨frm, BitVec.ofNat 64 crAddr, crAddr, (ls.readAt crAddr).1, (ls.readAt crAddr).2, st ls, by unfold Dev.sessionPort Dev.portOpen; decide +kernel⟩,
   ⟨frm, st (dv [(F.LSH_STAT_rights, {}, 1)] ls), by unfold Dev.sessionPort Dev.portOpen; decide +kernel⟩,
   ⟨frm, BitVec.ofNat 64 crAddr, BitVec.ofNat 64 (8 * 2 ^ 55 + 0x1000), crAddr, (ls.writeAt .leash crAddr (8 * 2 ^ 55 + 0x1000) true).2, st ls, by unfold Dev.sessionPort Dev.portOpen; decide +kernel⟩,
   ⟨frm, BitVec.ofNat 64 0xF00E000000, 0xF00E000000, st (ls), by unfold Dev.sessionPort Dev.portOpen; decide +kernel⟩,
   ⟨frm, st (dv [(F.LSH_STAT_rights, {}, 1)] ls), by unfold Dev.sessionPort Dev.portOpen; decide +kernel⟩,
   ⟨frm, BitVec.ofNat 64 0x8000000000, 28, [], 0, 0x8000000000, ((Dev.lshBlock 0 [] 28 0x8000000000 0 ls).1.toOption.getD []), (Dev.lshBlock 0 [] 28 0x8000000000 0 ls).2, st ls, by unfold Dev.sessionPort Dev.portOpen; decide +kernel⟩,
   ⟨frm, st (ls), by unfold Dev.sessionPort Dev.portOpen; decide +kernel⟩,
   ⟨frm, st (lsB), by unfold Dev.sessionPort Dev.portOpen; decide +kernel⟩,
   ⟨frm, 1023, st (lsB), by unfold Dev.enginePort Dev.sessionPort Dev.portOpen; decide +kernel⟩⟩

/-- States and operands that meet the hypotheses of `LeashAccessAndRunControlComplete`, part 2. -/
theorem test_hyps_LeashAccessAndRunControlComplete_2 :
    (∃ (fr : LeashFrame) (eng : BitVec 16) (s : State), (s.dev.enginePort fr eng.toNat) ∧ (s.dev.engState eng.toNat = 1)) ∧
    (∃ (fr : LeashFrame) (eng : BitVec 16) (n : Byte) (s : State), (s.dev.enginePort fr eng.toNat) ∧ (1 ≤ n.toNat) ∧ (s.dev.engState eng.toNat = 3)) ∧
    (∃ (fr : LeashFrame) (eng : BitVec 16) (s : State), (s.dev.enginePort fr eng.toNat) ∧ (s.dev.engState eng.toNat = 3)) ∧
    (∃ (fr : LeashFrame) (eng : BitVec 16) (off : BitVec 16) (s : State), (s.dev.enginePort fr eng.toNat) ∧ (off.toNat % 4 = 0) ∧ (off.toNat ≤ 0x1B4) ∧ (s.dev.engState eng.toNat = 3)) ∧
    (∃ (fr : LeashFrame) (eng : BitVec 16) (off : BitVec 16) (v : BitVec 32) (s : State), (s.dev.enginePort fr eng.toNat) ∧ (off.toNat % 4 = 0) ∧ (off.toNat ≤ 0x1B4) ∧ (areaWritable (off.toNat / 4) v.toNat = true) ∧ (s.dev.engState eng.toNat = 3)) ∧
    (∃ (fr : LeashFrame) (eng : BitVec 16) (off : BitVec 16) (v : BitVec 32) (s : State), (s.dev.enginePort fr eng.toNat) ∧ (off.toNat % 4 = 0) ∧ (off.toNat ≤ 0x1B4) ∧ (areaWritable (off.toNat / 4) v.toNat = true) ∧ (s.dev.engState eng.toNat ≠ 3)) ∧
    (∃ (fr : LeashFrame) (eng : BitVec 16) (on : Byte) (s : State), (s.dev.enginePort fr eng.toNat) ∧ (on.toNat ≤ 1)) :=
  ⟨⟨frm, 1023, st (dv [(F.PK_ENG_STAT_state, engIx 1023, 1)] (lsB)), by unfold Dev.enginePort Dev.sessionPort Dev.portOpen; decide +kernel⟩,
   ⟨frm, 1023, 1, st (dv [(F.PK_ENG_STAT_state, engIx 1023, 3)] (lsB)), by unfold Dev.enginePort Dev.sessionPort Dev.portOpen; decide +kernel⟩,
   ⟨frm, 1023, st (dv [(F.PK_ENG_STAT_state, engIx 1023, 3)] (lsB)), by unfold Dev.enginePort Dev.sessionPort Dev.portOpen; decide +kernel⟩,
   ⟨frm, 1023, 0x1B4, st (dv [(F.PK_ENG_STAT_state, engIx 1023, 3)] (lsB)), by unfold Dev.enginePort Dev.sessionPort Dev.portOpen; decide +kernel⟩,
   ⟨frm, 1023, 0x190, 4, st (dv [(F.PK_ENG_STAT_state, engIx 1023, 3)] (lsB)), by unfold Dev.enginePort Dev.sessionPort Dev.portOpen; decide +kernel⟩,
   ⟨frm, 1023, 0x190, 4, st (lsB), by unfold Dev.enginePort Dev.sessionPort Dev.portOpen; decide +kernel⟩,
   ⟨frm, 1023, 1, st (lsB), by unfold Dev.enginePort Dev.sessionPort Dev.portOpen; decide +kernel⟩⟩

/-- States and operands that meet the hypotheses of `StepTakesTheFrontCommand`. -/
theorem test_hyps_StepTakesTheFrontCommand :
    (∃ (s : State), (s.pending = [])) :=
  ⟨st (up), by decide +kernel⟩

/-- States and operands that meet the hypotheses of `EveryWellFormedCommandCompletes`. -/
theorem test_hyps_EveryWellFormedCommandCompletes :
    (∃ (c : Instr), (c.wf = true)) ∧
    (∃ (x : List Byte), (x.length ≠ 256)) :=
  ⟨⟨.timePpsEdge, by decide +kernel⟩,
   ⟨[], by decide +kernel⟩⟩

/-- States and operands that meet the hypotheses of `CommandsLeaveTheQueue`. -/
theorem test_hyps_CommandsLeaveTheQueue :
    (∃ (c : Instr) (s : State), (∃ t, exec c s = .next t)) ∧
    (∃ (s : State), (∃ t, step s = .next t)) :=
  ⟨⟨.timePpsEdge, State.reset, by exact ⟨_, rfl⟩⟩,
   ⟨st (up), by exact ⟨_, rfl⟩⟩⟩

/-- States and operands that meet the hypotheses of `EveryStepEndsInASafeState`. -/
theorem test_hyps_EveryStepEndsInASafeState :
    (∃ (s : State), (∃ t, step s = .next t)) :=
  ⟨st (up), by exact ⟨_, rfl⟩⟩

/-- States and operands that meet the hypotheses of `RunsOfWellFormedCommandsAreSafe`. -/
theorem test_hyps_RunsOfWellFormedCommandsAreSafe :
    (∃ (s : State), (s.safe) ∧ ((∀ c ∈ s.pending, c.wf = true))) :=
  ⟨st (up), by unfold State.safe Dev.fenceRule Dev.leashRule; decide +kernel⟩

/-- States and operands that meet the hypotheses of `DelaySlots`. -/
theorem test_hyps_DelaySlots :
    (∃ (e : Fin 1024) (c : Fin 16) (z : State), (z.dev.engReady e) ∧ (∃ t, (z.dev.engView e).cond c = some t)) ∧
    (∃ (e : Fin 1024) (z : State), (z.dev.engReady e)) ∧
    (∃ (e : Fin 1024) (s : Fin 32) (z : State), (z.dev.engReady e) ∧ (∃ t, regTarget (z.dev.engView e) s = .ok t)) ∧
    (∃ (e : Fin 1024) (z : State), (z.dev.engReady e) ∧ ((z.dev.engView e).rd .late locIH ≠ 0)) ∧
    (∃ (d : Dev) (e : Nat) (r : Redirect) (f : EngSt → Except Nat EngSt) (y : EngSt), (d.engSlot e r) ∧ (f (d.engView e) = .ok y) ∧ (y.redirect = some r) ∧ (1 < r.left)) ∧
    (∃ (d : Dev) (e : Nat) (r : Redirect) (f : EngSt → Except Nat EngSt) (y : _), (d.engSlot e r) ∧ (f (d.engView e) = .ok y) ∧ (y.redirect = some r) ∧ (r.left ≤ 1) ∧ (r.reti = false)) ∧
    (∃ (e : Fin 1024) (r : _) (z : State), (z.dev.engSlot e r)) :=
  ⟨⟨0, 0, st (egs), by unfold Dev.engReady; exact ⟨(by decide +kernel), (someOf1 (by decide +kernel))⟩⟩,
   ⟨0, st (egs), by unfold Dev.engReady; decide +kernel⟩,
   ⟨0, 0, st (egs), by unfold Dev.engReady; exact ⟨(by decide +kernel), (okOf1 (by decide +kernel))⟩⟩,
   ⟨0, st (eg1 { es with regs := [(135, 1)] }), by unfold Dev.engReady; decide +kernel⟩,
   ⟨eg1 { es with redirect := some { target := 0, left := 2, reti := false } }, 0, { target := 0, left := 2, reti := false }, fun x => .ok x, (eg1 { es with redirect := some { target := 0, left := 2, reti := false } }).engView 0, by unfold Dev.engSlot; decide +kernel⟩,
   ⟨eg1 { es with redirect := some { target := 0, left := 1, reti := false } }, 0, { target := 0, left := 1, reti := false }, fun x => .ok x, (eg1 { es with redirect := some { target := 0, left := 1, reti := false } }).engView 0, by unfold Dev.engSlot; decide +kernel⟩,
   ⟨0, { target := 0, left := 2, reti := false }, st (eg1 { es with redirect := some { target := 0, left := 2, reti := false } }), by unfold Dev.engSlot; decide +kernel⟩⟩

/-- States and operands that meet the hypotheses of `BranchConditions`. -/
theorem test_hyps_BranchConditions :
    (∃ (e : Fin 1024) (c : Fin 16) (z : State), (z.dev.engReady e) ∧ (c.val ≤ 12)) ∧
    (∃ (e : Fin 1024) (c : Fin 16) (z : State), (z.dev.engReady e) ∧ (13 ≤ c.val)) ∧
    (∃ (e : Fin 1024) (z : State), (z.dev.engReady e)) :=
  ⟨⟨0, 0, st (egs), by unfold Dev.engReady; decide +kernel⟩,
   ⟨0, 13, st (egs), by unfold Dev.engReady; decide +kernel⟩,
   ⟨0, st (egs), by unfold Dev.engReady; decide +kernel⟩⟩

/-- States and operands that meet the hypotheses of `UnlocksNeedTheirProof`. -/
theorem test_hyps_UnlocksNeedTheirProof :
    (∃ (fr : LeashFrame) (rights : Byte) (slot : Byte) (s : State), (s.dev.portOpen fr) ∧ (slot.toNat ≤ 3) ∧ ((rights = 1#8 ∨ (rights = 2#8 ∧ s.dev.controlBarred = false))) ∧ (s.dev.lsh.nonce.isSome = true) ∧ (s.dev.lsh.lockUntil ≤ s.dev.root)) ∧
    (∃ (fr : LeashFrame) (rights : Byte) (s : State), (s.dev.portOpen fr) ∧ ((rights = 1#8 ∨ (rights = 2#8 ∧ s.dev.controlBarred = false))) ∧ (s.dev.lsh.nonce.isSome = true) ∧ (s.dev.lsh.lockUntil ≤ s.dev.root)) :=
  ⟨⟨frm, 2, 3, st (ls), by unfold Dev.portOpen; decide +kernel⟩,
   ⟨frm, 2, st (ls), by unfold Dev.portOpen; decide +kernel⟩⟩

/-- States and operands that meet the hypotheses of `PeekReadsChangeNothing`. -/
theorem test_hyps_PeekReadsChangeNothing :
    (∃ (fr : LeashFrame) (addr : Word64) (key : _) (a : _) (t : _) (s : State), (s.dev.sessionPort fr) ∧ (s.dev.lshReads = true) ∧ (lshAddr addr = some (key, a)) ∧ ((key = 0 ∨ key = 126)) ∧ (isControl a = true) ∧ (s.dev.dieOff (baseOfAddr a) = false) ∧ (findReg a = some t)) :=
  ⟨frm, BitVec.ofNat 64 crAddr, 0, crAddr, (findReg crAddr).get (by decide +kernel), st (ls), by unfold Dev.sessionPort Dev.portOpen; decide +kernel⟩

/-- States and operands that meet the hypotheses of `EngineRegisterInstructionsFrame`, part 1. -/
theorem test_hyps_EngineRegisterInstructionsFrame_1 :
    (∃ (e : Fin 1024) (d : Fin 32) (s : Fin 32) (q : Fin 32) (z : State), (z.dev.engReady e) ∧ (∃ t, exec (.add e d s q) z = .next t)) ∧
    (∃ (e : Fin 1024) (d : Fin 32) (s : Fin 32) (q : Fin 32) (z : State), (z.dev.engReady e) ∧ (∃ t, exec (.sub e d s q) z = .next t)) ∧
    (∃ (e : Fin 1024) (d : Fin 32) (s : Fin 32) (q : Fin 32) (z : State), (z.dev.engReady e) ∧ (∃ t, exec (.and e d s q) z = .next t)) ∧
    (∃ (e : Fin 1024) (d : Fin 32) (s : Fin 32) (q : Fin 32) (z : State), (z.dev.engReady e) ∧ (∃ t, exec (.or e d s q) z = .next t)) ∧
    (∃ (e : Fin 1024) (d : Fin 32) (s : Fin 32) (q : Fin 32) (z : State), (z.dev.engReady e) ∧ (∃ t, exec (.xor e d s q) z = .next t)) ∧
    (∃ (e : Fin 1024) (d : Fin 32) (s : Fin 32) (q : Fin 32) (z : State), (z.dev.engReady e) ∧ (∃ t, exec (.sll e d s q) z = .next t)) ∧
    (∃ (e : Fin 1024) (d : Fin 32) (s : Fin 32) (q : Fin 32) (z : State), (z.dev.engReady e) ∧ (∃ t, exec (.srl e d s q) z = .next t)) ∧
    (∃ (e : Fin 1024) (d : Fin 32) (s : Fin 32) (q : Fin 32) (z : State), (z.dev.engReady e) ∧ (∃ t, exec (.sra e d s q) z = .next t)) ∧
    (∃ (e : Fin 1024) (d : Fin 32) (s : Fin 32) (q : Fin 32) (z : State), (z.dev.engReady e) ∧ (∃ t, exec (.mulh e d s q) z = .next t)) ∧
    (∃ (e : Fin 1024) (d : Fin 32) (s : Fin 32) (q : Fin 32) (z : State), (z.dev.engReady e) ∧ (∃ t, exec (.min e d s q) z = .next t)) ∧
    (∃ (e : Fin 1024) (d : Fin 32) (s : Fin 32) (q : Fin 32) (z : State), (z.dev.engReady e) ∧ (∃ t, exec (.max e d s q) z = .next t)) ∧
    (∃ (e : Fin 1024) (d : Fin 32) (s : Fin 32) (q : Fin 32) (z : State), (z.dev.engReady e) ∧ (∃ t, exec (.slt e d s q) z = .next t)) :=
  ⟨⟨0, 0, 0, 0, st (egs), by unfold Dev.engReady; exact ⟨(by decide +kernel), ⟨_, rfl⟩⟩⟩,
   ⟨0, 0, 0, 0, st (egs), by unfold Dev.engReady; exact ⟨(by decide +kernel), ⟨_, rfl⟩⟩⟩,
   ⟨0, 0, 0, 0, st (egs), by unfold Dev.engReady; exact ⟨(by decide +kernel), ⟨_, rfl⟩⟩⟩,
   ⟨0, 0, 0, 0, st (egs), by unfold Dev.engReady; exact ⟨(by decide +kernel), ⟨_, rfl⟩⟩⟩,
   ⟨0, 0, 0, 0, st (egs), by unfold Dev.engReady; exact ⟨(by decide +kernel), ⟨_, rfl⟩⟩⟩,
   ⟨0, 0, 0, 0, st (egs), by unfold Dev.engReady; exact ⟨(by decide +kernel), ⟨_, rfl⟩⟩⟩,
   ⟨0, 0, 0, 0, st (egs), by unfold Dev.engReady; exact ⟨(by decide +kernel), ⟨_, rfl⟩⟩⟩,
   ⟨0, 0, 0, 0, st (egs), by unfold Dev.engReady; exact ⟨(by decide +kernel), ⟨_, rfl⟩⟩⟩,
   ⟨0, 0, 0, 0, st (egs), by unfold Dev.engReady; exact ⟨(by decide +kernel), ⟨_, rfl⟩⟩⟩,
   ⟨0, 0, 0, 0, st (egs), by unfold Dev.engReady; exact ⟨(by decide +kernel), ⟨_, rfl⟩⟩⟩,
   ⟨0, 0, 0, 0, st (egs), by unfold Dev.engReady; exact ⟨(by decide +kernel), ⟨_, rfl⟩⟩⟩,
   ⟨0, 0, 0, 0, st (egs), by unfold Dev.engReady; exact ⟨(by decide +kernel), ⟨_, rfl⟩⟩⟩⟩

/-- States and operands that meet the hypotheses of `EngineRegisterInstructionsFrame`, part 2. -/
theorem test_hyps_EngineRegisterInstructionsFrame_2 :
    (∃ (e : Fin 1024) (d : Fin 32) (s : Fin 32) (q : Fin 32) (z : State), (z.dev.engReady e) ∧ (∃ t, exec (.sltu e d s q) z = .next t)) ∧
    (∃ (e : Fin 1024) (d : Fin 32) (s : Fin 32) (q : Fin 32) (z : State), (z.dev.engReady e) ∧ ((pwReg q (z.dev.engView e)).2 ≠ 0) ∧ ((pwReg q (z.dev.engView e)).1 + (pwReg q (z.dev.engView e)).2 ≤ 32) ∧ (∃ t, exec (.extur e d s q) z = .next t)) ∧
    (∃ (e : Fin 1024) (d : Fin 32) (s : Fin 32) (q : Fin 32) (z : State), (z.dev.engReady e) ∧ ((pwReg q (z.dev.engView e)).2 ≠ 0) ∧ ((pwReg q (z.dev.engView e)).1 + (pwReg q (z.dev.engView e)).2 ≤ 32) ∧ (∃ t, exec (.extsr e d s q) z = .next t)) ∧
    (∃ (e : Fin 1024) (d : Fin 32) (s : Fin 32) (q : Fin 32) (z : State), (z.dev.engReady e) ∧ ((pwReg q (z.dev.engView e)).2 ≠ 0) ∧ ((pwReg q (z.dev.engView e)).1 + (pwReg q (z.dev.engView e)).2 ≤ 32) ∧ (∃ t, exec (.insr e d s q) z = .next t)) ∧
    (∃ (e : Fin 1024) (d : Fin 32) (s : Fin 32) (sh : Fin 32) (z : State), (z.dev.engReady e) ∧ (∃ t, exec (.slli e d s sh) z = .next t)) ∧
    (∃ (e : Fin 1024) (d : Fin 32) (s : Fin 32) (sh : Fin 32) (z : State), (z.dev.engReady e) ∧ (∃ t, exec (.srli e d s sh) z = .next t)) ∧
    (∃ (e : Fin 1024) (d : Fin 32) (s : Fin 32) (sh : Fin 32) (z : State), (z.dev.engReady e) ∧ (∃ t, exec (.srai e d s sh) z = .next t)) ∧
    (∃ (e : Fin 1024) (d : Fin 32) (s : Fin 32) (z : State), (z.dev.engReady e) ∧ (∃ t, exec (.abs e d s) z = .next t)) ∧
    (∃ (e : Fin 1024) (d : Fin 32) (s : Fin 32) (z : State), (z.dev.engReady e) ∧ (∃ t, exec (.norm e d s) z = .next t)) ∧
    (∃ (e : Fin 1024) (d : Fin 32) (s : Fin 32) (z : State), (z.dev.engReady e) ∧ (∃ t, exec (.sat16 e d s) z = .next t)) ∧
    (∃ (e : Fin 1024) (d : Fin 32) (s : Fin 32) (z : State), (z.dev.engReady e) ∧ (∃ t, exec (.bswap e d s) z = .next t)) ∧
    (∃ (e : Fin 1024) (d : Fin 32) (s : Fin 32) (z : State), (z.dev.engReady e) ∧ (∃ t, exec (.clz e d s) z = .next t)) :=
  ⟨⟨0, 0, 0, 0, st (egs), by unfold Dev.engReady; exact ⟨(by decide +kernel), ⟨_, rfl⟩⟩⟩,
   ⟨0, 0, 0, 2, st (egs), by unfold Dev.engReady; exact ⟨(by decide +kernel), (by decide +kernel), (by decide +kernel), ⟨_, rfl⟩⟩⟩,
   ⟨0, 0, 0, 2, st (egs), by unfold Dev.engReady; exact ⟨(by decide +kernel), (by decide +kernel), (by decide +kernel), ⟨_, rfl⟩⟩⟩,
   ⟨0, 0, 0, 2, st (egs), by unfold Dev.engReady; exact ⟨(by decide +kernel), (by decide +kernel), (by decide +kernel), ⟨_, rfl⟩⟩⟩,
   ⟨0, 0, 0, 0, st (egs), by unfold Dev.engReady; exact ⟨(by decide +kernel), ⟨_, rfl⟩⟩⟩,
   ⟨0, 0, 0, 0, st (egs), by unfold Dev.engReady; exact ⟨(by decide +kernel), ⟨_, rfl⟩⟩⟩,
   ⟨0, 0, 0, 0, st (egs), by unfold Dev.engReady; exact ⟨(by decide +kernel), ⟨_, rfl⟩⟩⟩,
   ⟨0, 0, 0, st (egs), by unfold Dev.engReady; exact ⟨(by decide +kernel), ⟨_, rfl⟩⟩⟩,
   ⟨0, 0, 0, st (egs), by unfold Dev.engReady; exact ⟨(by decide +kernel), ⟨_, rfl⟩⟩⟩,
   ⟨0, 0, 0, st (egs), by unfold Dev.engReady; exact ⟨(by decide +kernel), ⟨_, rfl⟩⟩⟩,
   ⟨0, 0, 0, st (egs), by unfold Dev.engReady; exact ⟨(by decide +kernel), ⟨_, rfl⟩⟩⟩,
   ⟨0, 0, 0, st (egs), by unfold Dev.engReady; exact ⟨(by decide +kernel), ⟨_, rfl⟩⟩⟩⟩

/-- States and operands that meet the hypotheses of `EngineRegisterInstructionsFrame`, part 3. -/
theorem test_hyps_EngineRegisterInstructionsFrame_3 :
    (∃ (e : Fin 1024) (d : Fin 32) (s : Fin 32) (z : State), (z.dev.engReady e) ∧ (∃ t, exec (.popc e d s) z = .next t)) ∧
    (∃ (e : Fin 1024) (d : Fin 32) (s : Fin 32) (z : State), (z.dev.engReady e) ∧ (∃ t, exec (.brev e d s) z = .next t)) ∧
    (∃ (e : Fin 1024) (d : Fin 32) (s : Fin 32) (i : BitVec 16) (z : State), (z.dev.engReady e) ∧ (∃ t, exec (.addi e d s i) z = .next t)) ∧
    (∃ (e : Fin 1024) (d : Fin 32) (s : Fin 32) (i : BitVec 16) (z : State), (z.dev.engReady e) ∧ (∃ t, exec (.andi e d s i) z = .next t)) ∧
    (∃ (e : Fin 1024) (d : Fin 32) (s : Fin 32) (i : BitVec 16) (z : State), (z.dev.engReady e) ∧ (∃ t, exec (.ori e d s i) z = .next t)) ∧
    (∃ (e : Fin 1024) (d : Fin 32) (s : Fin 32) (i : BitVec 16) (z : State), (z.dev.engReady e) ∧ (∃ t, exec (.xori e d s i) z = .next t)) ∧
    (∃ (e : Fin 1024) (d : Fin 32) (s : Fin 32) (i : BitVec 16) (z : State), (z.dev.engReady e) ∧ (∃ t, exec (.lui e d s i) z = .next t)) ∧
    (∃ (e : Fin 1024) (d : Fin 32) (s : Fin 32) (i : BitVec 16) (z : State), (z.dev.engReady e) ∧ (∃ t, exec (.slti e d s i) z = .next t)) ∧
    (∃ (e : Fin 1024) (d : Fin 32) (s : Fin 32) (pos : Fin 32) (wm1 : Fin 32) (z : State), (z.dev.engReady e) ∧ (pos.val + (wm1.val + 1) ≤ 32) ∧ (∃ t, exec (.extu e d s pos wm1) z = .next t)) ∧
    (∃ (e : Fin 1024) (d : Fin 32) (s : Fin 32) (pos : Fin 32) (wm1 : Fin 32) (z : State), (z.dev.engReady e) ∧ (pos.val + (wm1.val + 1) ≤ 32) ∧ (∃ t, exec (.exts e d s pos wm1) z = .next t)) ∧
    (∃ (e : Fin 1024) (d : Fin 32) (s : Fin 32) (pos : Fin 32) (wm1 : Fin 32) (z : State), (z.dev.engReady e) ∧ (pos.val + (wm1.val + 1) ≤ 32) ∧ (∃ t, exec (.ins e d s pos wm1) z = .next t)) ∧
    (∃ (e : Fin 1024) (d : Fin 32) (s : Fin 32) (q : Fin 32) (sh : Fin 32) (z : State), (z.dev.engReady e) ∧ (∃ t, exec (.shld e d s q sh) z = .next t)) :=
  ⟨⟨0, 0, 0, st (egs), by unfold Dev.engReady; exact ⟨(by decide +kernel), ⟨_, rfl⟩⟩⟩,
   ⟨0, 0, 0, st (egs), by unfold Dev.engReady; exact ⟨(by decide +kernel), ⟨_, rfl⟩⟩⟩,
   ⟨0, 0, 0, 0, st (egs), by unfold Dev.engReady; exact ⟨(by decide +kernel), ⟨_, rfl⟩⟩⟩,
   ⟨0, 0, 0, 0, st (egs), by unfold Dev.engReady; exact ⟨(by decide +kernel), ⟨_, rfl⟩⟩⟩,
   ⟨0, 0, 0, 0, st (egs), by unfold Dev.engReady; exact ⟨(by decide +kernel), ⟨_, rfl⟩⟩⟩,
   ⟨0, 0, 0, 0, st (egs), by unfold Dev.engReady; exact ⟨(by decide +kernel), ⟨_, rfl⟩⟩⟩,
   ⟨0, 0, 0, 0, st (egs), by unfold Dev.engReady; exact ⟨(by decide +kernel), ⟨_, rfl⟩⟩⟩,
   ⟨0, 0, 0, 0, st (egs), by unfold Dev.engReady; exact ⟨(by decide +kernel), ⟨_, rfl⟩⟩⟩,
   ⟨0, 0, 0, 0, 0, st (egs), by unfold Dev.engReady; exact ⟨(by decide +kernel), (by decide +kernel), ⟨_, rfl⟩⟩⟩,
   ⟨0, 0, 0, 0, 0, st (egs), by unfold Dev.engReady; exact ⟨(by decide +kernel), (by decide +kernel), ⟨_, rfl⟩⟩⟩,
   ⟨0, 0, 0, 0, 0, st (egs), by unfold Dev.engReady; exact ⟨(by decide +kernel), (by decide +kernel), ⟨_, rfl⟩⟩⟩,
   ⟨0, 0, 0, 0, 0, st (egs), by unfold Dev.engReady; exact ⟨(by decide +kernel), ⟨_, rfl⟩⟩⟩⟩

/-- States and operands that meet the hypotheses of `EngineRegisterInstructionsFrame`, part 4. -/
theorem test_hyps_EngineRegisterInstructionsFrame_4 :
    (∃ (e : Fin 1024) (d : Fin 32) (s : Fin 32) (q : Fin 32) (z : State), (z.dev.engReady e) ∧ (vecOk d = true) ∧ (vecOk s = true) ∧ (vecOk q = true) ∧ (∃ t, exec (.vadd e d s q) z = .next t)) ∧
    (∃ (e : Fin 1024) (d : Fin 32) (s : Fin 32) (q : Fin 32) (z : State), (z.dev.engReady e) ∧ (vecOk d = true) ∧ (vecOk s = true) ∧ (vecOk q = true) ∧ (∃ t, exec (.vsub e d s q) z = .next t)) ∧
    (∃ (e : Fin 1024) (d : Fin 32) (s : Fin 32) (q : Fin 32) (z : State), (z.dev.engReady e) ∧ (vecOk d = true) ∧ (vecOk s = true) ∧ (vecOk q = true) ∧ (∃ t, exec (.vadds e d s q) z = .next t)) ∧
    (∃ (e : Fin 1024) (d : Fin 32) (s : Fin 32) (q : Fin 32) (z : State), (z.dev.engReady e) ∧ (vecOk d = true) ∧ (vecOk s = true) ∧ (vecOk q = true) ∧ (∃ t, exec (.vsubs e d s q) z = .next t)) ∧
    (∃ (e : Fin 1024) (d : Fin 32) (s : Fin 32) (q : Fin 32) (z : State), (z.dev.engReady e) ∧ (vecOk d = true) ∧ (vecOk s = true) ∧ (vecOk q = true) ∧ (∃ t, exec (.vmin e d s q) z = .next t)) ∧
    (∃ (e : Fin 1024) (d : Fin 32) (s : Fin 32) (q : Fin 32) (z : State), (z.dev.engReady e) ∧ (vecOk d = true) ∧ (vecOk s = true) ∧ (vecOk q = true) ∧ (∃ t, exec (.vmax e d s q) z = .next t)) ∧
    (∃ (e : Fin 1024) (d : Fin 32) (a : Fin 4) (l : Fin 4) (z : State), (z.dev.engReady e) ∧ (∃ t, exec (.accr e d a l) z = .next t)) ∧
    (∃ (e : Fin 1024) (g : Fin 32) (i : Fin 64) (z : State), (z.dev.engReady e) ∧ (i.val < 32) ∧ (∃ t, exec (.movs e g i) z = .next t)) :=
  ⟨⟨0, 2, 4, 6, st (egs), by unfold Dev.engReady; exact ⟨(by decide +kernel), (by decide +kernel), (by decide +kernel), (by decide +kernel), ⟨_, rfl⟩⟩⟩,
   ⟨0, 2, 4, 6, st (egs), by unfold Dev.engReady; exact ⟨(by decide +kernel), (by decide +kernel), (by decide +kernel), (by decide +kernel), ⟨_, rfl⟩⟩⟩,
   ⟨0, 2, 4, 6, st (egs), by unfold Dev.engReady; exact ⟨(by decide +kernel), (by decide +kernel), (by decide +kernel), (by decide +kernel), ⟨_, rfl⟩⟩⟩,
   ⟨0, 2, 4, 6, st (egs), by unfold Dev.engReady; exact ⟨(by decide +kernel), (by decide +kernel), (by decide +kernel), (by decide +kernel), ⟨_, rfl⟩⟩⟩,
   ⟨0, 2, 4, 6, st (egs), by unfold Dev.engReady; exact ⟨(by decide +kernel), (by decide +kernel), (by decide +kernel), (by decide +kernel), ⟨_, rfl⟩⟩⟩,
   ⟨0, 2, 4, 6, st (egs), by unfold Dev.engReady; exact ⟨(by decide +kernel), (by decide +kernel), (by decide +kernel), (by decide +kernel), ⟨_, rfl⟩⟩⟩,
   ⟨0, 0, 0, 0, st (egs), by unfold Dev.engReady; exact ⟨(by decide +kernel), ⟨_, rfl⟩⟩⟩,
   ⟨0, 0, 0, st (egs), by unfold Dev.engReady; exact ⟨(by decide +kernel), (by decide +kernel), ⟨_, rfl⟩⟩⟩⟩

/-- States and operands that meet the hypotheses of `EngineStoresFrame`. -/
theorem test_hyps_EngineStoresFrame :
    (∃ (e : Fin 1024) (g : Fin 32) (m : MemOp) (z : State), (z.dev.engReady e) ∧ (∃ a y, (z.dev.engView e).opM m 2 = .ok (a, y)) ∧ (∃ t, exec (.st e g m 0) z = .next t)) ∧
    (∃ (e : Fin 1024) (g : Fin 32) (m : MemOp) (z : State), (z.dev.engReady e) ∧ (∃ a y, (z.dev.engView e).opM m 4 = .ok (a, y)) ∧ (∃ t, exec (.st e g m 1) z = .next t)) ∧
    (∃ (e : Fin 1024) (g : Fin 32) (m : MemOp) (z : State), (z.dev.engReady e) ∧ (vecOk g = true) ∧ (∃ a y, (z.dev.engView e).opM m 8 = .ok (a, y)) ∧ (∃ t, exec (.st e g m 2) z = .next t)) ∧
    (∃ (e : Fin 1024) (i : Fin 32) (m : MemOp) (z : State), (z.dev.engReady e) ∧ (∃ a y, (z.dev.engView e).opM m 2 = .ok (a, y)) ∧ (∃ t, exec (.sts e i m) z = .next t)) ∧
    (∃ (e : Fin 1024) (g : Fin 32) (m : MemOp) (z : State), (z.dev.engReady e) ∧ (∃ a y, (z.dev.engView e).opM m 2 = .ok (a, y)) ∧ (∃ t, exec (.ld e g m 0 false false) z = .next t)) ∧
    (∃ (e : Fin 1024) (g : Fin 32) (m : MemOp) (z : State), (z.dev.engReady e) ∧ (∃ a y, (z.dev.engView e).opM m 4 = .ok (a, y)) ∧ (∃ t, exec (.ld e g m 1 false false) z = .next t)) :=
  ⟨⟨0, 0, mo, st (egs), by unfold Dev.engReady; exact ⟨(by decide +kernel), (okOf2 (by decide +kernel)), ⟨_, rfl⟩⟩⟩,
   ⟨0, 0, mo, st (egs), by unfold Dev.engReady; exact ⟨(by decide +kernel), (okOf2 (by decide +kernel)), ⟨_, rfl⟩⟩⟩,
   ⟨0, 2, mo, st (egs), by unfold Dev.engReady; exact ⟨(by decide +kernel), (by decide +kernel), (okOf2 (by decide +kernel)), ⟨_, rfl⟩⟩⟩,
   ⟨0, 0, mo, st (egs), by unfold Dev.engReady; exact ⟨(by decide +kernel), (okOf2 (by decide +kernel)), ⟨_, rfl⟩⟩⟩,
   ⟨0, 0, mo, st (egs), by unfold Dev.engReady; exact ⟨(by decide +kernel), (okOf2 (by decide +kernel)), ⟨_, rfl⟩⟩⟩,
   ⟨0, 0, mo, st (egs), by unfold Dev.engReady; exact ⟨(by decide +kernel), (okOf2 (by decide +kernel)), ⟨_, rfl⟩⟩⟩⟩

end Sys2Proof.Tests
end

/-! What the Leash port's READ of control space comes to (R8, R546): a request within a session that may read, answered by the peek path, which
only appends the answer to what the device has sent. -/

namespace Sys2Proof.Machine

/-! ### A request that passes the port's checks -/

/-- A frame that reaches the port in order is acted on (R536 to R538). -/
theorem Dev.request_of_portOpen {d : Dev} {fr : LeashFrame} (h : d.portOpen fr) (f : Dev → Dev) : d.request fr f = f d := by
  obtain ⟨hopen, hparity, hlen⟩ := h
  simp [Dev.request, hopen, hparity, hlen]

/-- An unlocked session with the right in effect gets through (R544). -/
theorem Dev.withRights_of_session {d : Dev} (hs : d.rd F.LSH_STAT_rights {} ≠ 0) (f : Dev → Dev) : d.withRights true f = f d := by
  simp [Dev.withRights, hs]

/-! ### The peek path -/

/-- A flag sent as one byte. -/
theorem numBytes_flag (b : Bool) : numBytes b.toNat 1 = [if b then 1#8 else 0#8] := by cases b <;> rfl

theorem Dev.peekAt_of_findReg (d : Dev) {a : Nat} {t : Target} (h : findReg a = some t) : d.peekAt a = (d.regRead t.reg t.ix, t.reg.hasRC) := by
  simp [Dev.peekAt, h]

/-- A READ of control space sends what the peek path gives and does nothing else (R546). -/
theorem Dev.lshRead_peeks {d : Dev} {addr : Word64} {key a : Nat} (ans : Option ApAnswer) (haddr : lshAddr addr = some (key, a))
    (hkey : key = 0 ∨ key = 126) (hctl : isControl a = true) (hon : d.dieOff (baseOfAddr a) = false) :
    d.lshRead false addr ans = d.emit (.leash 1 (numBytes (d.peekAt a).1 8 ++ numBytes (d.peekAt a).2.toNat 1)) := by
  obtain rfl | rfl := hkey <;> simp [Dev.lshRead, haddr, hctl, hon, Dev.ack]

/-- LEASH_READ of a register in a session that may read: the value, and whether the register holds an RC field (R8, R546). -/
theorem exec_leashRead_control {fr : LeashFrame} {addr : Word64} (ans : Option ApAnswer) {key a : Nat} {t : Target} {s : State}
    (hport : s.dev.sessionPort fr) (hreads : s.dev.lshReads = true) (haddr : lshAddr addr = some (key, a)) (hkey : key = 0 ∨ key = 126)
    (hctl : isControl a = true) (hon : s.dev.dieOff (baseOfAddr a) = false) (hreg : findReg a = some t) :
    exec (.leashRead fr addr ans) s =
      .next (s.after fun d => d.emit (.leash 1 (numBytes (d.regRead t.reg t.ix) 8 ++ [if t.reg.hasRC then 1#8 else 0#8]))) := by
  obtain ⟨hopen, hsession⟩ := hport
  have hact : s.dev.request fr (fun d => d.withRights d.lshReads fun d => d.lshRead false addr ans) =
      s.dev.emit (.leash 1 (numBytes (s.dev.regRead t.reg t.ix) 8 ++ [if t.reg.hasRC then 1#8 else 0#8])) := by
    rw [Dev.request_of_portOpen hopen, hreads, Dev.withRights_of_session hsession, Dev.lshRead_peeks ans haddr hkey hctl hon,
      Dev.peekAt_of_findReg _ hreg, numBytes_flag]
  exact congrArg (fun d : Dev => Host.Outcome.next { s with dev := d.settle }) hact

/-! ### What the device has sent is no part of what a register reads (log entry 8) -/

/-- The rules for values computed at a read name the parts of the device that they use, and none of them uses what it has sent. -/
theorem Dev.readHook_emit (d : Dev) (o : Output) (r : Reg) (a : Ix) : (d.emit o).readHook r a = d.readHook r a := rfl

theorem Dev.plainValue_emit (d : Dev) (o : Output) (r : Reg) (a : Ix) : (d.emit o).plainValue r a = d.plainValue r a := by
  simp only [Dev.plainValue, Dev.rd_emit]

theorem Dev.regRead_emit (d : Dev) (o : Output) (r : Reg) (a : Ix) : (d.emit o).regRead r a = d.regRead r a := by
  simp only [Dev.regRead, Dev.readHook_emit, Dev.plainValue_emit]

/-- Settles O58: a READ gets through to the peek path, and the answer it sends is no part of what a register reads. -/
theorem peekReadsChangeNothing : Obligations.PeekReadsChangeNothing := by
  unfold Obligations.PeekReadsChangeNothing
  refine ⟨?_, Dev.rd_emit, Dev.regRead_emit⟩
  intro fr addr ans key a t s hport hreads haddr hkey hctl hon hreg
  exact exec_leashRead_control ans hport hreads haddr hkey hctl hon hreg

end Sys2Proof.Machine

/-! Delay slots (R333): what the issue of a branch, of an instruction in a slot and of an instruction barred from slots comes to. -/

namespace Sys2Proof.Machine

/-! ### Where pc goes behind a slot -/

/-- The block-end checks touch pc, the block-end mark and the writes in flight only. -/
theorem EngSt.advance_eq (x : EngSt) : ∃ p c b, x.advance = { x with pend := p, pc := c, atEnd := b } := by
  unfold EngSt.advance EngSt.blockEnd
  dsimp only
  split_ifs <;> exact ⟨_, _, _, rfl⟩

@[simp] theorem EngSt.advance_redirect (x : EngSt) : x.advance.redirect = x.redirect := by
  obtain ⟨p, c, b, h⟩ := x.advance_eq
  rw [h]

@[simp] theorem EngSt.advance_n (x : EngSt) : x.advance.n = x.n := by
  obtain ⟨p, c, b, h⟩ := x.advance_eq
  rw [h]

/-- Behind the first slot one is left. -/
theorem EngSt.moveOn_firstSlot {x : EngSt} {r : Redirect} (hx : x.redirect = some r) (hleft : 1 < r.left) :
    x.moveOn false = { x.advance with redirect := some { r with left := r.left - 1 }, n := x.n + 1 } := by
  simp [EngSt.moveOn, hx, hleft]

/-- Behind the second slot the branch goes to its target. -/
theorem EngSt.moveOn_lastSlot {x : EngSt} {r : Redirect} (hx : x.redirect = some r) (hleft : r.left ≤ 1) (hreti : r.reti = false) :
    x.moveOn false = { x.advance with redirect := none, pc := r.target, n := x.n + 1 } := by
  simp [EngSt.moveOn, hx, hreti, Nat.not_lt.mpr hleft]

/-! ### The device at an issue -/

@[simp] theorem Dev.engState_engIssued (d : Dev) (e k : Nat) : (d.engIssued e).engState k = d.engState k := Dev.engState_count d _ _ _ _ _ k

@[simp] theorem Dev.taskOn_engIssued (d : Dev) (e k : Nat) : (d.engIssued e).taskOn k = d.taskOn k := by
  unfold Dev.taskOn Dev.engIssued
  rw [Dev.count_ken]

theorem EngSt.with_rpt_none {x : EngSt} (h : x.rpt = none) : { x with rpt := none } = x := by
  rw [← h]

theorem Dev.count_eq_engIssued (d : Dev) (e : Nat) : d.count (e / 256) 6 208 (e % 256) 1 = d.engIssued e := rfl

/-- An instruction that may stand in a slot issues once, on the engine as it reads it, and moves on as no branch. -/
theorem Dev.run_slot_pure {d : Dev} {e : Nat} {r : Redirect} {f : EngSt → Except Nat EngSt} {y : EngSt} (h : d.engSlot e r)
    (hf : f (d.engView e) = .ok y) : d.run e .free (pureOp f) = d.engDone e y := by
  obtain ⟨hstate, hmode, hpc, hredirect, hrpt, -⟩ := h
  have hissue : repeatIssue (pureOp f) e 1 (d.engIssued e) (d.eng e) = (.done (d.engIssued e) y, y, d.engIssued e) := by
    unfold Dev.engView at hf
    simp [repeatIssue, pureOp, hf]
  have hbusy : ((d.taskOn e).isSome && (d.taskOn e).isNone) = false := by cases d.taskOn e <;> rfl
  have hslot : ((d.eng e).redirect.isNone && y.redirect.isSome) = false := by rw [hredirect]; rfl
  simp only [Dev.run, Dev.issueOp, hstate, hmode, hrpt, Nat.not_le.mpr hpc, EngSt.forbids, EngSt.with_rpt_none hrpt, Dev.count_eq_engIssued,
    Option.getD_none, hissue, Dev.engState_engIssued, Dev.taskOn_engIssued, hbusy, hslot]
  rfl

/-- While a branch is under way, what R333 names and a block repeat must not issue. -/
theorem EngSt.forbids_of_redirect {x : EngSt} {r : Redirect} {rule : Rule} (hx : x.redirect = some r) (hrule : rule = .never ∨ rule = .block) :
    x.forbids rule = true := by
  obtain rfl | rfl := hrule <;> simp [EngSt.forbids, hx]

/-- Such an instruction raises ILLEGAL in a slot. -/
theorem Dev.run_slot_forbidden {d : Dev} {e : Nat} {r : Redirect} {rule : Rule} (op : EngOp) (h : d.engSlot e r)
    (hrule : rule = .never ∨ rule = .block) : d.run e rule op = d.engForbidden e := by
  obtain ⟨hstate, hmode, hpc, hredirect, hrpt, -⟩ := h
  simp only [Dev.run, Dev.issueOp, hstate, hmode, hrpt, Nat.not_le.mpr hpc, EngSt.forbids_of_redirect hredirect hrule, EngSt.with_rpt_none hrpt,
    Dev.count_eq_engIssued, Option.getD_none]
  rfl

/-- A branch that issues in the plain way is left as `y`, with its slots to come. -/
theorem Dev.run_branch {d : Dev} {e : Nat} (rule : Rule) {f : EngSt → Except Nat EngSt} {y : EngSt} (h : d.engReady e)
    (hf : f (d.engView e) = .ok y) (hy : y.redirect.isSome = true) : d.run e rule (pureOp f) = d.engBranch e y := by
  have hstate : d.engState e = 1 := h.1
  have hbusy : ((d.taskOn e).isSome && (d.taskOn e).isNone) = false := by cases d.taskOn e <;> rfl
  simp only [Dev.run_plain rule _ h, pureOp, hf, Dev.engState_engIssued, Dev.taskOn_engIssued, hstate, hbusy, hy]
  rfl

/-! ### The commands -/

/-- An engine instruction whose run is the change `F` of its device answers the state after `F`. -/
theorem State.runOp_eq_next {z : State} {e : Fin 1024} {rule : Rule} {op : EngOp} {F : Dev → Dev} (h : z.dev.run e rule op = F z.dev) :
    z.runOp e rule op = .next (z.after F) :=
  congrArg (fun d : Dev => (.next { z with dev := d.settle } : Result)) h

/-- A branch, call or return whose effect on the engine at hand is `g` starts its slots. -/
theorem State.runOp_branch {z : State} {e : Fin 1024} {rule : Rule} {f : EngSt → Except Nat EngSt} (g : EngSt → EngSt) (h : z.dev.engReady e)
    (hf : f (z.dev.engView e) = .ok (g (z.dev.engView e))) (hg : ∀ x, (g x).redirect.isSome = true) :
    z.runOp e rule (pureOp f) = .next (z.after fun D => D.engBranch e (g (D.engView e))) :=
  State.runOp_eq_next (F := fun D => D.engBranch e (g (D.engView e))) (Dev.run_branch rule h hf (hg _))

/-- A command that must not stand in a slot raises ILLEGAL there. -/
theorem State.runOp_slot_forbidden {rule : Rule} (hrule : rule = .never ∨ rule = .block) (op : EngOp) {z : State} {e : Fin 1024} {r : Redirect}
    (h : z.dev.engSlot e r) : z.runOp e rule op = .next (z.after fun D => D.engForbidden e) :=
  State.runOp_eq_next (F := fun D => D.engForbidden e) (Dev.run_slot_forbidden op h hrule)

/-- Settles O55: branches, calls and returns issue by `Dev.run_branch`, an instruction in a slot by `Dev.run_slot_pure`, and those that R333 names
raise ILLEGAL by `Dev.run_slot_forbidden`. -/
theorem delaySlots : Obligations.DelaySlots := by
  unfold Obligations.DelaySlots
  have never := fun op => @State.runOp_slot_forbidden .never (.inl rfl) op
  have block := fun op => @State.runOp_slot_forbidden .block (.inr rfl) op
  refine ⟨?b, ?bz, ?bnz, ?j, ?call, ?jr, ?callr, ?reti, fun _ _ _ => rfl, ?firstSlot, ?lastSlot,
    fun _ c off _ _ => never (opB c off), fun _ s off _ _ => never (opBz s off), fun _ s off _ _ => never (opBnz s off), fun _ off _ _ => never (opJ off),
    fun _ off _ _ => never (opCall off), fun _ s _ _ => never (opJr s), fun _ s _ _ => never (opCallr s), fun _ _ _ => never opReti,
    fun _ n _ _ => never (opRpt (n + 1)), fun _ s _ _ => never (opRptr s),
    fun _ len n _ _ => block (opRptb (len + 1) n), fun _ len s _ _ => block (opRptbr (len + 1) s),
    fun _ w tag _ _ => never (opWait w tag), fun _ w s i _ _ => never (opLl w s i), fun _ w s t i _ _ => never (opSc w s t i),
    fun _ s k tag dir n _ _ => never (opXfer s k tag dir n), fun _ i s tag _ _ => never (opSend i s tag), fun _ s _ _ => never (opHalt s)⟩
  case b =>
    intro e c off t z h hc
    exact State.runOp_branch (fun x => x.branch t (x.relTarget off)) h (by rw [hc]) fun _ => rfl
  case bz =>
    intro e s off z h
    exact State.runOp_branch (fun x => x.branch (decide (x.gB s = 0)) (x.relTarget off)) h rfl fun _ => rfl
  case bnz =>
    intro e s off z h
    exact State.runOp_branch (fun x => x.branch (decide (x.gB s ≠ 0)) (x.relTarget off)) h rfl fun _ => rfl
  case j =>
    intro e off z h
    exact State.runOp_branch (fun x => x.branch true (4 * off.toNat)) h rfl fun _ => rfl
  case call =>
    intro e off z h
    exact State.runOp_branch (fun x => (x.wrG 31 (x.pc + 12)).branch true (4 * off.toNat)) h rfl fun _ => rfl
  case jr =>
    intro e s t z h ht
    exact State.runOp_branch (fun x => x.branch true t) h (by rw [ht]; rfl) fun _ => rfl
  case callr =>
    intro e s t z h ht
    exact State.runOp_branch (fun x => (x.wrG 31 (x.pc + 12)).branch true t) h (by rw [ht]; rfl) fun _ => rfl
  case reti =>
    intro e z h hih
    exact State.runOp_branch (fun x => { x with redirect := some { target := 0, left := 2, reti := true } }) h (if_neg hih) fun _ => rfl
  case firstSlot =>
    intro d e r f y h hf hy hleft
    rw [Dev.run_slot_pure h hf, Dev.engDone, EngSt.moveOn_firstSlot hy hleft]
  case lastSlot =>
    intro d e r f y h hf hy hleft hreti
    rw [Dev.run_slot_pure h hf, Dev.engDone, EngSt.moveOn_lastSlot hy hleft hreti]

end Sys2Proof.Machine

/-! The conditions of B (R366): the model's codes against the table, row by row. -/

namespace Sys2Proof.Machine

/-- The table of R366: condition `c` holds on the flags z, n, c and v as a branch reads them. -/
abbrev EngSt.Taken (x : EngSt) (c : Fin 16) : Prop :=
  let Z := x.rd .branch locZ ≠ 0
  let N := x.rd .branch locN ≠ 0
  let C := x.rd .branch locC ≠ 0
  let V := x.rd .branch locV ≠ 0
  c = 0 ∨ (c = 1 ∧ Z) ∨ (c = 2 ∧ ¬Z) ∨ (c = 3 ∧ ¬(N ↔ V)) ∨ (c = 4 ∧ (N ↔ V)) ∨ (c = 5 ∧ ¬Z ∧ (N ↔ V)) ∨ (c = 6 ∧ (Z ∨ ¬(N ↔ V))) ∨
    (c = 7 ∧ C) ∨ (c = 8 ∧ ¬C) ∨ (c = 9 ∧ V) ∨ (c = 10 ∧ ¬V) ∨ (c = 11 ∧ N) ∨ (c = 12 ∧ ¬N)

/-- Every code below 13 has a row, and the model answers whether the row holds: one case per row, in which the comparisons of a flag with 0 become
propositions. -/
theorem EngSt.cond_eq_taken (x : EngSt) {c : Fin 16} (hc : c.val ≤ 12) : x.cond c = some (decide (x.Taken c)) := by
  obtain ⟨c, hlt⟩ := c
  dsimp only at hc
  interval_cases c <;> simp [EngSt.cond, bne, beq_eq_decide (α := Nat)]

/-- The codes 13 to 15 have no row. -/
theorem EngSt.cond_eq_none (x : EngSt) {c : Fin 16} (hc : 13 ≤ c.val) : x.cond c = none := by
  obtain ⟨c, hlt⟩ := c
  dsimp only at hc
  interval_cases c <;> rfl

/-- Settles O56: B issues as a branch on its row of the table, or raises ILLEGAL where it has none; BZ and BNZ are O55's, with the read of g[s] written
out. -/
theorem branchConditions : Obligations.BranchConditions := by
  unfold Obligations.BranchConditions
  obtain ⟨-, hbz, hbnz, -⟩ := delaySlots
  refine ⟨?row, ?noRow, hbz, hbnz⟩
  case row =>
    intro e c off z h hc
    exact State.runOp_branch (fun x => x.branch (decide (x.Taken c)) (x.relTarget off)) h (by rw [EngSt.cond_eq_taken _ hc]) fun _ => rfl
  case noRow =>
    intro e c off z h hc
    exact State.runOp_eq_next (F := fun D => D.engRaise e excILLEGAL) (Dev.run_exc _ h (by rw [EngSt.cond_eq_none _ hc]))

end Sys2Proof.Machine

/-! What one step comes to, and runs of steps: a command answers a next state unless it is a stream header of a wrong length, and every next state has
been settled (R64, R77, R80, R82). -/

namespace Sys2Proof.Machine

/-- A command completes, or it is a stream header of another length than R87 gives it, which is the model's one fault (log entry 96). -/
theorem exec_next_or_badHeader (c : Instr) (s : State) :
    (∃ t, exec c s = .next t) ∨ ∃ x, c = .streamHeader x ∧ x.length ≠ 256 ∧ exec c s = .fault (.illFormed "STREAM_HEADER") := by
  cases c
  case streamHeader x =>
    by_cases hx : x.length = 256
    · exact .inl ⟨_, if_neg (not_not.mpr hx)⟩
    · exact .inr ⟨x, rfl, hx, if_pos hx⟩
  all_goals exact .inl ⟨_, rfl⟩

/-- Well-formedness rules the bad header out. -/
theorem exec_next_of_wf {c : Instr} (s : State) (h : c.wf = true) : ∃ t, exec c s = .next t := by
  obtain hnext | ⟨x, rfl, hx, -⟩ := exec_next_or_badHeader c s
  · exact hnext
  · exact absurd (of_decide_eq_true h) hx

theorem exec_ne_refused (c : Instr) (s : State) (r : Refusal) : exec c s ≠ .refused r := by
  obtain ⟨t, h⟩ | ⟨x, -, -, h⟩ := exec_next_or_badHeader c s <;> rw [h] <;> nofun

/-- A step carries out the front command on the queue's rest. -/
theorem step_cons (c : Instr) (r : List Instr) (s : State) : step { s with pending := c :: r } = exec c { s with pending := r } := rfl

theorem step_of_pending_cons {s : State} {c : Instr} {r : List Instr} (h : s.pending = c :: r) : step s = exec c { s with pending := r } := by
  simp only [step, h]

/-- With an empty queue one ROOT cycle passes (log entry 1). -/
theorem step_of_pending_nil {s : State} (h : s.pending = []) : step s = .next (s.after Dev.rootCycle) := by
  simp only [step, h, State.act_eq]

/-- Whatever the step: its next state has been settled, and its queue is the old one's tail. -/
theorem step_after {s t : State} (h : step s = .next t) : ∃ f, t = State.after { s with pending := s.pending.tail } f := by
  cases hq : s.pending with
  | nil =>
    rw [step_of_pending_nil hq] at h
    exact ⟨Dev.rootCycle, by rw [List.tail_nil, ← hq]; exact (Host.Outcome.next.inj h).symm⟩
  | cons c r => exact exec_after ((step_of_pending_cons hq).symm.trans h)

theorem State.safe_after (s : State) (f : Dev → Dev) : (s.after f).safe := ⟨Dev.settle_fenceRule _, Dev.settle_leashRule _⟩

/-- The next state is safe whatever the state before it. -/
theorem safe_of_step {s t : State} (h : step s = .next t) : t.safe := by
  obtain ⟨f, rfl⟩ := step_after h
  exact State.safe_after _ f

theorem pending_of_step {s t : State} (h : step s = .next t) : t.pending = s.pending.tail := by
  obtain ⟨f, rfl⟩ := step_after h
  exact State.after_pending _ f

/-- Well-formed commands waiting, a step answers a next state. -/
theorem step_next_of_wf {s : State} (h : ∀ c ∈ s.pending, c.wf = true) : ∃ t, step s = .next t := by
  cases hq : s.pending with
  | nil => exact ⟨_, step_of_pending_nil hq⟩
  | cons c r =>
    rw [step_of_pending_cons hq]
    exact exec_next_of_wf _ (h c (hq ▸ List.mem_cons_self))

/-- Runs of well-formed commands: the two rules above, step by step. -/
theorem State.safeFor_of_wf (n : Nat) {s : State} (hsafe : s.safe) (hwf : ∀ c ∈ s.pending, c.wf = true) : s.safeFor n := by
  induction n generalizing s with
  | zero => exact hsafe
  | succ n ih =>
    obtain ⟨t, ht⟩ := step_next_of_wf hwf
    refine ⟨hsafe, t, ht, ih (safe_of_step ht) fun c hc => hwf c ?_⟩
    rw [pending_of_step ht] at hc
    exact List.mem_of_mem_tail hc

/-- Settles O51: every next state has been settled, and `Dev.settle` establishes both rules. -/
theorem everyStepEndsInASafeState : Obligations.EveryStepEndsInASafeState := fun _ _ => safe_of_step

/-- Settles O53, by induction on the length of the run. -/
theorem runsOfWellFormedCommandsAreSafe : Obligations.RunsOfWellFormedCommandsAreSafe := fun n _ => State.safeFor_of_wf n

/-- Settles O49, by the cases of `exec_next_or_badHeader`. -/
theorem everyWellFormedCommandCompletes : Obligations.EveryWellFormedCommandCompletes :=
  ⟨fun _ s => exec_next_of_wf s, fun _ _ hx => if_pos hx, exec_ne_refused⟩

/-- Settles O50: a command's next state is `State.after` of its own state, which keeps the queue. -/
theorem commandsLeaveTheQueue : Obligations.CommandsLeaveTheQueue := by
  refine ⟨fun c s t h => ?_, fun s t => pending_of_step⟩
  obtain ⟨f, rfl⟩ := exec_after h
  exact State.after_pending s f

/-- Settles O48: the two cases of the queue. -/
theorem stepTakesTheFrontCommand : Obligations.StepTakesTheFrontCommand := ⟨step_cons, fun _ => step_of_pending_nil⟩

/-! ### The state after reset -/

/-- No register has been written and Kindling has not run, so every field reads its reset value. -/
theorem State.reset_rd (f : Fld) (a : Ix) : State.reset.dev.rd f a = f.reset := by
  have hkindled : State.reset.dev.noc.kindled = false := rfl
  have hregs : State.reset.dev.regs = [] := rfl
  simp only [Dev.rd, Dev.unset, hkindled, hregs, Tbl.get, Bool.and_false, Bool.false_and, Bool.false_eq_true, if_false]

theorem State.reset_mode : State.reset.dev.mode = .cold := by
  unfold Dev.mode
  rw [State.reset_rd]
  rfl

theorem State.reset_fenced : State.reset.dev.flag F.HRT_MODE_fenced {} = true := by
  unfold Dev.flag
  rw [State.reset_rd]
  rfl

theorem State.reset_rights : State.reset.dev.rd F.LSH_STAT_rights {} = 0 := State.reset_rd _ _

/-- Settles O52: the fence is shown, and no session has rights. -/
theorem resetIsSafe : Obligations.ResetIsSafe := by
  refine ⟨⟨fun _ => State.reset_fenced, fun _ => ?_⟩, Memory.wf_nil, State.reset_mode, State.reset_fenced, State.reset_rights, rfl⟩
  rw [State.reset_rights]
  decide

/-- Settles O54: fields by `State.reset_rd`, the other parts as `State.reset` writes them. -/
theorem resetValues : Obligations.ResetValues :=
  ⟨State.reset_rd, State.reset_rd _ _, rfl, rfl, rfl, rfl, rfl, rfl, fun _ => rfl, fun _ => rfl, fun _ => rfl, rfl, rfl⟩

/-! ### Unlocking the Leash -/

/-- The fault record that a failed unlock leaves is no part of the port's state: count, nonce and lock-out are as `Dev.unlockFailed` sets them (R543). -/
theorem Dev.unlockFailed_lsh (d : Dev) :
    d.unlockFailed.lsh = { d.lsh with fails := d.lsh.fails + 1, nonce := none, lockUntil := d.root + 2 ^ min d.lsh.fails 6 * 1000 * msCycles } := by
  unfold Dev.unlockFailed
  extract_lets k l x
  obtain ⟨-, -, hlsh, -, -⟩ := Dev.keeps_occur (x.bump F.LSH_STAT_unlock_fail {}) { die := 0, block := 14, inst := 0, cls := 16, sev := sevNote }
  exact hlsh.trans (Dev.bump_lsh _ _ _ _)

/-- An attempt with the rights that R540 admits, a nonce and no lock-out stands or falls with its proof (R543). -/
theorem Dev.unlock_of_admissible {d : Dev} {rights : Nat} (method slot : Nat) (ok : Bool) (hr : rights = 1 ∨ rights = 2 ∧ d.controlBarred = false)
    (hnonce : d.lsh.nonce.isSome = true) (hlock : d.lsh.lockUntil ≤ d.root) :
    d.unlock rights method slot ok = if ok then
        let D := { d with lsh := { d.lsh with nonce := none, fails := 0, lockUntil := 0 } }
        let D := ((D.st F.LSH_STAT_rights {} rights).st F.LSH_STAT_method {} method).st F.LSH_STAT_owner_slot {} slot
        (D.on (rights = 2) (fun d => d.st F.LSH_STAT_ctl_held {} 1)).ack 1
      else d.unlockFailed := by
  have hnone : d.lsh.nonce.isNone = false := by rw [← Option.not_isSome, hnonce]; rfl
  have hadmitted : (rights ≠ 1 && rights ≠ 2) = false ∧ (decide (rights = 2) && d.controlBarred) = false := by
    obtain rfl | ⟨rfl, hbarred⟩ := hr
    · exact ⟨rfl, rfl⟩
    · exact ⟨rfl, by rw [hbarred]; rfl⟩
  obtain ⟨hcode, hcontrol⟩ := hadmitted
  unfold Dev.unlock
  rw [hcode, hcontrol, hnone, decide_eq_false (Nat.not_lt.mpr hlock)]
  cases ok <;> rfl

theorem toNat_rights {rights : Byte} {p : Prop} (h : rights = 1#8 ∨ rights = 2#8 ∧ p) : rights.toNat = 1 ∨ rights.toNat = 2 ∧ p := by
  obtain rfl | ⟨rfl, hp⟩ := h
  · exact .inl rfl
  · exact .inr ⟨rfl, hp⟩

/-- A command whose change of the device at hand is that of `g` answers the state after `g`. -/
theorem State.act_eq_next {s : State} {f g : Dev → Dev} (h : f s.dev = g s.dev) : s.act f = .next (s.after g) :=
  congrArg (fun d : Dev => (.next { s with dev := d.settle } : Result)) h

/-- Settles O57: both commands come to `Dev.unlock_of_admissible` with the conjunction of their conditions as the proof. -/
theorem unlocksNeedTheirProof : Obligations.UnlocksNeedTheirProof := by
  refine ⟨?sig, ?pass, fun d => ?failed⟩
  case sig =>
    intro fr rights slot pub ok s hport hslot hr hnonce hlock
    refine State.act_eq_next ?_
    rw [Dev.request_of_portOpen hport, if_neg (Nat.not_lt.mpr hslot), Dev.unlock_of_admissible _ _ _ (toNat_rights hr) hnonce hlock]
    refine if_congr ?_ rfl rfl
    simp only [Bool.and_eq_true, decide_eq_true_eq]
    exact ⟨fun ⟨⟨hok, howner⟩, hrevoked⟩ => ⟨howner.symm, hrevoked, hok⟩, fun ⟨howner, hrevoked, hok⟩ => ⟨⟨hok, howner.symm⟩, hrevoked⟩⟩
  case pass =>
    intro fr rights ok s hport hr hnonce hlock
    refine State.act_eq_next ?_
    rw [Dev.request_of_portOpen hport, Dev.unlock_of_admissible _ _ _ (toNat_rights hr) hnonce hlock]
    refine if_congr ?_ rfl rfl
    simp only [Bool.and_eq_true, Bool.not_eq_true', decide_eq_true_eq]
    exact ⟨fun ⟨⟨hok, hon⟩, hhash⟩ => ⟨hon, hhash, hok⟩, fun ⟨hon, hhash, hok⟩ => ⟨⟨hok, hon⟩, hhash⟩⟩
  case failed =>
    rw [Dev.unlockFailed_lsh]
    exact ⟨rfl, rfl, rfl⟩

end Sys2Proof.Machine

/-! Register accesses that reach their satellite (R5 to R12, R124, R456): what a write and a read come to there. -/

namespace Sys2Proof.Machine

/-! ### Writes -/

theorem Dev.answerAccess_posted (d : Dev) (r : Resp) : d.answerAccess true r = d := rfl

/-- A write that reaches its satellite is carried out there and answered with its outcome. -/
theorem Dev.registerWrite_of_open {d : Dev} {w : Writer} {a : Nat} {v : Word64} (full posted : Bool) (h : d.accessOpen w a)
    (hbar : d.vfWriteBarred w a v.toNat = false) :
    d.registerWrite w a full v posted = (d.writeAt w a v.toNat full).2.answerAccess posted (d.writeAt w a v.toNat full).1 := by
  obtain ⟨hreach, hctl, hbar0, hon⟩ := h
  simp only [Dev.registerWrite, hreach, hctl, hbar0, hon, hbar, Bool.not_true, Bool.or_self, Bool.false_eq_true, if_false]

/-- Nothing happens where the writer cannot reach registers (R70, R77). -/
theorem Dev.registerWrite_of_unreached {d : Dev} {w : Writer} (h : d.reaches w = false) (a : Nat) (full : Bool) (v : Word64) (posted : Bool) :
    d.registerWrite w a full v posted = d := by
  simp only [Dev.registerWrite, h, Bool.not_false, Bool.true_or, if_true]

/-- A whole 64-bit write that passes its checks. -/
theorem Dev.writeAt_of_accepted {d d' : Dev} {w : Writer} {a v : Nat} {t : Target} (hreg : findReg a = some t)
    (hwrite : d.writeReg w t.reg t.ix v (dieOfAddr a) = some d') : d.writeAt w a v true = (.done, d') := by
  simp only [Dev.writeAt, hreg, hwrite, Bool.not_true, Bool.false_eq_true, if_false]

/-- A write of another width is rejected (R5). -/
theorem Dev.writeAt_of_partial {a : Nat} {t : Target} (d : Dev) (w : Writer) (v : Nat) (hreg : findReg a = some t) :
    d.writeAt w a v false = (.reject, d.rejectWrite a (instAt (blockOfAddr a) t.ix)) := by
  simp only [Dev.writeAt, hreg, Bool.not_false, if_true]

/-- A write that the checks refuse leaves the record of R12; a ring tail has its own count beside it (R461). -/
theorem Dev.writeAt_of_refused {d : Dev} {w : Writer} {a v : Nat} {t : Target} (hreg : findReg a = some t) (htail : t.reg ≠ .HRT_CQ_TAIL)
    (hwrite : d.writeReg w t.reg t.ix v (dieOfAddr a) = none) :
    d.writeAt w a v true = (.reject, d.rejectWrite a (instAt (blockOfAddr a) t.ix)) := by
  simp only [Dev.writeAt, hreg, hwrite, htail, decide_false, Bool.false_and, Dev.on_false, Bool.not_true, Bool.false_eq_true, if_false]

/-- A write that lands leaves the device that its register's write gives, with its answer. -/
theorem Dev.registerWrite_of_lands {d d' : Dev} {w : Writer} {a : Nat} {v : Word64} (posted : Bool) (h : d.writeLands w a v.toNat d') :
    d.registerWrite w a true v posted = d'.answerAccess posted .done := by
  obtain ⟨hopen, hbar, t, hreg, hwrite⟩ := h
  rw [Dev.registerWrite_of_open true posted hopen hbar, Dev.writeAt_of_accepted hreg hwrite]

/-- The posted form, which the rows that are writes of one register use. -/
theorem Dev.registerWrite_posted_of_lands {d d' : Dev} {w : Writer} {a : Nat} {v : Word64} (h : d.writeLands w a v.toNat d') :
    d.registerWrite w a true v true = d' := Dev.registerWrite_of_lands true h

/-! ### Reads -/

/-- A read that reaches its register returns its value and clears its RC fields (R6). -/
theorem Dev.readAt_of_findReg (d : Dev) {a : Nat} {t : Target} (h : findReg a = some t) :
    d.readAt a = (d.regRead t.reg t.ix, d.clearRC t.reg t.ix) := by
  simp only [Dev.readAt, h]

/-- Settles O1: the rows that are register writes by `Dev.registerWrite_of_lands`; a doorbell and an RC read open their own guards. -/
theorem registerWriteCommandsComplete : Obligations.RegisterWriteCommandsComplete := by
  refine ⟨fun w a v posted s d' h => State.act_eq_next (Dev.registerWrite_of_lands posted h),
    fun w b v s d' h => State.act_eq_next (Dev.registerWrite_posted_of_lands h), fun w b l v s d' h => State.act_eq_next (Dev.registerWrite_posted_of_lands h),
    fun w b g v s d' h => State.act_eq_next (Dev.registerWrite_posted_of_lands h), fun w b r v s d' h => State.act_eq_next (Dev.registerWrite_posted_of_lands h),
    fun w b fn v posted s d' h => State.act_eq_next (Dev.registerWrite_of_lands posted h), ?doorbell, ?rcRead⟩
  case doorbell =>
    intro w q v s hreach hon hpart
    refine State.act_eq_next ?_
    cases w with
    | fn n => simp only [hreach, hon, hpart n rfl, Bool.not_true, Bool.false_eq_true, if_false]
    | leash | other => simp only [hreach, hon, Bool.not_true, Bool.false_eq_true, if_false]
  case rcRead =>
    intro w a s t hopen hreg hbar
    obtain ⟨hreach, hctl, hbar0, hon⟩ := hopen
    refine State.act_eq_next ?_
    simp only [hreach, hctl, hbar0, hon, hreg, hbar, Dev.readAt_of_findReg _ hreg, Bool.not_true, Bool.or_self, Bool.false_eq_true, if_false]

/-- Settles O2: the write's outcome at the satellite is a rejection, or there is no access at all. -/
theorem rejectedRegisterWriteChangesNothingElse : Obligations.RejectedRegisterWriteChangesNothingElse := by
  refine ⟨?narrow, ?refused, fun w a v posted s h => State.act_eq_next (Dev.registerWrite_of_unreached h _ _ _ _)⟩
  case narrow =>
    intro w a v posted s t hopen hbar hreg
    refine State.act_eq_next ?_
    rw [Dev.registerWrite_of_open false posted hopen hbar, Dev.writeAt_of_partial _ _ _ hreg]
  case refused =>
    intro w a v posted s t hopen hbar hreg htail hwrite
    refine State.act_eq_next ?_
    rw [Dev.registerWrite_of_open true posted hopen hbar, Dev.writeAt_of_refused hreg htail hwrite]

end Sys2Proof.Machine

/-! Start-up, pins, tamper and triggers (R41, R61 to R82, R100, R111): each command where its condition holds. -/

namespace Sys2Proof.Machine

/-- Settles O3: every command opens its guard by the clause's hypotheses; training without a failed stack makes every trained stack ACTIVE. -/
theorem startupCommandsComplete : Obligations.StartupCommandsComplete := by
  refine ⟨?release, ?railsOut, ?railsBack, fun s => rfl, ?training, ?lanes, ?step9, ?notReady, ?chainDone, ?chainWait, ?clockLost, ?clockGood, ?baseRelease,
    ?fabricRelease⟩
  case release =>
    intro sc kept s hheld htrip
    refine State.act_eq_next ?_
    simp only [hheld, htrip, Dev.powerOn, Dev.on_false, Bool.not_true, Bool.false_and, Bool.or_self, Bool.false_eq_true, if_false, if_true]
  case railsOut =>
    intro sc kept s hheld htrip
    refine State.act_eq_next ?_
    simp only [hheld, htrip, Dev.powerOn, Dev.on_false, Bool.not_true, Bool.false_and, Bool.or_self, Bool.false_eq_true, if_false]
  case railsBack =>
    intro sc kept s hstopped
    exact State.act_eq_next (if_pos hstopped)
  case training =>
    intro s
    refine State.act_eq_next ?_
    simp only [List.any_nil, Bool.false_eq_true, if_false]
  case lanes =>
    intro s hcold hember hstep
    refine State.act_eq_next ?_
    simp [hcold, hember, hstep]
  case step9 =>
    intro s hready
    exact State.act_eq_next (if_pos hready)
  case notReady =>
    intro s hready
    exact State.act_eq_next (if_neg (Bool.eq_false_iff.mp hready))
  case chainDone =>
    intro s hreleased hready
    refine State.act_eq_next ?_
    simp only [hreleased, hready, Bool.not_true, Bool.false_eq_true, if_false, if_true]
  case chainWait =>
    intro s hchain hcold hember hstep9 hreleased hpin hexpired
    refine State.act_eq_next ?_
    simp [hchain, hcold, hember, hstep9, hreleased, hpin, hexpired]
  case clockLost =>
    intro b s hheld hlost hfailed
    refine State.act_eq_next ?_
    simp only [hheld, hlost, hfailed, Bool.or_self, Bool.false_eq_true, if_false]
  case clockGood =>
    intro b s hlost hfailed
    refine State.act_eq_next ?_
    simp only [hlost, hfailed, Bool.not_false, Bool.and_self, if_true]
  case baseRelease =>
    intro b s hreset hlost hfailed
    refine State.act_eq_next ?_
    simp only [hreset, hlost, hfailed, Bool.not_false, Bool.and_self, if_true]
  case fabricRelease =>
    intro f s hreset hbase hfailed
    refine State.act_eq_next ?_
    simp only [hreset, hbase, hfailed, Bool.not_false, Bool.and_self, if_true]

/-- The wait of a MODE_SET ends with its trigger, whatever the mode; mode and bars are read as the wait left them. -/
theorem execModeTrigger_of_wait {s : State} {w : ModeWait} (h : s.dev.pl.modeWait = some w) :
    exec .modeTrigger s = .next (s.after fun d =>
      let e := { d with pl := { d.pl with modeWait := none } }
      if d.mode == .ember then e.answerMode w { status := 4 }
      else if !modeAllowed d.mode w.mode then e.answerMode w { status := 1, detail := d.mode.code }
      else if d.mode == .safe && decide (d.safeBars ≠ 0) then e.answerMode w { status := 5, detail := d.safeBars }
      else (e.hostMode w.mode).answerMode w { status := 0, result := [timeWord w.time] }) := by
  refine State.act_eq_next ?_
  simp only [h]
  rfl

/-- Settles O4: each pin or trigger acts by its guards. -/
theorem safePinsAndTamperComplete : Obligations.SafePinsAndTamperComplete := by
  refine ⟨?fenceLow, fun s => rfl, fun s => rfl, fun s => rfl, fun s => rfl, ?trigger, ?late, ?barred, ?noWait⟩
  case fenceLow =>
    intro s hpin
    exact State.act_eq_next (if_neg (Bool.eq_false_iff.mp hpin))
  case trigger =>
    intro s w hwait hember hallowed hbars
    rw [execModeTrigger_of_wait hwait]
    refine State.act_eq_next ?_
    have hopen : (s.dev.mode == .safe && decide (s.dev.safeBars ≠ 0)) = false := by
      by_cases hsafe : s.dev.mode = .safe
      · simp [hbars hsafe]
      · simp [hsafe]
    simp only [beq_eq_false_iff_ne.mpr hember, hallowed, hopen, Bool.not_true, Bool.false_eq_true, if_false]
  case late =>
    intro s w hwait hember
    rw [execModeTrigger_of_wait hwait]
    exact State.act_eq_next (if_pos (by simp [hember]))
  case barred =>
    intro s w hwait hember hallowed
    rw [execModeTrigger_of_wait hwait]
    refine State.act_eq_next ?_
    simp [hember, hallowed]
  case noWait =>
    intro s hwait
    refine State.act_eq_next ?_
    simp only [hwait, id]

end Sys2Proof.Machine

/-! House time (R40, R44, R46 to R48, R52 to R57): the commands of the root reference, the sources and the cadence generators. -/

namespace Sys2Proof.Machine

/-- A PTP message that no servo awaits is ignored (R47, R59). -/
theorem Dev.ptpMessage_of_idle {d : Dev} (m : PtpMsg) (h : d.htx.servoOn = false) : d.ptpMessage m = d := by
  simp [Dev.ptpMessage, h]

/-- At the servo's port a message of another version, domain or length is dropped and counted (R47). -/
theorem Dev.ptpMessage_of_malformed {d : Dev} {m : PtpMsg} (hon : d.htx.servoOn = true) (hport : (m.port : Nat) = d.rd F.HT_CFG_ptp_port {})
    (hbad : m.version ≠ 2 ∨ m.domain ≠ d.rd F.HT_CFG_ptp_domain {} ∨ m.lenOk = false) : d.ptpMessage m = d.ptpDrop := by
  have hdrop : (m.version ≠ 2 || m.domain ≠ d.rd F.HT_CFG_ptp_domain {} || !m.lenOk) = true := by
    simpa only [Bool.or_eq_true, decide_eq_true_eq, Bool.not_eq_true', or_assoc] using hbad
  simp only [Dev.ptpMessage, hon, hport, hdrop, ne_eq, not_true_eq_false, decide_false, Bool.not_true, Bool.or_self, Bool.false_eq_true, if_false, if_true]

/-- A one-step Sync of the master completes its exchange at once (R47). -/
theorem Dev.ptpMessage_of_sync {d : Dev} {m : PtpMsg} (hon : d.htx.servoOn = true) (hport : (m.port : Nat) = d.rd F.HT_CFG_ptp_port {})
    (hversion : m.version = 2) (hdomain : m.domain = d.rd F.HT_CFG_ptp_domain {}) (hlen : m.lenOk = true) (hmaster : d.htx.master = some m.srcPort)
    (hkind : m.kind = .sync false) : d.ptpMessage m = d.ptpExchange m.seqId m.offset := by
  simp [Dev.ptpMessage, hon, hport, hversion, hdomain, hlen, hmaster, hkind]

/-- Settles O5: each event by its guards, a Sync of the master by `Dev.ptpMessage_of_sync`. -/
theorem houseTimeCommandsComplete : Obligations.HouseTimeCommandsComplete := by
  refine ⟨?refLost, fun s => rfl, ?holdoverEnds, fun die dev s => rfl, ?sync, ?malformed, ?idle, ?partner, ?pps, fun s => rfl, fun p s => rfl, ?cadence⟩
  case refLost =>
    intro s hlost
    exact State.act_eq_next (if_neg (Bool.eq_false_iff.mp hlost))
  case holdoverEnds =>
    intro s hlost
    exact State.act_eq_next (if_pos hlost)
  case sync =>
    intro m s hon hport hversion hdomain hlen hmaster hkind
    exact State.act_eq_next (Dev.ptpMessage_of_sync hon hport hversion hdomain hlen hmaster hkind)
  case malformed =>
    intro m s hon hport hbad
    exact State.act_eq_next (Dev.ptpMessage_of_malformed hon hport hbad)
  case idle =>
    intro m s hoff
    exact State.act_eq_next (Dev.ptpMessage_of_idle m hoff)
  case partner =>
    intro id s hwaits
    exact State.act_eq_next (if_pos hwaits)
  case pps =>
    intro s hunlocked htenM
    refine State.act_eq_next ?_
    simp only [hunlocked, htenM, Dev.on_false, Bool.false_and, Bool.false_eq_true, if_false]
  case cadence =>
    intro die gen ev s hissues hvalid hcold hwaiting
    refine State.act_eq_next ?_
    simp only [hissues, hvalid, beq_eq_false_iff_ne.mpr hcold, hwaiting, Bool.not_true, Bool.false_and, Bool.or_self, Bool.false_eq_true, if_false]

end Sys2Proof.Machine

/-! The configuration stream (R84 to R113): what a packet that the controller is ready for comes to, and the ways a stream ends. -/

namespace Sys2Proof.Machine

/-! ### Packets -/

/-- In the body of a stream without an error, a packet that ends within the body is judged by its operation alone (R89, R112). -/
theorem Dev.packet_of_open {d : Dev} {n : Nat} (anyLen : Bool) (op : Dev → Pkt) (h : d.packetOpen n) :
    d.packet n anyLen op = match op d with
      | .ok d => d.advance (8 + 8 * n)
      | .bad code frame detail => d.packetError n code frame detail
      | .badAt code o frame detail => (d.bodyErr code o frame detail).advance (8 + 8 * n)
      | .refused status detail => match d.streamTxn with
        | some t => d.relocRefused t status detail
        | none => d.advance (8 + 8 * n) := by
  obtain ⟨hstreaming, hstate, hreadable, herr, hend⟩ := h
  have hlen : (!anyLen && decide (d.bodyEnd < d.cfg.pos + (8 + 8 * n))) = false := by
    rw [decide_eq_false (Nat.not_lt.mpr hend), Bool.and_false]
  simp only [Dev.packet, hstreaming, hstate, hreadable, herr, hlen, ne_eq, not_true_eq_false, decide_false, Bool.not_true, Bool.or_self,
    Option.isSome_none, Bool.false_eq_true, if_false]
  rfl

/-- A packet that passes its checks has its effect, and the position moves past it. -/
theorem Dev.packet_ok {d d' : Dev} {n : Nat} {anyLen : Bool} {op : Dev → Pkt} (h : d.packetOpen n) (hop : op d = .ok d') :
    d.packet n anyLen op = d'.advance (8 + 8 * n) := by
  rw [Dev.packet_of_open anyLen op h, hop]

/-- A packet in error keeps its code, and the stream is read on (R112). -/
theorem Dev.packet_bad {d : Dev} {n code frame detail : Nat} {anyLen : Bool} {op : Dev → Pkt} (h : d.packetOpen n)
    (hop : op d = .bad code frame detail) : d.packet n anyLen op = d.packetError n code frame detail := by
  rw [Dev.packet_of_open anyLen op h, hop]

theorem toNat_ne_zero {n : Nat} {x : BitVec n} (h : x ≠ 0) : x.toNat ≠ 0 := fun hx => h (BitVec.eq_of_toNat_eq (hx.trans BitVec.toNat_zero.symm))

/-- Settles O6: a header without an error starts the body; each packet is a case of `Dev.packet_ok` or `Dev.packet_bad`. -/
theorem streamPacketsComplete : Obligations.StreamPacketsComplete := by
  refine ⟨?header, ?nop, ?nopOperand, ?unknown, ?wcfg, ?wcfgLength, ?wblk, ?wfab, ?frame, ?frameRpt, ?meminit, ?meminitLength, ?endOk, ?endBad⟩
  case header =>
    intro x s hlen hstreaming hstate hreadable hpath hheader
    refine (if_neg (not_not.mpr hlen)).trans (State.act_eq_next ?_)
    simp only [hstreaming, hstate, hreadable, hheader, ne_eq, not_true_eq_false, decide_false, Bool.not_true, Bool.or_self, Bool.false_eq_true, if_false]
    split
    · next t ht => exact absurd ht (hpath t)
    · rfl
  case nop =>
    intro n s hopen
    exact State.act_eq_next (Dev.packet_ok hopen rfl)
  case nopOperand =>
    intro o n s hopen ho
    exact State.act_eq_next (Dev.packet_bad hopen (if_pos (toNat_ne_zero ho)))
  case unknown =>
    intro op o n s hopen
    exact State.act_eq_next (Dev.packet_bad hopen rfl)
  case wcfg =>
    intro o v s d' hopen halign hrange hwrite
    refine State.act_eq_next (Dev.packet_ok hopen ?_)
    simp [halign, Nat.not_lt.mpr hrange, hwrite]
  case wcfgLength =>
    intro o p s hopen halign hrange hlen
    refine State.act_eq_next (Dev.packet_bad hopen ?_)
    match p, hlen with
    | [], _ | _ :: _ :: _, _ => simp [halign, Nat.not_lt.mpr hrange]
    | [_], hlen => exact absurd rfl hlen
  case wblk =>
    intro o p s d' hopen hrange halign hp hwrites
    refine State.act_eq_next (Dev.packet_ok hopen ?_)
    have hsome : p.isEmpty = false := List.isEmpty_eq_false_iff.mpr hp
    simp only [Nat.not_le.mpr hrange, halign, hsome, hwrites, ne_eq, not_true_eq_false, decide_false, Bool.or_self, Bool.false_eq_true, if_false]
  case wfab =>
    intro o p s d' hopen hkind hdie halign hp hwrites
    refine State.act_eq_next (Dev.packet_ok hopen ?_)
    have hsome : p.isEmpty = false := List.isEmpty_eq_false_iff.mpr hp
    simp only [hkind, Nat.not_le.mpr hdie, halign, hsome, hwrites, ne_eq, not_true_eq_false, decide_false, Bool.or_self, Bool.false_eq_true, if_false]
  case frame =>
    intro o p s d' hopen hp hlen hframes
    refine State.act_eq_next (Dev.packet_ok hopen ?_)
    simp [hp, hlen, hframes]
  case frameRpt =>
    intro o w p s d' hopen hrange hlen hw hwmax hframes
    have hopen : s.dev.packetOpen (w :: p).length := by rwa [List.length_cons, hlen]
    have hsize : 8 + 8 * (w :: p).length = 272 := by rw [List.length_cons, hlen]
    refine State.act_eq_next ((Dev.packet_ok hopen ?_).trans (congrArg d'.advance hsize))
    simp only [Nat.not_le.mpr hrange, hlen, hw, Nat.not_le.mpr hwmax, hframes, ne_eq, not_true_eq_false, decide_false, Bool.or_self, Bool.false_eq_true, if_false]
  case meminit =>
    intro o p s hopen hlen hrange halign hdie hrow hkind
    refine State.act_eq_next ((Dev.packet_ok hopen ?_).trans (congrArg _ (congrArg (8 + 8 * ·) hlen)))
    simp only [Nat.not_le.mpr hrange, halign, Nat.not_lt.mpr hdie, Nat.not_lt.mpr hrow, hlen, hkind, ne_eq, not_true_eq_false, decide_false, Bool.or_self,
      Bool.false_eq_true, if_false, if_true]
    rfl
  case meminitLength =>
    intro o p s hopen hlen hrange halign hdie hrow
    refine State.act_eq_next (Dev.packet_bad hopen ?_)
    simp only [Nat.not_le.mpr hrange, halign, Nat.not_lt.mpr hdie, Nat.not_lt.mpr hrow, hlen, ne_eq, not_true_eq_false, not_false_eq_true, decide_false,
      Bool.or_self, Bool.false_eq_true, if_false, if_true]
  case endOk =>
    intro o s hopen hcount hend hcontention htxn
    refine State.act_eq_next (Dev.packet_ok hopen ?_)
    obtain ⟨t, ht⟩ := htxn
    have hsome : ({ s.dev with cfg := { s.dev.cfg with ended := true } } : Dev).streamTxn = some t := ht
    have hpos : ¬ s.dev.cfg.pos + 8 < ({ s.dev with cfg := { s.dev.cfg with ended := true } } : Dev).bodyEnd := Nat.not_lt.mpr hend
    simp only [List.isEmpty_nil, hcount, hpos, hcontention, hsome, ne_eq, not_true_eq_false, decide_false, Bool.not_true, Bool.or_self, Option.isNone_some,
      Bool.false_eq_true, if_false]
  case endBad =>
    intro o p s hopen hbad
    refine State.act_eq_next (Dev.packet_bad hopen ?_)
    exact if_pos (by simpa using hbad)

/-! ### Ends -/

/-- Settles O7: each end where the stream is in the state that waits for it. -/
theorem streamEndsComplete : Obligations.StreamEndsComplete := by
  refine ⟨?tagOk, ?tagBad, ?signed, ?unsigned, ?stall, ?endOfData, ?chainTimeout, ?forwarded, ?linkError⟩
  case tagOk =>
    intro digest s hstreaming hstate hreadable herr
    refine State.act_eq_next ?_
    simp only [hstreaming, hstate, hreadable, ne_eq, not_true_eq_false, decide_false, Bool.not_true, Bool.or_self, Bool.false_and, Dev.on_false,
      Bool.false_eq_true, if_false]
    simp only [Dev.st_cfg, herr]
  case tagBad =>
    intro digest s hstreaming hstate hreadable
    refine State.act_eq_next ?_
    simp only [hstreaming, hstate, hreadable, ne_eq, not_true_eq_false, decide_false, Bool.not_true, Bool.not_false, Bool.or_self, Bool.false_and,
      Dev.on_false, Bool.false_eq_true, if_false, if_true]
    rfl
  case signed =>
    intro s hstreaming hstate
    refine State.act_eq_next ?_
    simp only [hstreaming, hstate, ne_eq, not_true_eq_false, decide_false, Bool.not_true, Bool.or_self, Bool.false_eq_true, if_false, if_true]
  case unsigned =>
    intro s hstreaming hstate
    refine State.act_eq_next ?_
    simp only [hstreaming, hstate, ne_eq, not_true_eq_false, decide_false, Bool.not_true, Bool.or_self, Bool.false_eq_true, if_false]
  case stall =>
    intro s hreceiving hsource
    refine State.act_eq_next ?_
    simp [hreceiving, hsource]
  case endOfData =>
    intro s hreceiving hsource
    refine State.act_eq_next ?_
    simp [hreceiving, hsource]
  case chainTimeout =>
    intro s hreceiving hsource hbytes
    refine State.act_eq_next ?_
    simp [hreceiving, hsource, hbytes]
  case forwarded =>
    intro n s hstate
    exact State.act_eq_next (if_neg (not_not.mpr hstate))
  case linkError =>
    intro n s hstate
    exact State.act_eq_next (if_neg (not_not.mpr hstate))

end Sys2Proof.Machine

/-! Commands that Hearth carries out (R453, R459 to R461, R473), and those on a numbered transaction (R123, R127): the gates pass, and the command's own
effect on the taken state is answered. -/

namespace Sys2Proof.Machine

/-! ### Taking a command -/

/-- A write of a register above another leaves it alone, whichever of a run of instances is written. -/
theorem Dev.rd_st_above (d : Dev) {f g : Fld} {a b : Ix} (v : Nat) (h : g.key b < f.key a) : (d.st f a v).rd g b = d.rd g b :=
  Dev.rd_st_ne d v (Nat.ne_of_lt h)

/-- Taking a command moves the ring's head only: the mode is as it was. -/
@[simp] theorem Dev.mode_taken (d : Dev) (fn : Nat) : (d.taken fn).mode = d.mode :=
  Dev.mode_congr (Dev.rd_st_above d _ (by simp only [Fld.key, F.HRT_MODE_mode, F.HRT_CQ_HEAD_taken, Ix.at]; omega))

/-- So is every function's type. -/
theorem Dev.rd_fnType_taken (d : Dev) (fn k : Nat) : (d.taken fn).rd F.HRT_FN_STAT_type (Ix.at k) = d.rd F.HRT_FN_STAT_type (Ix.at k) :=
  Dev.rd_st_ne d _ (by simp only [Fld.key, F.HRT_FN_STAT_type, F.HRT_CQ_HEAD_taken, Ix.at]; omega)

@[simp] theorem Dev.isVf_taken (d : Dev) (fn k : Nat) : (d.taken fn).isVf k = d.isVf k := by
  unfold Dev.isVf
  rw [Dev.rd_fnType_taken]

/-- A command that passes the gates of R453 and R473 is its own effect on the taken state, with its answer. -/
theorem Dev.command_of_open {d : Dev} {c : HostCmd} {g n : Nat} (h : d.hostOpen c g n) (f : Dev → Dev × Option Reply) :
    d.command c g n f = match f (d.taken c.fn) with
      | (D, some r) => D.respond c g n r
      | (D, none) => D := by
  obtain ⟨hring, hvf, hmode⟩ := h
  have hgate : (d.isVf c.fn && vfDenies g n) = false := by
    cases hd : d.isVf c.fn with
    | false => rfl
    | true => rw [hvf hd]; rfl
  have htaken : d.addWrap F.HRT_CQ_HEAD_taken (Ix.at c.fn) = d.taken c.fn := rfl
  rcases hf : f (d.taken c.fn) with ⟨D, _ | r⟩ <;>
    simp only [Dev.command, hring, htaken, Dev.isVf_taken, hgate, Dev.mode_taken, hmode, hf, Bool.not_true, Bool.false_eq_true, if_false]

/-- It answers. -/
theorem Dev.command_answers {d D : Dev} {c : HostCmd} {g n : Nat} {r : Reply} (h : d.hostOpen c g n) {f : Dev → Dev × Option Reply}
    (hf : f (d.taken c.fn) = (D, some r)) : d.command c g n f = D.respond c g n r := by
  rw [Dev.command_of_open h f, hf]

/-- It succeeds with its result. -/
theorem Dev.command_done {d D : Dev} {c : HostCmd} {g n : Nat} {l : List Nat} (h : d.hostOpen c g n) {f : Dev → Dev × Option Reply}
    (hf : f (d.taken c.fn) = done D l) : d.command c g n f = D.succeed c g n l := Dev.command_answers h hf

/-- It is refused, and nothing changes but the answer. -/
theorem Dev.command_refused {d D : Dev} {c : HostCmd} {g n status detail : Nat} (h : d.hostOpen c g n) {f : Dev → Dev × Option Reply}
    (hf : f (d.taken c.fn) = refuse D status detail) : d.command c g n f = D.respond c g n { status := status, detail := detail } :=
  Dev.command_answers h hf

/-- It will answer later. -/
theorem Dev.command_waits {d D : Dev} {c : HostCmd} {g n : Nat} (h : d.hostOpen c g n) {f : Dev → Dev × Option Reply}
    (hf : f (d.taken c.fn) = (D, none)) : d.command c g n f = D := by
  rw [Dev.command_of_open h f, hf]

/-! ### Commands on a transaction -/

/-- A command on a transaction in a state that allows it is its own effect; its status is the transaction's last one, but for TXN_STATUS (R127). -/
theorem Dev.onTxn_of_open {d : Dev} {c : HostCmd} {n t : Nat} {allowed : Nat → Bool} (h : d.txnOpen c n t allowed) (f : Dev → Dev × Option Reply) :
    d.onTxn c n t allowed f = match f (d.taken c.fn) with
      | (D, some r) => (if n = 9 then D else D.st F.HRT_TXN_STAT_status (Ix.at t) r.status).respond c grpTXN n r
      | (D, none) => D := by
  obtain ⟨hopen, hnumber, hname, hnext, hidle, hallowed⟩ := h
  unfold Dev.onTxn
  rw [Dev.command_of_open hopen]
  simp only [Nat.not_le.mpr hnumber, hname, hnext, hidle, hallowed, Bool.not_true, Bool.false_eq_true, if_false]
  rcases f (d.taken c.fn) with ⟨D, _ | r⟩ <;> rfl

/-- It answers, and the answer is the transaction's last status. -/
theorem Dev.onTxn_answers {d D : Dev} {c : HostCmd} {n t : Nat} {allowed : Nat → Bool} {r : Reply} (hn : n ≠ 9) (h : d.txnOpen c n t allowed)
    {f : Dev → Dev × Option Reply} (hf : f (d.taken c.fn) = (D, some r)) : d.onTxn c n t allowed f = D.txnAnswer c n t r := by
  rw [Dev.onTxn_of_open h, hf]
  dsimp only
  rw [if_neg hn]
  rfl

/-- It will answer later. -/
theorem Dev.onTxn_waits {d D : Dev} {c : HostCmd} {n t : Nat} {allowed : Nat → Bool} (h : d.txnOpen c n t allowed) {f : Dev → Dev × Option Reply}
    (hf : f (d.taken c.fn) = (D, none)) : d.onTxn c n t allowed f = D := by
  rw [Dev.onTxn_of_open h, hf]

/-- Settles O8: TXN_BEGIN by `Dev.command_done`, the commands on a number by `Dev.onTxn_answers`. -/
theorem transactionCommandsComplete : Obligations.TransactionCommandsComplete := by
  refine ⟨?begin, ?beginDefault, ?beginFull, ?write, ?writeRange, ?writeList, ?stream, ?read, ?commit, ?commitRefused, ?cancel, ?rollback, ?status⟩
  case begin =>
    intro c ms s t d' hopen hms hmax hfree
    refine State.act_eq_next (Dev.command_done hopen ?_)
    simp only [hms, Nat.not_lt.mpr hmax, hfree, if_false]
  case beginDefault =>
    intro c s t d' hopen hfree
    refine State.act_eq_next (Dev.command_done hopen ?_)
    have hmax : ¬ 600000 < 10000 := by decide
    simp only [if_true, hmax, hfree, if_false]
  case beginFull =>
    intro c ms s hopen hms hmax hfull
    refine State.act_eq_next (Dev.command_refused hopen ?_)
    simp only [hms, Nat.not_lt.mpr hmax, hfull, if_false]
  case write =>
    intro c t die off v s d' hopen hdie halign hstage
    refine State.act_eq_next (Dev.onTxn_answers (by decide) hopen ?_)
    simp only [Nat.not_le.mpr hdie, halign, hstage, ne_eq, not_true_eq_false, Bool.false_eq_true, if_false]
    rfl
  case writeRange =>
    intro c t fab die off v s hopen hdie
    refine State.act_eq_next (Dev.onTxn_answers (by decide) hopen (if_pos ?_))
    cases fab
    · exact Nat.le_trans (by decide) hdie
    · exact hdie
  case writeList =>
    intro c t addr n l s d' hopen hn hmax hstage
    refine State.act_eq_next (Dev.onTxn_answers (by decide) hopen ?_)
    simp only [hn, Nat.not_lt.mpr hmax, hstage, decide_false, Bool.or_self, Bool.false_eq_true, if_false]
    rfl
  case stream =>
    intro c t off s hopen harea hvf hstreams hbusy
    refine State.act_eq_next (Dev.onTxn_waits hopen ?_)
    simp only [Nat.not_le.mpr harea, hvf, Nat.not_le.mpr hstreams, hbusy, decide_false, Bool.or_self, Bool.false_eq_true, if_false]
  case read =>
    intro c t addr s x hopen hreg hbar hwindow
    refine State.act_eq_next (Dev.onTxn_answers (by decide) hopen ?_)
    simp only [hreg, hbar, hwindow, Bool.false_eq_true, if_false]
    rfl
  case commit =>
    intro c t trig s detail d' hopen harm
    refine State.act_eq_next (Dev.onTxn_answers (by decide) hopen ?_)
    simp only [harm, if_true]
    rfl
  case commitRefused =>
    intro c t trig s e detail d' hopen harm he
    refine State.act_eq_next (Dev.onTxn_answers (by decide) hopen ?_)
    simp only [harm, he, if_false]
    rfl
  case cancel =>
    intro c t s hopen
    exact State.act_eq_next (Dev.onTxn_answers (by decide) hopen rfl)
  case rollback =>
    intro c t s hopen
    exact State.act_eq_next (Dev.onTxn_answers (by decide) hopen rfl)
  case status =>
    intro c t s hopen
    exact State.act_eq_next (Dev.onTxn_of_open hopen _)

/-- Settles O9: the events of the device's own, each where its condition holds. -/
theorem transactionEventsComplete : Obligations.TransactionEventsComplete := by
  refine ⟨?autoArm, ?timeout, ?launch, ?launchEmber, ?cycle, ?resync, ?release, ?stall⟩
  case autoArm =>
    intro t s hdflt hstate hmode
    refine State.act_eq_next ?_
    extract_lets n ns x
    have hopen : ¬(!(s.dev.txn n).dflt || !openOrReady (s.dev.tState n) || s.dev.mode == .ember || s.dev.mode == .cold || s.dev.mode == .load) := by
      simp [n, hdflt, hstate, hmode]
    have hx : s.dev.arm n (.instant (ns / 10 ^ 9) (ns % 10 ^ 9)) = x := rfl
    rewrite [if_neg hopen, hx]
    clear_value x
    obtain ⟨e, detail, d'⟩ := x
    rfl
  case timeout =>
    intro t s hstate hdflt htimeout
    refine State.act_eq_next ?_
    simp [hdflt, hstate, htimeout]
  case launch =>
    intro t s hstate hember hquiet
    refine State.act_eq_next ?_
    simp only [hstate, beq_eq_false_iff_ne.mpr hember, hquiet, ne_eq, not_true_eq_false, Bool.false_eq_true, if_false]
  case launchEmber =>
    intro t s hstate hember
    refine State.act_eq_next ?_
    simp only [hstate, hember, ne_eq, not_true_eq_false, beq_self_eq_true, if_false, if_true]
  case cycle =>
    intro t s hstate
    exact State.act_eq_next (if_neg (not_not.mpr hstate))
  case resync =>
    intro t s hstate
    exact State.act_eq_next (if_neg (Nat.not_lt.mpr hstate))
  case release =>
    intro f n s hreset
    refine State.act_eq_next ?_
    simp only [hreset, Bool.not_true, Bool.false_eq_true, if_false]
  case stall =>
    intro f n s hreset hstalled
    refine State.act_eq_next ?_
    simp only [hreset, hstalled, Bool.not_true, Bool.or_self, Bool.false_eq_true, if_false]

end Sys2Proof.Machine

/-! The fabric's clocks, tap guards and crossing bundles (R160, R162, R167, R170, R171, R196). -/

namespace Sys2Proof.Machine

/-- Settles O11: each command opens its guard; a bundle whose spares are both free takes the first. -/
theorem fabricCommandsComplete : Obligations.FabricCommandsComplete := by
  refine ⟨?clash, ?lock, ?lockLate, ?refGood, ?refBad, ?lockLoss, ?stopped, ?resumed, ?bundle⟩
  case clash =>
    intro line frame s hline hframe
    refine State.act_eq_next ?_
    simp only [hline, hframe, Bool.not_true, Bool.or_self, Bool.false_eq_true, if_false]
  case lock =>
    intro f p s hon href
    refine State.act_eq_next ?_
    simp only [hon, href, Bool.not_true, Bool.or_self, Bool.false_eq_true, if_false]
  case lockLate =>
    intro f p s hon hstep9 hunlocked
    refine State.act_eq_next ?_
    simp only [hon, hstep9, hunlocked, Bool.not_false, Bool.and_self, if_true]
    rfl
  case refGood =>
    intro f p khz s hon hsel hok
    refine State.act_eq_next ?_
    simp only [hon, hsel, hok, decide_false, Bool.not_true, Bool.or_self, Bool.false_eq_true, if_false, if_true]
  case refBad =>
    intro f p khz s hon hsel hbad
    refine State.act_eq_next ?_
    simp only [hon, hsel, hbad, decide_false, Bool.not_true, Bool.or_self, Bool.false_eq_true, if_false]
    rfl
  case lockLoss =>
    intro f p s hlocked
    refine State.act_eq_next ?_
    simp only [hlocked, Bool.not_true, Bool.false_eq_true, if_false]
  case stopped =>
    intro f n twinned s hmonitored hrunning
    refine State.act_eq_next ?_
    simp only [hmonitored, hrunning, Nat.zero_ne_one, decide_false, Bool.not_true, Bool.or_self, Bool.false_eq_true, if_false]
    rfl
  case resumed =>
    intro f n s hstopped
    refine State.act_eq_next ?_
    simp only [hstopped, Nat.one_ne_zero, if_false]
  case bundle =>
    intro pair bundle upper w rgn s hfree
    refine State.act_eq_next ?_
    simp only [hfree, List.length_nil, List.nil_append, Nat.zero_lt_two, Nat.zero_ne_one, decide_false, Bool.false_eq_true, if_true, if_false]

end Sys2Proof.Machine

/-! Packets of the network on chip (R210 to R224) and its events: each shared wrapper (landing, serving) has an equation per case, which the clauses cite. -/

namespace Sys2Proof.Machine

/-! ### Landing and serving -/

/-- A packet that lands goes on at its target. -/
theorem Dev.landed_of_lands {d : Dev} {p : NocPkt} (h : d.lands p) (f : Dev → Dev) : d.landed p f = f (d.unbuffer p.id) := by
  obtain ⟨hmode, hpkg, hopen⟩ := h
  simp only [Dev.landed, beq_eq_false_iff_ne.mpr hmode, hpkg, hopen, ne_eq, not_true_eq_false, Bool.false_eq_true, if_false]

/-- A request that the target has completed is answered. -/
theorem Dev.serve_answered {d d' : Dev} {p : NocPkt} {f : Dev → Option (Resp × List Byte × Dev)} {r : Resp} {l : List Byte} (h : d.lands p)
    (haddr : (d.atTarget p).decodeAddr (pktAddr p) = some p.dst.toNat) (hf : f (d.atTarget p) = some (r, l, d')) :
    d.landed p (fun d => d.serve p f) = d'.answer p r (bytesWords l) := by
  rw [Dev.landed_of_lands h]
  refine (if_neg (not_not.mpr haddr)).trans ?_
  change (match f (d.atTarget p) with | some (r, l, d) => _ | none => _) = _
  rw [hf]

/-- A request that it has not completed is held. -/
theorem Dev.serve_held {d : Dev} {p : NocPkt} {f : Dev → Option (Resp × List Byte × Dev)} (h : d.lands p)
    (haddr : (d.atTarget p).decodeAddr (pktAddr p) = some p.dst.toNat) (hf : f (d.atTarget p) = none) :
    d.landed p (fun d => d.serve p f) = { d.atTarget p with noc := { (d.atTarget p).noc with taken := (d.atTarget p).noc.taken ++ [p] } } := by
  rw [Dev.landed_of_lands h]
  refine (if_neg (not_not.mpr haddr)).trans ?_
  change (match f (d.atTarget p) with | some (r, l, d) => _ | none => _) = _
  rw [hf]
  rfl

/-- A request for another target's address answers FAULT. -/
theorem Dev.serve_elsewhere {d : Dev} {p : NocPkt} {f : Dev → Option (Resp × List Byte × Dev)} (h : d.lands p)
    (haddr : (d.atTarget p).decodeAddr (pktAddr p) ≠ some p.dst.toNat) :
    d.landed p (fun d => d.serve p f) = (d.atTarget p).answer p .fault [] := by
  rw [Dev.landed_of_lands h]
  exact if_pos haddr

/-- The decoder does not look at the outstanding requests. -/
theorem Dev.decodeAddr_reqs (d : Dev) (reqs : Tbl (Option NocReq)) (x : Nat) :
    ({ d with noc := { d.noc with reqs := reqs } } : Dev).decodeAddr x = d.decodeAddr x := rfl

/-- Settles O12: requests by their gates, packets by `Dev.landed_of_lands` and the equations of `Dev.serve`. -/
theorem packetCommandsComplete : Obligations.PacketCommandsComplete := by
  refine ⟨?apReserved, ?apNoRoute, ?apRead, ?enter, ?discard, ?rd, ?rdHeld, ?wr, ?wrp, ?wrpElsewhere, ?msg, ?rsp, ?transfer, ?bar2, ?bar2Ember⟩
  case apReserved =>
    intro f a addr w len tag full be data s hclosed hmode haddr
    refine State.act_eq_next ?_
    simp only [hclosed, beq_eq_false_iff_ne.mpr hmode, haddr, ne_eq, not_false_eq_true, decide_true, Bool.or_self, Bool.true_or, Bool.false_eq_true,
      if_false, if_true]
  case apNoRoute =>
    intro f a addr w len tag be data s hclosed hmode haddr hreq hquar hroute hlen
    have hparts : (len.val + 1 + 31 - 1) / 31 = 1 := by omega
    refine State.act_eq_next ?_
    simp only [hclosed, beq_eq_false_iff_ne.mpr hmode, haddr, hreq, hquar, hparts, ne_eq, not_true_eq_false, decide_false, Option.isSome_none,
      Bool.or_self, Bool.not_true, Bool.and_false, Bool.false_eq_true, if_false, Dev.decodeAddr_reqs, hroute]
  case apRead =>
    intro f a addr tag dst s hclosed hmode haddr hreq hquar hroute
    refine State.act_eq_next ?_
    simp only [hclosed, beq_eq_false_iff_ne.mpr hmode, haddr, hreq, hquar, ne_eq, not_true_eq_false, decide_false, Option.isSome_none,
      Bool.or_self, Bool.false_and, Bool.false_eq_true, if_false, Dev.decodeAddr_reqs, hroute]
    rfl
  case enter =>
    intro b r inp p s hmode hrt hfields hpkg
    refine State.act_eq_next ?_
    simp [hmode, hrt, hfields, hpkg, Dev.on]
  case discard =>
    intro b r inp p s hmode hrt
    refine State.act_eq_next ?_
    simp only [beq_eq_false_iff_ne.mpr hmode, hrt, Dev.on]
    rfl
  case rd =>
    intro p answer s r l d' hlands haddr hserve
    exact State.act_eq_next (Dev.serve_answered hlands haddr hserve)
  case rdHeld =>
    intro p answer s hlands haddr hserve
    exact State.act_eq_next (Dev.serve_held hlands haddr hserve)
  case wr =>
    intro p answer s r l d' hlands haddr hserve
    exact State.act_eq_next (Dev.serve_answered hlands haddr hserve)
  case wrp =>
    intro p s r l d' hlands haddr hserve
    exact State.act_eq_next (Dev.serve_answered hlands haddr hserve)
  case wrpElsewhere =>
    intro p s hlands haddr
    exact State.act_eq_next (Dev.serve_elsewhere hlands haddr)
  case msg =>
    intro p s hlands
    exact State.act_eq_next (Dev.landed_of_lands hlands _)
  case rsp =>
    intro p q s hop hdst hopen hquar hreq hparts hcode
    refine State.act_eq_next ?_
    simp only [hop, Nat.not_le.mpr hdst, hopen, hquar, hreq, hparts, hcode, ne_eq, not_true_eq_false, decide_false, Bool.or_self, Bool.false_eq_true,
      Nat.lt_irrefl, if_false]
  case transfer =>
    intro e answer s t rest r d' hmode hpack hxfers hstate hmove
    refine State.act_eq_next ?_
    simp only [beq_eq_false_iff_ne.mpr hmode, hpack, hxfers, hstate, hmove, Bool.not_true, Bool.or_self, Bool.false_eq_true, decide_false,
      Bool.false_and, if_false]
  case bar2 =>
    intro fn off bytes answer s d' hclk htype hstep hmode hserve
    refine State.act_eq_next ?_
    simp only [hclk, htype, Nat.not_lt.mpr hstep, beq_eq_false_iff_ne.mpr hmode, hserve, decide_false, Bool.or_self, Bool.false_eq_true, if_false,
      if_true]
  case bar2Ember =>
    intro fn off bytes answer s hclk htype hstep hmode
    refine State.act_eq_next ?_
    simp only [hclk, htype, Nat.not_lt.mpr hstep, beq_iff_eq.mpr hmode, decide_false, Bool.or_self, Bool.false_eq_true, if_false, if_true]

/-- Settles O13: each event where its condition holds. -/
theorem networkEventsComplete : Obligations.NetworkEventsComplete := by
  refine ⟨?hold, ?aged, ?young, ?failed, ?sum, ?drain, ?drained, ?timeout, ?quarantine, ?late, ?close, ?drainEnd, ?reopen, ?utilisation⟩
  case hold =>
    intro pid x s hheld
    refine State.act_eq_next ?_
    simp only [hheld]
  case aged =>
    intro pid x s hbuf hage
    refine State.act_eq_next ?_
    simp only [hbuf, hage, if_true]
  case young =>
    intro pid x s hbuf hage
    refine State.act_eq_next ?_
    simp only [hbuf, Nat.not_le.mpr hage, if_false, id]
  case failed =>
    intro b r prot s hfailed hoff
    exact State.act_eq_next (if_neg (by simp only [hfailed, hoff, decide_false, Bool.or_self, Bool.false_eq_true, not_false_eq_true]))
  case sum => exact fun s => rfl
  case drain =>
    intro s hdraining
    exact State.act_eq_next (if_pos hdraining)
  case drained =>
    intro s hdraining
    exact State.act_eq_next (if_neg (Bool.eq_false_iff.mp hdraining))
  case timeout =>
    intro src tag s hmode hreq
    refine State.act_eq_next (if_neg ?_)
    simp [hmode, Option.isSome_iff_ne_none.mp hreq]
  case quarantine => exact fun src tag s => rfl
  case late =>
    intro src tag p s htaken
    refine State.act_eq_next ?_
    simp only [htaken]
  case close => exact fun x s => rfl
  case drainEnd => exact fun x s => rfl
  case reopen => exact fun x s => rfl
  case utilisation =>
    intro b r u s hthr
    have htop : [u].foldl (fun (m : Nat) (u : Fin 101) => max m u.val) 0 = u.val := Nat.zero_max u.val
    refine State.act_eq_next ?_
    simp only [htop, hthr, decide_true, Bool.true_or, if_true]

end Sys2Proof.Machine

/-! Serial lanes (R262 to R286): a bring-up step by the gate of `Dev.bringUp`, the other events by their own. -/

namespace Sys2Proof.Machine

/-- A step of a lane's bring-up is taken from the state it must be in. -/
theorem Dev.bringUp_of_laneIn {d : Dev} {b l st : Nat} (h : d.laneIn b l st) (f : Dev → Dev) : d.bringUp b l st f = f d := by
  obtain ⟨htrains, hstate, hwaiting, hstuck, hember, hcold⟩ := h
  simp [Dev.bringUp, htrains, hstate, hwaiting, hstuck, hember, hcold]

/-- Settles O17: the steps of bring-up by `Dev.bringUp_of_laneIn`, the rest by their own guards. -/
theorem laneCommandsComplete : Obligations.LaneCommandsComplete := by
  refine ⟨?detect, ?trainA, ?trainB, ?bitLock, ?billetLock, ?timeout, ?back, ?offset, ?refLost, ?refGood, ?ethernet, ?simplex, ?sdi⟩
  case detect => exact fun b l s h => State.act_eq_next (Dev.bringUp_of_laneIn h _)
  case trainA => exact fun b l s h => State.act_eq_next (Dev.bringUp_of_laneIn h _)
  case trainB => exact fun b l s h => State.act_eq_next (Dev.bringUp_of_laneIn h _)
  case bitLock =>
    intro b l s h hnear
    refine State.act_eq_next ((Dev.bringUp_of_laneIn h _).trans ?_)
    simp only [hnear, Bool.not_false, if_true]
  case billetLock => exact fun b l s h => State.act_eq_next (Dev.bringUp_of_laneIn h _)
  case timeout =>
    intro b l st s h hlow hhigh _ hretrain hlink
    obtain ⟨htrains, hstate, hwaiting, -, -, -⟩ := h
    refine State.act_eq_next ?_
    simp only [htrains, hstate, hwaiting, Nat.not_lt.mpr hlow, Nat.not_lt.mpr hhigh, hretrain, hlink, Dev.on, decide_false, Bool.not_true,
      Bool.or_self, Bool.false_and, Bool.false_eq_true, if_false]
  case back =>
    intro b l s hwaiting
    refine State.act_eq_next (if_neg ?_)
    simp [hwaiting]
  case offset =>
    intro b l ppb s h hppb
    exact State.act_eq_next ((Dev.bringUp_of_laneIn h _).trans (if_pos (decide_eq_true hppb)))
  case refLost => exact fun b r s => rfl
  case refGood => exact fun b r s => rfl
  case ethernet =>
    intro b l s hmode hember hcold
    refine State.act_eq_next (if_neg ?_)
    simp [hmode, hember, hcold]
  case simplex =>
    intro b n s henable hsimplex hphase
    refine State.act_eq_next ?_
    simp only [henable, hsimplex, hphase]
    rfl
  case sdi =>
    intro b l s hmode hen
    refine State.act_eq_next (if_neg ?_)
    simp [hmode, hen]

end Sys2Proof.Machine

/-! Engine instructions that change the engine alone (R361 to R376): an instruction issued in the plain way is its result moved on (`State.runOp_pure`), or
its exception (`State.runOp_exc`). Each shape of instruction is a case of one of them, and each instruction a case of its shape. -/

namespace Sys2Proof.Machine

/-! ### Plain issues as commands -/

/-- An instruction whose result on the engine at hand is `G` and starts no branch writes it back. -/
theorem State.runOp_pure {z : State} {e : Fin 1024} {rule : Rule} {f : EngSt → Except Nat EngSt} {G : Dev → EngSt} (h : z.dev.engReady e)
    (hf : f (z.dev.engView e) = .ok (G z.dev)) (hG : (G z.dev).redirect = (z.dev.engView e).redirect) :
    z.runOp e rule (pureOp f) = .next (z.after fun D => D.engDone e (G D)) :=
  State.runOp_eq_next (F := fun D => D.engDone e (G D)) (Dev.run_pure rule h hf (hG.trans (Dev.engView_redirect h)))

/-- An instruction that a check refuses raises its exception. -/
theorem State.runOp_exc {z : State} {e : Fin 1024} {rule : Rule} {f : EngSt → Except Nat EngSt} {c : Nat} (h : z.dev.engReady e)
    (hf : f (z.dev.engView e) = .error c) : z.runOp e rule (pureOp f) = .next (z.after fun D => D.engRaise e c) :=
  State.runOp_eq_next (F := fun D => D.engRaise e c) (Dev.run_exc rule h hf)

/-! ### The scalar shapes -/

section
variable {z : State} {e : Fin 1024} {rule : Rule} (h : z.dev.engReady e)
include h

/-- Two register operands. -/
theorem State.runOp_opRR {f : Nat → Nat → Nat} {fl : EngSt → Nat → Nat → Nat → EngSt} (hfl : ∀ y a b r, (fl y a b r).redirect = y.redirect) (d s t : Nat) :
    z.runOp e rule (opRR f fl d s t) = .next (z.after fun D => D.engDone e (let x := D.engView e
      fl (x.wrG d (f (x.g s) (x.g t) % 2 ^ 32)) (x.g s) (x.g t) (f (x.g s) (x.g t) % 2 ^ 32))) :=
  State.runOp_pure h rfl ((hfl _ _ _ _).trans (EngSt.wrG_redirect _ _ _))

/-- A register and a constant. -/
theorem State.runOp_opRI {f : Nat → Nat → Nat} {fl : EngSt → Nat → Nat → Nat → EngSt} (hfl : ∀ y a b r, (fl y a b r).redirect = y.redirect) (d s i : Nat) :
    z.runOp e rule (opRI f fl d s i) = .next (z.after fun D => D.engDone e (let x := D.engView e
      fl (x.wrG d (f (x.g s) i % 2 ^ 32)) (x.g s) i (f (x.g s) i % 2 ^ 32))) :=
  State.runOp_pure h rfl ((hfl _ _ _ _).trans (EngSt.wrG_redirect _ _ _))

/-- One register operand. -/
theorem State.runOp_opR {f : Nat → Nat} {fl : EngSt → Nat → Nat → EngSt} (hfl : ∀ y a r, (fl y a r).redirect = y.redirect) (d s : Nat) :
    z.runOp e rule (opR f fl d s) = .next (z.after fun D => D.engDone e (let x := D.engView e
      fl (x.wrG d (f (x.g s) % 2 ^ 32)) (x.g s) (f (x.g s) % 2 ^ 32))) :=
  State.runOp_pure h rfl ((hfl _ _ _).trans (EngSt.wrG_redirect _ _ _))

/-- A bit field of a width and a position that the word holds. -/
theorem State.runOp_opField {f : Nat → Nat → Nat → Nat → Nat} {pw : EngSt → Nat × Nat} (hwidth : (pw (z.dev.engView e)).2 ≠ 0)
    (hend : (pw (z.dev.engView e)).1 + (pw (z.dev.engView e)).2 ≤ 32) (d s : Nat) :
    z.runOp e rule (opField f pw d s) = .next (z.after fun D => D.engDone e (let x := D.engView e
      (x.wrG d (f (x.g d) (x.g s) (pw x).1 (pw x).2 % 2 ^ 32)).setZ (f (x.g d) (x.g s) (pw x).1 (pw x).2 % 2 ^ 32))) :=
  State.runOp_pure h (if_neg (by simp [hwidth, hend])) (EngSt.wrG_redirect _ _ _)

/-- A field beyond bit 31 raises ILLEGAL. -/
theorem State.runOp_opField_beyond {f : Nat → Nat → Nat → Nat → Nat} {pw : EngSt → Nat × Nat}
    (hend : 32 < (pw (z.dev.engView e)).1 + (pw (z.dev.engView e)).2) (d s : Nat) :
    z.runOp e rule (opField f pw d s) = .next (z.after fun D => D.engRaise e excILLEGAL) :=
  State.runOp_exc h (if_pos (by simp [hend]))

end

/-- Settles O21: each instruction is a case of its shape, and its flag rule starts no branch. -/
theorem engineScalarInstructionsComplete : Obligations.EngineScalarInstructionsComplete := by
  have zn : ∀ y a b r, (flZN y a b r).redirect = y.redirect := fun y _ _ r => EngSt.setZN_redirect y r
  have z' : ∀ y a b r, (flZ y a b r).redirect = y.redirect := fun y _ _ r => EngSt.setZ_redirect y r
  have r := fun (y : EngSt) (_ r : Nat) => EngSt.setZ_redirect y r
  refine ⟨?add, ?sub, ?and, ?or, ?xor, ?sll, ?srl, ?sra, ?mulh, ?min, ?max, ?slt, ?sltu, ?slli, ?srli, ?srai, ?abs, ?norm, ?sat16, ?bswap, ?clz,
    ?popc, ?brev⟩
  case add => exact fun e d s t z h => State.runOp_opRR h (fun y a b _ => EngSt.flagsAdd_redirect y a b) d s t
  case sub => exact fun e d s t z h => State.runOp_opRR h (fun y a b _ => EngSt.flagsSub_redirect y a b) d s t
  case and => exact fun e d s t z h => State.runOp_opRR h zn d s t
  case or => exact fun e d s t z h => State.runOp_opRR h zn d s t
  case xor => exact fun e d s t z h => State.runOp_opRR h zn d s t
  case sll => exact fun e d s t z h => State.runOp_opRR h zn d s t
  case srl => exact fun e d s t z h => State.runOp_opRR h zn d s t
  case sra => exact fun e d s t z h => State.runOp_opRR h zn d s t
  case mulh => exact fun e d s t z h => State.runOp_opRR h zn d s t
  case min => exact fun e d s t z h => State.runOp_opRR h zn d s t
  case max => exact fun e d s t z h => State.runOp_opRR h zn d s t
  case slt => exact fun e d s t z h => State.runOp_opRR h z' d s t
  case sltu => exact fun e d s t z h => State.runOp_opRR h z' d s t
  case slli => exact fun e d s sh z h => State.runOp_opRI h zn d s sh
  case srli => exact fun e d s sh z h => State.runOp_opRI h zn d s sh
  case srai => exact fun e d s sh z h => State.runOp_opRI h zn d s sh
  case abs => exact fun e d s z h => State.runOp_opR h (fun y a r => (EngSt.setV_redirect _ _).trans (EngSt.setZN_redirect y r)) d s
  case norm => exact fun e d s z h => State.runOp_opR h r d s
  case sat16 => exact fun e d s z h => State.runOp_opR h (fun y a r => (EngSt.setV_redirect _ _).trans (EngSt.setZN_redirect y r)) d s
  case bswap => exact fun e d s z h => State.runOp_opR h (fun _ _ _ => rfl) d s
  case clz => exact fun e d s z h => State.runOp_opR h r d s
  case popc => exact fun e d s z h => State.runOp_opR h r d s
  case brev => exact fun e d s z h => State.runOp_opR h r d s

/-- Settles O22: immediates and bit fields, each a case of its shape. -/
theorem engineImmediateAndFieldInstructionsComplete : Obligations.EngineImmediateAndFieldInstructionsComplete := by
  have zn : ∀ y a b r, (flZN y a b r).redirect = y.redirect := fun y _ _ r => EngSt.setZN_redirect y r
  have z' : ∀ y a b r, (flZ y a b r).redirect = y.redirect := fun y _ _ r => EngSt.setZ_redirect y r
  refine ⟨?addi, ?andi, ?ori, ?xori, ?lui, ?slti, ?extu, ?exts, ?ins, ?beyond, ?extur, ?extsr, ?insr, ?shld⟩
  case addi => exact fun e d s i z h => State.runOp_opRI h (fun y a b _ => EngSt.flagsAdd_redirect y a b) d s (sext16 i)
  case andi => exact fun e d s i z h => State.runOp_opRI h zn d s i.toNat
  case ori => exact fun e d s i z h => State.runOp_opRI h zn d s i.toNat
  case xori => exact fun e d s i z h => State.runOp_opRI h zn d s i.toNat
  case lui => exact fun e d s i z h => State.runOp_opRI h (fun _ _ _ _ => rfl) d s i.toNat
  case slti => exact fun e d s i z h => State.runOp_opRI h z' d s (sext16 i)
  case extu => exact fun e d s pos wm1 z h hend => State.runOp_opField h (Nat.succ_ne_zero wm1.val) hend d s
  case exts => exact fun e d s pos wm1 z h hend => State.runOp_opField h (Nat.succ_ne_zero wm1.val) hend d s
  case ins => exact fun e d s pos wm1 z h hend => State.runOp_opField h (Nat.succ_ne_zero wm1.val) hend d s
  case beyond => exact fun e d s pos wm1 z h hend => State.runOp_opField_beyond h hend d s
  case extur => exact fun e d s t z h hwidth hend => State.runOp_opField h hwidth hend d s
  case extsr => exact fun e d s t z h hwidth hend => State.runOp_opField h hwidth hend d s
  case insr => exact fun e d s t z h hwidth hend => State.runOp_opField h hwidth hend d s
  case shld => exact fun e d s t sh z h => State.runOp_opRR h z' d s t

end Sys2Proof.Machine

/-! Vector instructions, block exponents and scaling (R358, R361, R374, R375): a shape per kind, as for the scalar instructions. -/

namespace Sys2Proof.Machine

section
variable {z : State} {e : Fin 1024} {rule : Rule} (h : z.dev.engReady e)
include h

/-- A lane-by-lane operation on vector registers. -/
theorem State.runOp_opVV {d s t : Nat} (f : Int → Int → Int) (sat flagV : Bool) (hd : vecOk d = true) (hs : vecOk s = true) (ht : vecOk t = true) :
    z.runOp e rule (opVV f sat flagV d s t) = .next (z.after fun D => D.engDone e (
      let x := D.engView e
      let ex := fun l => f (sgn 16 (lane (x.pair s) l)) (sgn 16 (lane (x.pair t) l))
      let r := ofLanes (fun l => unsgn 16 (if sat then clampS 16 (ex l) else ex l))
      let y := (x.wrVec d r).setVZ r
      if flagV then y.setV ((List.range 4).any (fun l => decide (ex l ≠ clampS 16 (ex l)))) else y)) := by
  refine State.runOp_pure h (if_neg (by simp [hd, hs, ht])) ?_
  cases flagV
  · exact (EngSt.setVZ_redirect _ _).trans (EngSt.wrVec_redirect _ _ _)
  · exact (EngSt.setV_redirect _ _).trans ((EngSt.setVZ_redirect _ _).trans (EngSt.wrVec_redirect _ _ _))

/-- One whose lanes wrap, and v tells of it. -/
theorem State.runOp_opVV_wrapping {d s t : Nat} (f : Int → Int → Int) (hd : vecOk d = true) (hs : vecOk s = true) (ht : vecOk t = true) :
    z.runOp e rule (opVV f false true d s t) = .next (z.after fun D => D.engDone e (
      let x := D.engView e
      let ex := fun l => f (sgn 16 (lane (x.pair s) l)) (sgn 16 (lane (x.pair t) l))
      let r := ofLanes (fun l => unsgn 16 (ex l))
      ((x.wrVec d r).setVZ r).setV ((List.range 4).any (fun l => decide (ex l ≠ clampS 16 (ex l)))))) := by
  simpa only [Bool.false_eq_true, if_false, if_true] using State.runOp_opVV h f false true hd hs ht

/-- One whose lanes saturate, and v tells of it. -/
theorem State.runOp_opVV_saturating {d s t : Nat} (f : Int → Int → Int) (hd : vecOk d = true) (hs : vecOk s = true) (ht : vecOk t = true) :
    z.runOp e rule (opVV f true true d s t) = .next (z.after fun D => D.engDone e (
      let x := D.engView e
      let ex := fun l => f (sgn 16 (lane (x.pair s) l)) (sgn 16 (lane (x.pair t) l))
      let r := ofLanes (fun l => unsgn 16 (clampS 16 (ex l)))
      ((x.wrVec d r).setVZ r).setV ((List.range 4).any (fun l => decide (ex l ≠ clampS 16 (ex l)))))) := by
  simpa only [if_true] using State.runOp_opVV h f true true hd hs ht

/-- One whose lanes cannot leave their range. -/
theorem State.runOp_opVV_exact {d s t : Nat} (f : Int → Int → Int) (hd : vecOk d = true) (hs : vecOk s = true) (ht : vecOk t = true) :
    z.runOp e rule (opVV f false false d s t) = .next (z.after fun D => D.engDone e (
      let x := D.engView e
      let r := ofLanes (fun l => unsgn 16 (f (sgn 16 (lane (x.pair s) l)) (sgn 16 (lane (x.pair t) l))))
      (x.wrVec d r).setVZ r)) := by
  simpa only [Bool.false_eq_true, if_false] using State.runOp_opVV h f false false hd hs ht

/-- An operand that is no vector register raises ILLEGAL. -/
theorem State.runOp_opVV_illegal {d s t : Nat} (f : Int → Int → Int) (sat flagV : Bool) (hd : vecOk d = false) :
    z.runOp e rule (opVV f sat flagV d s t) = .next (z.after fun D => D.engRaise e excILLEGAL) :=
  State.runOp_exc h (if_pos (by simp [hd]))

/-- A lane-by-lane shift by at most 15. -/
theorem State.runOp_opVS {d s sh : Nat} (f : Nat → Nat → Nat) (hd : vecOk d = true) (hs : vecOk s = true) (hsh : sh ≤ 15) :
    z.runOp e rule (opVS f d s sh) = .next (z.after fun D => D.engDone e (
      let x := D.engView e
      let r := ofLanes (fun l => f (lane (x.pair s) l) sh)
      (x.wrVec d r).setVZ r)) :=
  State.runOp_pure h (if_neg (by simp [hd, hs, hsh])) ((EngSt.setVZ_redirect _ _).trans (EngSt.wrVec_redirect _ _ _))

/-- A shift beyond 15 raises ILLEGAL. -/
theorem State.runOp_opVS_illegal {d s sh : Nat} (f : Nat → Nat → Nat) (hsh : 15 < sh) :
    z.runOp e rule (opVS f d s sh) = .next (z.after fun D => D.engRaise e excILLEGAL) :=
  State.runOp_exc h (if_pos (by simp [hsh]))

/-- Scaling of a vector by the block exponent. -/
theorem State.runOp_opScalebVr {d s sh : Nat} (hd : vecOk d = true) (hs : vecOk s = true) (hsh : sh ≤ 15) :
    z.runOp e rule (opScalebVr d s sh) = .next (z.after fun D => D.engDone e (
      let x := D.engView e
      let b := min (x.rd .plain locBX) 15
      x.wrVecLoad d (ofLanes (fun l => scale 16 x.rnd b sh (lane (x.pair s) l))))) :=
  State.runOp_pure h (if_neg (by simp [hd, hs, hsh])) (by simp)

/-- Scaling of an accumulator. -/
theorem State.runOp_opScalebAr (a : Nat) {sh : Nat} (hsh : sh ≤ 47) :
    z.runOp e rule (opScalebAr a sh) = .next (z.after fun D => D.engDone e (
      let x := D.engView e
      (List.range 4).foldl (fun (y : EngSt) (l : Nat) => y.wrA a l (scale 48 x.rnd (x.rd .plain locBX) sh (x.acc a l))) x)) :=
  State.runOp_pure h (if_neg (Nat.not_lt.mpr hsh)) (EngSt.wrAs_redirect _ (fun x l => scale 48 x.rnd (x.rd .plain locBX) sh (x.acc a l)) a _)

end

/-- Settles O23: each vector instruction is a case of its shape; the block exponents write `bx` alone. -/
theorem engineVectorInstructionsComplete : Obligations.EngineVectorInstructionsComplete := by
  refine ⟨?vadd, ?vsub, ?vadds, ?vsubs, ?vmin, ?vmax, ?vabs, ?vaddOdd, ?vsll, ?vsrl, ?vsra, ?vsllFar, ?bexpV, ?bexpM, ?bexpMErr, ?bexpA, ?bxrst,
    ?scalebV, ?scalebVr, ?scalebA, ?scalebAr⟩
  case vadd => exact fun e d s t z h hd hs ht => State.runOp_opVV_wrapping h (fun a b => a + b) hd hs ht
  case vsub => exact fun e d s t z h hd hs ht => State.runOp_opVV_wrapping h (fun a b => a - b) hd hs ht
  case vadds => exact fun e d s t z h hd hs ht => State.runOp_opVV_saturating h (fun a b => a + b) hd hs ht
  case vsubs => exact fun e d s t z h hd hs ht => State.runOp_opVV_saturating h (fun a b => a - b) hd hs ht
  case vmin => exact fun e d s t z h hd hs ht => State.runOp_opVV_exact h (fun a b => min a b) hd hs ht
  case vmax => exact fun e d s t z h hd hs ht => State.runOp_opVV_exact h (fun a b => max a b) hd hs ht
  case vabs => exact fun e d s z h hd hs => State.runOp_opVV_saturating h (fun a _ => (a.natAbs : Int)) hd hs hs
  case vaddOdd => exact fun e d s t z h hd => State.runOp_opVV_illegal h _ _ _ hd
  case vsll => exact fun e d s sh z h hd hs hsh => State.runOp_opVS h _ hd hs hsh
  case vsrl => exact fun e d s sh z h hd hs hsh => State.runOp_opVS h _ hd hs hsh
  case vsra => exact fun e d s sh z h hd hs hsh => State.runOp_opVS h _ hd hs hsh
  case vsllFar => exact fun e d s sh z h _ _ hsh => State.runOp_opVS_illegal h _ hsh
  case bexpV => exact fun e s z h hs => State.runOp_pure h (if_pos hs) (EngSt.bexp16_redirect _ _)
  case bexpM =>
    intro e m a y z h hop
    refine State.runOp_pure (G := fun D => y.bexp16 ((D.engView e).load a 8)) h ?_ ((EngSt.bexp16_redirect _ _).trans (EngSt.only_opM hop).redirect)
    simp only [hop, Bool.false_eq_true, if_false]
  case bexpMErr =>
    intro e m a y z h hop
    refine State.runOp_exc h ?_
    simp only [hop, if_true]
  case bexpA => exact fun e a z h => State.runOp_pure h rfl (EngSt.lowerBx_redirect _ _)
  case bxrst => exact fun e z h => State.runOp_pure h rfl (EngSt.wrBx_redirect _ _)
  case scalebV => exact fun e d s z h hd hs => State.runOp_opScalebVr h hd hs (Nat.zero_le 15)
  case scalebVr => exact fun e d s sh z h hd hs hsh => State.runOp_opScalebVr h hd hs hsh
  case scalebA => exact fun e a z h => State.runOp_opScalebAr h a (Nat.zero_le 47)
  case scalebAr => exact fun e a sh z h hsh => State.runOp_opScalebAr h a hsh

end Sys2Proof.Machine

/-! Multiply-accumulates and the accumulator group (R370 to R373); with them, what a plain issue of an operation that changes the device comes to. -/

namespace Sys2Proof.Machine

/-! ### Plain issues of operations on the device -/

section
variable {d : Dev} {e : Nat} (rule : Rule) {op : EngOp} (h : d.engReady e)
include h

/-- An operation that leaves the engine in its task and starts no branch: the engine moves on in the changed device. -/
theorem Dev.run_done {D : Dev} {y : EngSt} (hop : op e (d.engIssued e) (d.engView e) = .done D y) (hstate : D.engState e ≠ 0)
    (htask : D.taskOn e = d.taskOn e) (hy : y.redirect = none) : d.run e rule op = D.setEng e (y.moveOn false) := by
  have hbusy : ((d.taskOn e).isSome && (d.taskOn e).isNone) = false := by cases d.taskOn e <;> rfl
  simp only [Dev.run_plain rule op h, hop, hstate, htask, hbusy, hy, Option.isSome_none, decide_false, Bool.or_self, Bool.false_eq_true, if_false]

/-- An operation that a check refuses raises its exception. -/
theorem Dev.run_raise {c : Nat} (hop : op e (d.engIssued e) (d.engView e) = .exc c) : d.run e rule op = d.engRaise e c := by
  simp only [Dev.run_plain rule op h, hop]

/-- An operation that stalls has issued, and nothing else. -/
theorem Dev.run_stall (hop : op e (d.engIssued e) (d.engView e) = .stall) : d.run e rule op = d.engIssued e := by
  simp only [Dev.run_plain rule op h, hop]

end

/-- A running engine is not idle, whatever it counts. -/
theorem Dev.engState_issued_ne_zero {d : Dev} {e : Nat} (h : d.engReady e) : (d.engIssued e).engState e ≠ 0 := by
  rw [Dev.engState_engIssued, h.1]
  exact Nat.one_ne_zero

/-! ### Four multiplications -/

section
variable {z : State} {e : Fin 1024} {rule : Rule} {f : EngSt → Except Nat EngSt} (h : z.dev.engReady e)
include h

/-- A multiply-accumulate counts its four multiplications and moves the engine on. -/
theorem State.runOp_fourTimes {G : Dev → EngSt} (hf : f (z.dev.engView e) = .ok (G z.dev)) (hG : (G z.dev).redirect = (z.dev.engView e).redirect) :
    z.runOp e rule (fourTimes f) =
      .next (z.after fun D => ((D.engIssued e).count (e.val / 256) 6 211 (e.val % 256) 4).setEng e ((G D).moveOn false)) := by
  refine State.runOp_eq_next (F := fun D => ((D.engIssued e).count (e.val / 256) 6 211 (e.val % 256) 4).setEng e ((G D).moveOn false))
    (Dev.run_done rule h ?_ ?_ ?_ (hG.trans (Dev.engView_redirect h)))
  · simp only [fourTimes, pureOp, hf]
  · rw [Dev.engState_count]
    exact Dev.engState_issued_ne_zero h
  · unfold Dev.taskOn Dev.engIssued
    rw [Dev.count_ken, Dev.count_ken]

/-- One whose operands a check refuses raises its exception. -/
theorem State.runOp_fourTimes_exc {c : Nat} (hf : f (z.dev.engView e) = .error c) :
    z.runOp e rule (fourTimes f) = .next (z.after fun D => D.engRaise e c) := by
  refine State.runOp_eq_next (F := fun D => D.engRaise e c) (Dev.run_raise rule h ?_)
  simp only [fourTimes, pureOp, hf]

/-! ### The accumulator group -/

/-- SACC stores the packed lanes, and clears the accumulator where it says so. -/
theorem State.runOp_opSacc {a k am sh p : Nat} (clear : Bool) {y : EngSt} (hsh : sh ≤ 47) (hop : (z.dev.engView e).opP k am 8 = .ok (p, y)) :
    z.runOp e rule (opSacc a k am sh clear) = .next (z.after fun D => D.engDone e (
      let x := D.engView e
      let w := (y.store p 8 (accPack x a sh)).stick locSS (accClamps x a sh)
      if clear then w.clearAcc a else w)) := by
  have hy := (EngSt.only_opP hop).redirect
  refine State.runOp_pure h ?_ ?_
  · simp only [hop, Nat.not_lt.mpr hsh, if_false]
  · cases clear
    · exact (EngSt.stick_redirect _ _ _).trans ((EngSt.store_redirect _ _ _ _).trans hy)
    · exact (EngSt.clearAcc_redirect _ _).trans ((EngSt.stick_redirect _ _ _).trans ((EngSt.store_redirect _ _ _ _).trans hy))

/-- PACK writes them to a vector register. -/
theorem State.runOp_opPack {g a sh : Nat} (clear : Bool) (hsh : sh ≤ 47) (hg : vecOk g = true) :
    z.runOp e rule (opPack g a sh clear) = .next (z.after fun D => D.engDone e (
      let x := D.engView e
      let w := (x.wrVecLoad g (accPack x a sh)).stick locSS (accClamps x a sh)
      if clear then w.clearAcc a else w)) := by
  refine State.runOp_pure h (if_neg (by simp [hsh, hg])) ?_
  cases clear
  · exact (EngSt.stick_redirect _ _ _).trans (EngSt.wrVecLoad_redirect _ _ _)
  · exact (EngSt.clearAcc_redirect _ _).trans ((EngSt.stick_redirect _ _ _).trans (EngSt.wrVecLoad_redirect _ _ _))

end

/-- Settles O24: multiply-accumulates by `State.runOp_fourTimes`, the accumulator group by `State.runOp_pure`. -/
theorem engineAccumulateInstructionsComplete : Obligations.EngineAccumulateInstructionsComplete := by
  refine ⟨?vmac, ?vmacExc, ?tapm, ?tapmExc, ?vmacr, ?sacc, ?saccClear, ?pack, ?packClear, ?clra, ?accr, ?accrh, ?accw, ?accwOdd⟩
  case vmac =>
    intro e p xa ya y z h hop
    refine State.runOp_fourTimes h ?_ ((macLanes_redirect _ _ _ _ _ _ _).trans (only_macAddrs hop).redirect)
    simp only [hop, Bool.false_eq_true, if_false]
  case vmacExc =>
    intro e p c err z h hop
    refine State.runOp_fourTimes_exc h ?_
    simp only [hop]
  case tapm =>
    intro e p xa ya y z h hbc hmj hop hcheck hbank
    refine State.runOp_fourTimes h ?_ ((EngSt.landTapm_redirect _ _).trans ((macLanes_redirect _ _ _ _ _ _ _).trans (only_macAddrs hop).redirect))
    simp only [hbc, hmj, hop, hcheck, hbank, decide_false, Bool.or_self, Bool.not_true, Bool.false_eq_true, if_false]
  case tapmExc =>
    intro e p err z h hmj
    exact State.runOp_fourTimes_exc h (if_pos (by simp [hmj]))
  case vmacr =>
    intro e q z h hs ht
    exact State.runOp_fourTimes h (if_neg (by simp [hs, ht])) (macLanes_redirect _ _ _ _ _ _ _)
  case sacc => exact fun e a k am sh p y z h hsh hop => State.runOp_opSacc h false hsh hop
  case saccClear => exact fun e a k am sh p y z h hsh hop => State.runOp_opSacc h true hsh hop
  case pack => exact fun e g a sh z h hsh hg => State.runOp_opPack h false hsh hg
  case packClear => exact fun e g a sh z h hsh hg => State.runOp_opPack h true hsh hg
  case clra => exact fun e a z h => State.runOp_pure h rfl (EngSt.clearAcc_redirect _ _)
  case accr => exact fun e g a l z h => State.runOp_pure h rfl (EngSt.wrLoad_redirect _ _ _)
  case accrh => exact fun e g a l z h => State.runOp_pure h rfl (EngSt.wrLoad_redirect _ _ _)
  case accw => exact fun e a l g z h hg => State.runOp_pure h (if_pos hg) (EngSt.wrA_redirect _ _ _ _)
  case accwOdd => exact fun e a l g z h hg => State.runOp_exc h (if_neg (Bool.eq_false_iff.mp hg))

end Sys2Proof.Machine

/-! Loads, stores, moves and codestreams of engines (R359 to R364, R377): each is a plain issue whose operand address its checks allow. -/

namespace Sys2Proof.Machine

section
variable {z : State} {e : Fin 1024} {rule : Rule} (h : z.dev.engReady e)
include h

/-- A load of one register. -/
theorem State.runOp_opLd {g sz a : Nat} {m : MemOp} {sx : Bool} {y : EngSt} (hsz : sz < 2) (hsx : sx = true → sz = 0)
    (hop : (z.dev.engView e).opM m (accW sz) = .ok (a, y)) :
    z.runOp e rule (opLd g m sz sx false) = .next (z.after fun D => D.engDone e (
      let v := (D.engView e).load a (accW sz)
      y.wrLoad g (if sx then unsgn 32 (sgn 16 v) else v))) := by
  have hillegal : (sz = 3 || (sx && sz != 0) || (sz = 2 && !vecOk g)) = false := by
    have h0 : (sx && sz != 0) = false := by
      cases sx with
      | false => rfl
      | true => rw [hsx rfl]; rfl
    simp [h0, Nat.ne_of_lt hsz, Nat.ne_of_lt (Nat.lt_succ_of_lt hsz)]
  refine State.runOp_pure h ((if_neg (Bool.eq_false_iff.mp hillegal)).trans ?_)
    ((EngSt.wrLoad_redirect _ _ _).trans (EngSt.only_opM hop).redirect)
  simp only [hop, Nat.ne_of_lt hsz, Bool.false_eq_true, if_false]

/-- A store of one register. -/
theorem State.runOp_opSt {g sz a : Nat} {m : MemOp} {y : EngSt} (hsz : sz < 2) (hop : (z.dev.engView e).opM m (accW sz) = .ok (a, y)) :
    z.runOp e rule (opSt g m sz) = .next (z.after fun D => D.engDone e (y.store a (accW sz) ((D.engView e).g g))) := by
  have hillegal : (sz = 3 || (sz = 2 && !vecOk g)) = false := by simp [Nat.ne_of_lt hsz, Nat.ne_of_lt (Nat.lt_succ_of_lt hsz)]
  refine State.runOp_pure (G := fun D => y.store a (accW sz) ((D.engView e).g g)) h ((if_neg (Bool.eq_false_iff.mp hillegal)).trans ?_)
    ((EngSt.store_redirect _ _ _ _).trans (EngSt.only_opM hop).redirect)
  simp only [hop, Nat.ne_of_lt hsz, if_false]

end

/-- Settles O25: each access by the case of its checks. -/
theorem engineMemoryInstructionsComplete : Obligations.EngineMemoryInstructionsComplete := by
  refine ⟨?ld16, ?ld16s, ?ld32, ?ld64, ?ldSize, ?ldExc, ?st16, ?st32, ?st64, ?lds, ?sts, ?movs, ?movsExc, ?movg, ?putb, ?getb⟩
  case ld16 => exact fun e g m a y z h hop => State.runOp_opLd h (by decide) nofun hop
  case ld16s => exact fun e g m a y z h hop => State.runOp_opLd h (by decide) (fun _ => rfl) hop
  case ld32 => exact fun e g m a y z h hop => State.runOp_opLd h (by decide) nofun hop
  case ld64 =>
    intro e g m a y z h hg hop
    refine State.runOp_pure (G := fun D => y.wrVecLoad g ((D.engView e).load a 8)) h ?_
      ((EngSt.wrVecLoad_redirect _ _ _).trans (EngSt.only_opM hop).redirect)
    have hw : accW (2 : Fin 4).val = 8 := rfl
    simp only [hw, hop, hg]
    rfl
  case ldSize => exact fun e g m err z h => State.runOp_exc h (if_pos rfl)
  case ldExc =>
    intro e g m c z h hop
    have hw : accW (0 : Fin 4).val = 2 := rfl
    refine State.runOp_exc h ?_
    simp only [hw, hop]
    rfl
  case st16 => exact fun e g m a y z h hop => State.runOp_opSt h (by decide) hop
  case st32 => exact fun e g m a y z h hop => State.runOp_opSt h (by decide) hop
  case st64 =>
    intro e g m a y z h hg hop
    refine State.runOp_pure (G := fun D => y.store a 8 ((D.engView e).pair g)) h ?_
      ((EngSt.store_redirect _ _ _ _).trans (EngSt.only_opM hop).redirect)
    have hw : accW (2 : Fin 4).val = 8 := rfl
    simp only [hw, hop, hg]
    rfl
  case lds =>
    intro e i m a y z h hop
    refine State.runOp_pure (G := fun D => y.wrSpecial i ((D.engView e).load a 2) true) h ?_
      ((EngSt.wrSpecial_redirect _ _ _ _).trans (EngSt.only_opM hop).redirect)
    simp only [hop, Bool.false_eq_true, if_false]
  case sts =>
    intro e i m a y z h hop
    refine State.runOp_pure (G := fun D => y.store a 2 ((D.engView e).rd .plain (locX i))) h ?_
      ((EngSt.store_redirect _ _ _ _).trans (EngSt.only_opM hop).redirect)
    simp only [hop]
  case movs => exact fun e g i z h hok => State.runOp_pure h (if_pos hok) (EngSt.wrSpecial_redirect _ _ _ _)
  case movsExc => exact fun e g i z h hok => State.runOp_exc h (if_neg (Bool.eq_false_iff.mp hok))
  case movg =>
    intro e g i v z h hv
    refine State.runOp_eq_next
      (F := fun D => D.engDone e ((D.engView e).wrG g (if 8 ≤ i.val ∧ i.val < 16 then unsgn 32 (sgn 16 v) else v)))
      (Dev.run_done .free h ?_ (Dev.engState_issued_ne_zero h) (Dev.taskOn_engIssued _ _ _)
        ((EngSt.wrG_redirect _ _ _).trans (Dev.engView_redirect h)))
    simp only [opMovg, hv]
  case putb =>
    intro e w s t k z h hw hsum
    refine State.runOp_pure h ?_ ((EngSt.wrLoad_redirect _ _ _).trans (EngSt.wrLoad_redirect _ _ _))
    have hn : ¬ 32 < (z.dev.engView e).g t := by omega
    have hc : ¬ 31 < (z.dev.engView e).g (w.val + 1) := by omega
    simp only [hw, hn, hc, hsum, decide_false, Bool.not_true, Bool.or_self, Bool.false_eq_true, if_false, if_true]
  case getb =>
    intro e d r t k err z h hr hd hd' hn hc
    refine State.runOp_pure h ?_
      ((EngSt.wrLoad_redirect _ _ _).trans ((EngSt.wrLoad_redirect _ _ _).trans (EngSt.wrLoad_redirect _ _ _)))
    have hn' : ¬ 32 < (z.dev.engView e).g t := by omega
    simp only [hr, hd, hd', hn, hn', Nat.not_lt.mpr hc, decide_false, Bool.not_true, Bool.or_self, Bool.false_eq_true, if_false, if_true]

end Sys2Proof.Machine

/-! Far accesses, sends, stimulus and the end of a task (R338, R348, R349, R379, R380): each by `Dev.run_done` in the device as it leaves it. -/

namespace Sys2Proof.Machine

/-! ### The device at the end of an issue -/

/-- A write of pack memory leaves the engines' states and tasks. -/
theorem Dev.engState_pmWrite (d : Dev) (p : Nat) (w : Option Nat) (a : Nat) (data : List Byte) (k : Nat) : (d.pmWrite p w a data).engState k = d.engState k :=
  (Dev.pmWrite_onlyEn d p w a data).rd _ _

theorem Dev.taskOn_pmWrite (d : Dev) (p : Nat) (w : Option Nat) (a : Nat) (data : List Byte) (k : Nat) : (d.pmWrite p w a data).taskOn k = d.taskOn k := by
  unfold Dev.taskOn
  rw [(Dev.pmWrite_onlyEn d p w a data).ken]

/-- A stalled issue of a running engine has not ended its task. -/
theorem Dev.engState_stalled_ne_zero {d : Dev} {e : Nat} (h : d.engReady e) : ((d.engIssued e).stalled e).engState e ≠ 0 := by
  rw [Dev.engState_stalled]
  exact Dev.engState_issued_ne_zero h

/-- Settles O26: transfers and waits change the engine alone, LL and SC stall, SEND and STIM write the pack, HALT ends the task. -/
theorem engineFarInstructionsComplete : Obligations.EngineFarInstructionsComplete := by
  refine ⟨?xfer, ?waitBusy, ?wait, ?ll, ?scLost, ?sc, ?send, ?stim, ?halt⟩
  case xfer =>
    intro e s k tag dir n z h hs hdev hla hpair hwindow htag
    refine State.runOp_eq_next (Dev.run_done .never h ?_ (Dev.engState_issued_ne_zero h) (Dev.taskOn_engIssued _ _ _) (Dev.engView_redirect h))
    simp only [opXfer, hs, Nat.not_le.mpr hdev, hla, hpair, hwindow, htag, ne_eq, not_true_eq_false, decide_false, Bool.not_true, Bool.or_self,
      Bool.false_eq_true, if_false]
  case waitBusy =>
    intro e d tag z h htag
    exact State.runOp_eq_next (F := fun D => D.engIssued e) (Dev.run_stall .never h (if_pos htag))
  case wait =>
    intro e d tag z h htag
    exact State.runOp_eq_next (Dev.run_done .never h (if_neg htag) (Dev.engState_issued_ne_zero h) (Dev.taskOn_engIssued _ _ _)
      ((EngSt.wrNow_redirect _ _ _).trans (Dev.engView_redirect h)))
  case ll =>
    intro e d s i o z h ho hbad
    refine State.runOp_eq_next (Dev.run_done .never h ?_ (Dev.engState_stalled_ne_zero h)
      ((Dev.taskOn_stalled _ _ _).trans (Dev.taskOn_engIssued _ _ _)) ((EngSt.wrNow_redirect _ _ _).trans (Dev.engView_redirect h)))
    simp only [opLl, ho, hbad, Bool.false_eq_true, if_false]
  case scLost =>
    intro e d s t i o z h ho hll
    refine State.runOp_eq_next (Dev.run_done .never h ?_ (Dev.engState_stalled_ne_zero h)
      ((Dev.taskOn_stalled _ _ _).trans (Dev.taskOn_engIssued _ _ _)) ((EngSt.wrNow_redirect _ _ _).trans (Dev.engView_redirect h)))
    simp only [opSc, ho, hll, decide_false]
    rfl
  case sc =>
    intro e d s t i o z h ho hll
    refine State.runOp_eq_next (Dev.run_done .never h ?_ ?_ ?_ ((EngSt.wrNow_redirect _ _ _).trans (Dev.engView_redirect h)))
    · simp only [opSc, ho, hll, decide_true]
      rfl
    · rw [Dev.engState_pmWrite]
      exact Dev.engState_stalled_ne_zero h
    · rw [Dev.taskOn_pmWrite, Dev.taskOn_stalled, Dev.taskOn_engIssued]
  case send =>
    intro e i s tag seq kind line frame data g z h htag hindex hunit hslots hstate
    refine State.runOp_eq_next (Dev.run_done .never h ?_ ?_ (Dev.taskOn_engIssued _ _ _) (Dev.engView_redirect h))
    · simp only [opSend, htag, Nat.not_le.mpr hindex, hunit, hslots, if_false]
      rfl
    · rw [Dev.engState_setPack, hstate]
      exact Nat.one_ne_zero
  case stim =>
    intro e k s z h hen hroom
    refine State.runOp_eq_next (Dev.run_done .free h ?_ ?_ (Dev.taskOn_engIssued _ _ _) (Dev.engView_redirect h))
    · simp only [opStim, hen, Nat.one_ne_zero, Nat.not_le.mpr hroom, if_false]
    · rw [Dev.engState_setPack]
      exact Dev.engState_issued_ne_zero h
  case halt =>
    intro e s z h hidle
    refine State.runOp_eq_next ?_
    simp only [Dev.run_plain .never _ h, opHalt, hidle, decide_true, Bool.true_or, if_true]

end Sys2Proof.Machine

/-! Branches, repeats, NOP and undefined encodings of engines (R333 to R335, R354, R365 to R368): the branches are those of O55 and O56. -/

namespace Sys2Proof.Machine

/-- A target in a register that the checks allow. -/
theorem regTarget_of_aligned {x : EngSt} {s : Nat} (halign : x.gB s % 4 = 0) (hrange : x.gB s < 2 ^ 18) : regTarget x s = .ok (x.gB s) :=
  if_neg (by omega)

section
variable {z : State} {e : Fin 1024} {rule : Rule} (h : z.dev.engReady e)
include h

/-- A repeat of 1 to 1024 issues. -/
theorem State.runOp_opRptN {n : EngSt → Nat} (hn : n (z.dev.engView e) ≠ 0) (hmax : n (z.dev.engView e) ≤ 1024) :
    z.runOp e rule (opRptN n) = .next (z.after fun D => D.engDone e (let x := D.engView e; ({ x with rpt := some (n x) } : EngSt))) :=
  State.runOp_pure h (if_neg (by omega)) rfl

/-- A block repeat outside any block body takes level 0. -/
theorem State.runOp_opRptbN {len : Nat} {count : EngSt → Nat} (hcount : count (z.dev.engView e) ≤ 1024) (hactive : (z.dev.engView e).active 0 = false)
    (hbody : (z.dev.engView e).inBlock = false) (hend : (z.dev.engView e).pc + 4 * len < 2 ^ 18) :
    z.runOp e rule (opRptbN len count) = .next (z.after fun D => D.engDone e (
      let x := D.engView e
      let y := ((x.wrSoon (locX 32) (count x)).wrSoon (locX 34) (x.pc + 4)).wrSoon (locX 35) (x.pc + 4 * len)
      ({ y with level := 0, inner := none } : EngSt))) := by
  refine State.runOp_pure h ?_ rfl
  simp only [Nat.not_lt.mpr hcount, hactive, hbody, Nat.not_le.mpr hend, Bool.false_eq_true, false_and, or_self, if_false]

end

/-- Settles O27: the branches by O55 and O56, repeats by their shapes, the rest by `State.runOp_pure` and `State.runOp_exc`. -/
theorem engineControlInstructionsComplete : Obligations.EngineControlInstructionsComplete := by
  obtain ⟨hb, hbz, hbnz, hj, hcall, hjr, hcallr, hreti, -⟩ := delaySlots
  obtain ⟨-, hnoRow, -⟩ := branchConditions
  refine ⟨?b, ?bNoRow, ?bz, ?bnz, ?j, ?call, ?jr, ?jrOdd, ?callr, ?reti, ?retiOutside, ?rpt, ?rptr, ?rptb, ?rptbr, ?nop, ?undefinedWord⟩
  case b => exact fun e c off t z => hb e c off t z
  case bNoRow => exact fun e c off z => hnoRow e c off z
  case bz => exact fun e s off z => hbz e s off z
  case bnz => exact fun e s off z => hbnz e s off z
  case j => exact fun e off z => hj e off z
  case call => exact fun e off z => hcall e off z
  case jr =>
    intro e s z h halign hrange
    exact State.runOp_branch (fun x => x.branch true (x.gB s)) h (by rw [regTarget_of_aligned halign hrange]; rfl) fun _ => rfl
  case jrOdd =>
    intro e s z h halign
    have htarget : regTarget (z.dev.engView e) s.val = .error excFETCH := if_pos (.inl halign)
    exact State.runOp_exc h (by rw [htarget]; rfl)
  case callr =>
    intro e s z h halign hrange
    exact State.runOp_branch (fun x => (x.wrG 31 (x.pc + 12)).branch true (x.gB s)) h (by rw [regTarget_of_aligned halign hrange]; rfl) fun _ => rfl
  case reti => exact fun e z => hreti e z
  case retiOutside => exact fun e z h hih => State.runOp_exc h (if_pos hih)
  case rpt =>
    intro e n z h
    exact State.runOp_opRptN h (n := fun _ => n.val + 1) (Nat.succ_ne_zero _) n.isLt
  case rptr => exact fun e s z h hn hmax => State.runOp_opRptN h hn hmax
  case rptb => exact fun e len count z h hcount hactive hbody hend => State.runOp_opRptbN h (count := fun _ => count.val) hcount hactive hbody hend
  case rptbr => exact fun e len s z h hcount hactive hbody hend => State.runOp_opRptbN h hcount hactive hbody hend
  case nop => exact fun e z h => State.runOp_pure h rfl rfl
  case undefinedWord =>
    intro e w z h hw
    exact State.act_eq_next ((if_pos (by rw [hw]; rfl)).trans (Dev.run_exc .free h rfl))

end Sys2Proof.Machine

/-! What happens to an engine and a pack beside its instructions (R324, R339 to R350): each event where its condition holds. -/

namespace Sys2Proof.Machine

/-! ### What a delivery into a ring leaves -/

theorem Dev.rd_pmWrite (d : Dev) (p : Nat) (w : Option Nat) (o : Nat) (data : List Byte) (f : Fld) (a : Ix) :
    (d.pmWrite p w o data).rd f a = d.rd f a := (Dev.pmWrite_onlyEn d p w o data).rd f a

theorem Dev.rd_setSinkUnits (d : Dev) (k : Nat) (l : List SinkUnit) (f : Fld) (a : Ix) : (d.setSinkUnits k l).rd f a = d.rd f a :=
  Dev.rd_congr f a rfl rfl

/-- The count of units produced is none of the ring's settings. -/
theorem Dev.rd_srxEvt_addWrap_produced (d : Dev) (a : Ix) : (d.addWrap F.PK_SRX_STAT_produced a).rd F.PK_SRX_CFG_evt a = d.rd F.PK_SRX_CFG_evt a :=
  Dev.rd_st_ne d _ (by simp only [Fld.key, F.PK_SRX_CFG_evt, F.PK_SRX_STAT_produced]; omega)

theorem Dev.rd_srxEng_addWrap_produced (d : Dev) (a : Ix) :
    (d.addWrap F.PK_SRX_STAT_produced a).rd F.PK_SRX_CFG_evt_eng a = d.rd F.PK_SRX_CFG_evt_eng a :=
  Dev.rd_st_ne d _ (by simp only [Fld.key, F.PK_SRX_CFG_evt_eng, F.PK_SRX_STAT_produced]; omega)

theorem Dev.rd_srxQueue_addWrap_produced (d : Dev) (a : Ix) :
    (d.addWrap F.PK_SRX_STAT_produced a).rd F.PK_SRX_CFG_evt_queue a = d.rd F.PK_SRX_CFG_evt_queue a :=
  Dev.rd_st_ne d _ (by simp only [Fld.key, F.PK_SRX_CFG_evt_queue, F.PK_SRX_STAT_produced]; omega)

/-- Settles O28: each event by its guards; a delivery reads its ring's settings behind its own writes, which leave them. -/
theorem engineEventsComplete : Obligations.EngineEventsComplete := by
  refine ⟨?interrupt, ?llWait, ?preempt, ?saveHanded, ?saveIdle, ?restore, ?debug, ?failed, ?ring, ?scrub⟩
  case interrupt =>
    intro e s hstate hmode hpending haccept hie hurgent
    refine State.act_eq_next ?_
    simp only [hstate, hmode, hpending, haccept, hie, hurgent, ne_eq, not_true_eq_false, decide_false, Bool.not_true, Bool.or_self, Bool.false_and,
      Bool.false_eq_true, if_false]
  case llWait =>
    intro e s hurgent hll
    exact State.act_eq_next (if_pos (by rw [hurgent, hll]; rfl))
  case preempt =>
    intro e t t' d' s hstate hmode hpending haccept hll hdebug htask hclock
    refine State.act_eq_next ?_
    simp only [hstate, hmode, hpending, haccept, hll, hdebug, htask, hclock, ne_eq, not_true_eq_false, decide_false, Option.isSome_none, Bool.not_true,
      Bool.or_self, Bool.false_eq_true, if_false]
  case saveHanded =>
    intro e t k c s htask hphase hslot hbusy hstate hclaim hfree
    refine State.act_eq_next ?_
    simp only [htask, hphase, hslot, hbusy, hstate, hclaim, hfree, ne_eq, not_true_eq_false, decide_false, Bool.or_self, Bool.false_eq_true, if_false,
      if_true]
  case saveIdle =>
    intro e t k s htask hphase hslot hbusy hstate hclaim
    refine State.act_eq_next ?_
    simp only [htask, hphase, hslot, hbusy, hstate, hclaim, ne_eq, not_true_eq_false, decide_false, Bool.or_self, Bool.false_eq_true, if_false]
  case restore =>
    intro e t k s htask hphase hslot hstate
    refine State.act_eq_next ?_
    simp only [htask, hphase, hslot, hstate, ne_eq, not_true_eq_false, if_false]
  case debug =>
    intro e t t' d' s hstate hdebug haccept hll htask hclock
    refine State.act_eq_next ?_
    simp only [hstate, hdebug, haccept, hll, htask, hclock, ne_eq, not_true_eq_false, decide_false, Option.isSome_none, Bool.not_true, Bool.or_self,
      Bool.false_eq_true, if_false]
  case failed =>
    intro e s hfailed hout hdie
    refine State.act_eq_next (if_neg ?_)
    simp [hfailed, hout, hdie]
  case ring =>
    intro p i u r f l s a base n prod lines hup hember hcold hunits hfrags hen hroom hfits
    have hpack : (s.dev.setSinkUnits (4096 + p.val / 8 * 512 + p.val % 8 * 64 + i.val) r).packOf p.val = s.dev.packOf p.val := rfl
    refine State.act_eq_next ?_
    simp only [hup, beq_eq_false_iff_ne.mpr hember, beq_eq_false_iff_ne.mpr hcold, hunits, Bool.not_true, Bool.or_self, Bool.false_eq_true, if_false]
    unfold Dev.ringDeliver
    simp only [Dev.flag, Dev.rd_setSinkUnits, hpack]
    simp only [Dev.flag] at hen
    simp only [a, base, n, prod, lines] at *
    simp only [hen, Nat.not_le.mpr hroom, Nat.not_lt.mpr hfits, hfrags, Bool.not_true, Bool.false_eq_true, if_false, Dev.rd_pmWrite,
      Dev.rd_srxEvt_addWrap_produced, Dev.rd_srxEng_addWrap_produced, Dev.rd_srxQueue_addWrap_produced, Dev.rd_setSinkUnits] <;>
    rfl
  case scrub =>
    intro p corrected bad s hup hscrub
    refine State.act_eq_next (if_neg ?_)
    simp [hup, hscrub]

end Sys2Proof.Machine

/-! The Kennel (R384 to R410): acceptance and release of tasks, its decisions, completions and failures, each where its condition holds. -/

namespace Sys2Proof.Machine

/-- Settles O29: a descriptor in a queue with a token left goes through the checks of its contents; a release copies the template, or is missed. -/
theorem kennelAcceptanceAndReleaseComplete : Obligations.KennelAcceptanceAndReleaseComplete := by
  refine ⟨?acceptNow, ?acceptLater, ?reject, ?rejectStore, ?release, ?miss, ?tick, ?flush, ?cancel⟩
  case acceptNow =>
    intro q l d' s hruns hen htmpl hhead htoken hslot hfault hdelay hperiod
    refine State.act_eq_next ?_
    simp only [hruns, hen, htmpl, hhead, htoken, hslot, hfault, hdelay, hperiod, decide_false, decide_true, Bool.not_true, Bool.or_self, Bool.and_self,
      Bool.false_eq_true, if_false, if_true]
  case acceptLater =>
    intro q l d' s hruns hen htmpl hhead htoken hslot hfault hlater
    refine State.act_eq_next ?_
    simp only [hruns, hen, htmpl, hhead, htoken, hslot, hfault, decide_false, Bool.not_true, Bool.or_self, Bool.and_eq_true, decide_eq_true_eq, hlater,
      Bool.false_eq_true, if_false]
  case reject =>
    intro q l d' code s hruns hen htmpl hhead htoken hslot hfault
    refine State.act_eq_next ?_
    simp only [hruns, hen, htmpl, hhead, htoken, hslot, hfault, decide_false, Bool.not_true, Bool.or_self, Bool.false_eq_true, if_false]
  case rejectStore =>
    intro q l d' s hruns hen htmpl hhead htoken hslot
    refine State.act_eq_next ?_
    simp only [hruns, hen, htmpl, hhead, htoken, hslot, decide_false, Bool.not_true, Bool.or_self, Bool.false_eq_true, if_false, if_true]
  case release =>
    intro q t s hruns hen htmpl hof htoken
    refine State.act_eq_next ((if_pos hruns).trans ?_)
    simp only [Dev.releaseEvent, hen, htmpl, hof, htoken]
    rfl
  case miss =>
    intro q t s hruns hen htmpl hof htoken
    refine State.act_eq_next ((if_pos hruns).trans ?_)
    simp only [Dev.releaseEvent, hen, htmpl, hof, htoken]
    rfl
  case tick =>
    intro b t s hmode hember hruns
    refine State.act_eq_next ?_
    simp only [hmode, beq_eq_false_iff_ne.mpr hember, hruns, Bool.not_true, Bool.false_eq_true, if_false]
  case flush => exact fun q s hon => State.act_eq_next (if_neg (Bool.eq_false_iff.mp hon))
  case cancel => exact fun q s hon => State.act_eq_next (if_neg (Bool.eq_false_iff.mp hon))

/-- A task without an affinity goes to the lowest free engine of the pack. -/
theorem Dev.placeTask_lowest {d : Dev} {p e : Nat} {r : List Nat} {t : Task} (hfree : d.freeOf p = e :: r) (haff : t.aff = none) :
    d.placeTask p t 0 0 = d.dispatch t e 0 2 := by
  simp only [Dev.placeTask, hfree, haff, Nat.zero_ne_one, if_false]

/-- A task whose own engine is free goes to it. -/
theorem Dev.placeTask_own {d : Dev} {e : Nat} {t : Task} (haff : t.aff = some e) (hfree : d.engFree e = true) :
    d.placeTask (e / 32) t 0 0 = d.dispatch t e 0 0 := by
  simp only [Dev.placeTask, haff, hfree, ne_eq, not_true_eq_false, Nat.zero_ne_one, if_false, if_true]

/-- Settles O30: each decision in the order of its choices. -/
theorem kennelDecisionsComplete : Obligations.KennelDecisionsComplete := by
  refine ⟨?dispatch, ?dispatchAff, ?steal, ?patience, ?crossDie, ?preempt, ?watchdog⟩
  case dispatch =>
    intro b h e r t s hruns hserves hfree hclaim hheld hfirst haff
    refine State.act_eq_next ((if_pos (by rw [hruns, hserves]; rfl)).trans ?_)
    simp only [Dev.decide_, hfree, hclaim, hheld, hfirst]
    exact Dev.placeTask_lowest hfree haff
  case dispatchAff =>
    intro b h e e' r t s hruns hserves hfree hclaim hheld hfirst haff hpack hengine
    refine State.act_eq_next ((if_pos (by rw [hruns, hserves]; rfl)).trans ?_)
    simp only [Dev.decide_, hfree, hclaim, hheld, hfirst]
    rw [← hpack]
    exact Dev.placeTask_own haff hengine
  case steal =>
    intro b h e r t s hruns hserves hfree hclaim hheld hfirst hoffers hsteal
    refine State.act_eq_next ((if_pos (by rw [hruns, hserves]; rfl)).trans ?_)
    simp only [Dev.decide_, hfree, hclaim, hheld, hfirst, hoffers, hsteal, Bool.not_true, Bool.false_eq_true, if_false]
  case patience =>
    intro q t e r s hruns hheld hfree
    refine State.act_eq_next ?_
    simp only [hruns, hheld, hfree, Bool.not_true, Bool.false_eq_true, if_false]
  case crossDie =>
    intro b h e r t s hruns hserves hfree hoffers hnear hfar
    refine State.act_eq_next ?_
    simp only [hruns, hserves, hfree, hoffers, hnear, hfar, List.isEmpty_cons, Option.isSome_none, Bool.not_true, Bool.or_self, Bool.false_eq_true,
      if_false]
  case preempt =>
    intro b h t e v k s hruns hserves hbusy hfirst hvictim
    refine State.act_eq_next ?_
    simp only [hruns, hserves, hbusy, hfirst, hvictim, Bool.not_true, Bool.or_self, Bool.false_eq_true, if_false]
  case watchdog =>
    intro e t s htask hwd hbudget hstate haccept hmode
    refine State.act_eq_next ?_
    simp only [htask, hwd, hbudget, hstate, haccept, hmode, ne_eq, not_true_eq_false, decide_false, Bool.not_true, Bool.or_self, Bool.false_eq_true,
      if_false]

/-- No register lies in what the Kennel holds beside its registers. -/
theorem Dev.rd_ken (d : Dev) (k : KenSt) (f : Fld) (a : Ix) : ({ d with ken := k } : Dev).rd f a = d.rd f a := Dev.rd_congr f a rfl rfl

/-- Settles O31: a record that is written, a lane's takeover, a spilled task's return and a die's. -/
theorem kennelCompletionsAndFailuresComplete : Obligations.KennelCompletionsAndFailuresComplete := by
  refine ⟨?completion, ?takeover, ?spill, ?lost, ?dieReturn⟩
  case completion =>
    intro b r x rest w d' s a size prod hen hdie hroom hrec hwrite
    refine State.act_eq_next ?_
    simp only [a, size, prod] at *
    simp only [hen, hdie, Nat.not_le.mpr hroom, hrec, Dev.rd_ken, hwrite, decide_false, Bool.not_true, Bool.or_self, Bool.false_eq_true, if_false] <;>
    rfl
  case takeover =>
    intro b h s up hup hspare hfree
    refine State.act_eq_next ?_
    simp only [up] at *
    simp only [hup, hspare, hfree, Dev.on, Dev.st_ken, Nat.one_ne_zero, decide_true, Bool.not_false, Bool.and_self, if_true, if_false]
  case spill =>
    intro q t m s hspilled
    refine State.act_eq_next ?_
    simp only [hspilled, Bool.true_or, if_true]
  case lost =>
    intro q t s hspilled
    refine State.act_eq_next ?_
    simp only [hspilled, Bool.false_and, Bool.or_self, Bool.false_eq_true, if_false]
  case dieReturn => exact fun b s hruns => State.act_eq_next (if_neg (by rw [hruns]; nofun))

end Sys2Proof.Machine

/-! The stacks, keys and regions (R415 to R447): events by their guards, KEY commands through Hearth's gates by `Dev.command_done` and
`Dev.command_refused`. -/

namespace Sys2Proof.Machine

/-- A stack that is not failed yet fails. -/
theorem Dev.failStack_of_up {d : Dev} {k : Nat} (h : d.rd F.HBM_STATUS_state (ctlIx k) ≠ 4) :
    d.failStack k =
      let sev := if d.allMirrored k then sevDegrade else sevStream
      let D := (d.st F.HBM_STATUS_state (ctlIx k) 4).closeDom (.stack (Fin.ofNat 8 k))
      let D := (List.range 64).foldl (fun (d : Dev) (n : Nat) => if d.rd F.CRY_RGN_state (rgnIx k n) ≠ 0 then d.destroyRegion k n else d) D
      (D.unmirror k).occur { die := k / 2, block := 3, inst := k % 2 * 52, cls := 13, sev := sev, action := 11, detail := k, needs := true,
                             repair := true, res := [resStack k] } :=
  if_neg h

/-- Settles O32: each event by its guards. -/
theorem stackEventsComplete : Obligations.StackEventsComplete := by
  refine ⟨?clean, ?corrected, ?uncorrectable, ?row, ?lastRow, ?spare, ?second, ?copied, ?failed, ?failedTwice, ?pipeline⟩
  case clean =>
    intro k block s hup hpatrol hrange
    refine State.act_eq_next ?_
    simp only [hup, hpatrol, Nat.not_le.mpr hrange, decide_false, Bool.not_true, Bool.or_self, Bool.false_eq_true, if_false, id]
  case corrected =>
    intro k block s hup hpatrol hrange
    refine State.act_eq_next ?_
    simp only [hup, hpatrol, Nat.not_le.mpr hrange, decide_false, Bool.not_true, Bool.or_self, Bool.false_eq_true, if_false]
  case uncorrectable =>
    intro k block s hup hpatrol hrange
    refine State.act_eq_next ?_
    simp only [hup, hpatrol, Nat.not_le.mpr hrange, decide_false, Bool.not_true, Bool.or_self, Bool.false_eq_true, if_false, pcOf]
  case row =>
    intro k row s hup hauto
    refine State.act_eq_next ?_
    simp only [hup, hauto, Dev.on, Bool.not_true, Bool.or_self, Bool.false_eq_true, if_false]
  case lastRow =>
    intro k row s hup hauto
    refine State.act_eq_next ?_
    simp only [hup, hauto, Dev.on, Bool.not_true, Bool.or_self, Bool.false_eq_true, if_false, if_true]
  case spare =>
    intro k pc s hup o hgood hfree
    refine State.act_eq_next ?_
    simp only [o] at *
    simp only [hup, hgood, hfree, decide_false, Bool.not_true, Bool.or_self, Bool.false_eq_true, if_false]
  case second =>
    intro k pc s hup o hgood hused
    refine State.act_eq_next ?_
    simp only [o] at *
    simp only [hup, hgood, hused, decide_false, Bool.not_true, Bool.or_self, Bool.false_eq_true, if_false, if_true]
  case copied => exact fun k bad s hcopying => State.act_eq_next (if_neg (by rw [hcopying]; nofun))
  case failed =>
    intro k s hstate
    refine State.act_eq_next ((Dev.failStack_of_up hstate).trans ?_)
    rw [Fin.ofNat_eq_cast, Fin.cast_val_eq_self]
  case failedTwice => exact fun k s hstate => State.act_eq_next (if_pos hstate)
  case pipeline =>
    intro k pipe i r s hup hfree
    have hsev : (if 2 ≤ (i :: r).length then sevNote else sevDegrade) = if r = [] then sevDegrade else sevNote := by cases r <;> rfl
    refine State.act_eq_next ?_
    simp only [hup, hfree, hsev, if_false]

/-- A key that is no link key in use may be retired. -/
theorem Dev.linkKey_free {d : Dev} {key : Nat} (h : d.keyLevel key = 3 → d.linkKeyInUse key = false) :
    ¬ (d.keyLevel key = 3 ∧ d.linkKeyInUse key = true) := fun ⟨hlevel, huse⟩ => absurd (h hlevel) (by rw [huse]; nofun)

/-- Settles O33: KEY commands by the checks that allow or refuse them, the events by their guards. -/
theorem keyCommandsComplete : Obligations.KeyCommandsComplete := by
  refine ⟨?install, ?restored, ?badValue, ?retire, ?retireRestored, ?retired, ?bbk, ?status, ?switchFrame, ?noNext⟩
  case install =>
    intro c key level src kcv v d' s hopen hbad
    dsimp only
    intro hpart hlow hhigh hstate htake hcheck
    refine State.act_eq_next (Dev.command_done hopen ?_)
    simp [hbad, hpart, Nat.ne_of_gt hlow, hhigh, hstate, htake, hcheck]
  case restored =>
    intro c key level src kcv v d' s hopen hbad
    dsimp only
    intro hpart hlow hhigh hstate htake hcheck hkcv hlevel
    refine State.act_eq_next (Dev.command_done hopen ?_)
    simp [hbad, hpart, Nat.ne_of_gt hlow, hhigh, hstate, htake, hcheck, hkcv, hlevel]
  case badValue =>
    intro c key level src kcv v d' s hopen hbad
    dsimp only
    intro hpart hlow hhigh hstate htake hcheck
    refine State.act_eq_next (Dev.command_refused (detail := 0) hopen ?_)
    simp [hbad, hpart, Nat.ne_of_gt hlow, hhigh, hstate, htake, hcheck]
  case retire =>
    intro c key s hopen hbad
    dsimp only
    intro hpart hstate hlink
    refine State.act_eq_next (Dev.command_done hopen ?_)
    simp [hbad, hpart, hstate, Dev.linkKey_free hlink]
  case retireRestored =>
    intro c key s hopen hbad
    dsimp only
    intro hpart hstate hlink
    refine State.act_eq_next (Dev.command_done hopen ?_)
    simp [hbad, hpart, hstate, Dev.linkKey_free hlink]
  case retired =>
    intro key s hstate hrefs
    refine State.act_eq_next (if_neg ?_)
    simp only [hstate, hrefs]
    decide
  case bbk =>
    intro c src v d' s hopen htake
    refine State.act_eq_next (Dev.command_done hopen ?_)
    simp only [htake]
  case status =>
    intro c key s hopen hbad hpart
    refine State.act_eq_next (Dev.command_done hopen ?_)
    simp only [hbad, hpart, Bool.not_true, Bool.false_eq_true, if_false]
  case switchFrame =>
    intro b g s hstate hnext
    refine State.act_eq_next ?_
    simp only [Nat.not_lt.mpr hstate, hnext, if_false]
  case noNext =>
    intro b g s hstate hnext
    refine State.act_eq_next ?_
    simp only [Nat.not_lt.mpr hstate, hnext, if_false, if_true]

end Sys2Proof.Machine

/-! FULL regions (R425 to R439): the KEY commands about them, their initialisation, sweeps and failures. -/

namespace Sys2Proof.Machine

/-- Settles O34: KEY commands by the checks that allow or refuse them, the events by the region's state. -/
theorem regionCommandsComplete : Obligations.RegionCommandsComplete := by
  refine ⟨?create, ?initialised, ?free, ?freeRefused, ?rekey, ?swept, ?reinit, ?failTransient, ?failDurable⟩
  case create =>
    intro c key stack n base size metaBase metaUnits durable wide s hopen hbad
    dsimp only
    intro hpart hstack hn hsize hsizeMax hunits hunitsMax hmeta hkey hlevel hstate hup hoverlap
    refine State.act_eq_next (Dev.command_done hopen ?_)
    have hrange : (decide (8 ≤ stack.toNat) || decide (64 ≤ n.toNat) || decide (size.toNat = 0) || decide (12287 < size.toNat) ||
        decide (metaUnits.toNat = 0) || decide (12287 < metaUnits.toNat) ||
        decide (metaUnits.toNat * unitBytes < metaBytes (size.toNat * unitBytes) wide)) = false := by
      simp only [Nat.not_le.mpr hstack, Nat.not_le.mpr hn, Nat.ne_of_gt hsize, Nat.not_lt.mpr hsizeMax, Nat.ne_of_gt hunits, Nat.not_lt.mpr hunitsMax,
        Nat.not_lt.mpr hmeta, decide_false, Bool.or_self]
    simp only [hbad, hpart, hrange, hkey, hlevel, hstate, hup, hoverlap, ne_eq, not_true_eq_false, decide_false, Bool.not_true, Bool.or_self,
      Bool.false_eq_true, if_false]
  case initialised => exact fun k n s hstate => State.act_eq_next (if_pos hstate)
  case free =>
    intro c stack n s hopen hgood
    refine State.act_eq_next (Dev.command_done hopen ?_)
    simp only [hgood]
  case freeRefused =>
    intro c stack n e s hopen hbad
    refine State.act_eq_next (Dev.command_refused (detail := 0) hopen ?_)
    simp only [hbad]
  case rekey =>
    intro c stack n s hopen
    dsimp only
    intro hgood hwide hstate hup hgen
    refine State.act_eq_next (Dev.command_done hopen ?_)
    simp only [hgood, hwide, hstate, hup, hgen, ne_eq, not_true_eq_false, decide_false, Bool.not_true, Bool.or_self, Bool.false_eq_true, if_false]
  case swept => exact fun k n s hstate => State.act_eq_next (if_neg (not_not.mpr hstate))
  case reinit =>
    intro c stack n first count s hopen
    dsimp only
    intro hgood hstate hup hextent
    refine State.act_eq_next (Dev.command_done hopen ?_)
    simp only [hgood, hstate, hup, hextent, ne_eq, not_true_eq_false, Bool.not_true, Bool.false_eq_true, if_false]
  case failTransient =>
    intro k n first count s hstate hdurable
    have h0 : s.dev.rd F.CRY_RGN_state (rgnIx k n) ≠ 0 := Nat.ne_of_gt (Nat.lt_of_lt_of_le Nat.zero_lt_two hstate)
    have h1 : s.dev.rd F.CRY_RGN_state (rgnIx k n) ≠ 1 := Nat.ne_of_gt hstate
    refine State.act_eq_next ?_
    simp only [Dev.failMeta, h0, h1, hdurable, decide_false, Bool.or_self, Bool.false_eq_true, Bool.not_false, if_false, if_true]
  case failDurable =>
    intro k n first count s hstate hdurable
    have h0 : s.dev.rd F.CRY_RGN_state (rgnIx k n) ≠ 0 := Nat.ne_of_gt (Nat.lt_of_lt_of_le Nat.zero_lt_two hstate)
    have h1 : s.dev.rd F.CRY_RGN_state (rgnIx k n) ≠ 1 := Nat.ne_of_gt hstate
    refine State.act_eq_next ?_
    simp only [Dev.failMeta, h0, h1, hdurable, decide_false, Bool.or_self, Bool.false_eq_true, Bool.not_true, if_false]

end Sys2Proof.Machine

/-! IMAGE commands (R101 to R112, R463, R472) and the takeover (R469 to R471). -/

namespace Sys2Proof.Machine

/-- The modes from which an image may be loaded. -/
theorem Mode.loads {m : Mode} (h : m = .rehearse ∨ m = .safe) : (m != .rehearse && m != .safe) = false := by
  rcases h with rfl | rfl <;> rfl

/-- Settles O35: each command by the checks that allow its operands, through `Dev.command_done`, `Dev.command_answers` or `Dev.command_waits`. -/
theorem imageCommandsComplete : Obligations.ImageCommandsComplete := by
  refine ⟨?write, ?writeBad, ?loadSlot, ?loadHost, ?abortStartup, ?abortLoad, ?bootPref, ?svnCommit, ?regionPut, ?fwStage, ?fwActivate, ?takeover⟩
  case write =>
    intro c slot addr len bytes tagOk bad s hopen hslot hlow hhigh
    dsimp only
    intro hshut huse hbusy hlen hgood
    refine State.act_eq_next (Dev.command_done hopen ?_)
    simp only [Nat.not_lt.mpr hslot, Nat.ne_of_gt hlow, Nat.not_lt.mpr hhigh, hshut, huse, hbusy, hlen, hgood, Nat.lt_irrefl, decide_false, Bool.or_self,
      Bool.false_eq_true, if_false]
  case writeBad =>
    intro c slot addr len bytes tagOk bad code o s hopen hslot hlow hhigh
    dsimp only
    intro hshut huse hbusy hlen hbad
    refine State.act_eq_next (Dev.command_refused hopen ?_)
    simp only [Nat.not_lt.mpr hslot, Nat.ne_of_gt hlow, Nat.not_lt.mpr hhigh, hshut, huse, hbusy, hlen, hbad, Nat.lt_irrefl, decide_false, Bool.or_self,
      Bool.false_eq_true, if_false]
  case loadSlot =>
    intro c src addr len s hopen hsrc
    dsimp only
    intro hmode hpin hbusy hshut hvalid
    have hlow : src.toNat < 2 := Nat.lt_succ_of_le hsrc
    refine State.act_eq_next (Dev.command_waits hopen ?_)
    simp only [Nat.not_lt.mpr (Nat.le_of_lt hlow), Nat.ne_of_lt hlow, hlow, Mode.loads hmode, hpin, hbusy, hshut, hvalid, decide_false, decide_true,
      Bool.false_and, Bool.or_self, Bool.not_true, Bool.and_false, Bool.false_eq_true, if_false, if_true]
  case loadHost =>
    intro c addr len s hopen hlow hhigh
    dsimp only
    intro hmode hpin hbusy
    have hn : (2#8 : BitVec 8).toNat = 2 := rfl
    refine State.act_eq_next (Dev.command_waits hopen ?_)
    simp only [hn, Nat.ne_of_gt hlow, Nat.not_le.mpr hhigh, Nat.lt_irrefl, Mode.loads hmode, hpin, hbusy, decide_false, Bool.or_self, Bool.and_false,
      Bool.false_and, Bool.false_eq_true, if_false]
  case abortStartup =>
    intro c s hopen hpath
    refine State.act_eq_next (Dev.command_done hopen ?_)
    simp only [hpath] <;> rfl
  case abortLoad =>
    intro c s hopen hpath
    refine State.act_eq_next (Dev.command_done hopen ?_)
    simp only [hpath]
  case bootPref =>
    intro c slot s hopen hslot
    exact State.act_eq_next (Dev.command_done hopen (if_neg (Nat.not_lt.mpr hslot)))
  case svnCommit =>
    intro c s hopen
    dsimp only
    intro himage hreached hsvn
    refine State.act_eq_next (Dev.command_done hopen ?_)
    simp only [himage, hreached, Nat.not_le.mpr hsvn, decide_false, Bool.not_true, Bool.or_self, Bool.false_eq_true, if_false]
  case regionPut =>
    intro c off addr len bytes tagOk s hopen
    dsimp only
    intro hlow hhigh hbusy hlen hgood
    refine State.act_eq_next (Dev.command_done hopen ?_)
    simp only [Nat.ne_of_gt hlow, Nat.not_lt.mpr hhigh, hbusy, hlen, hgood, Nat.lt_irrefl, decide_false, Bool.or_self, Bool.false_eq_true, if_false]
  case fwStage =>
    intro c addr len x s hopen hlow hhigh hsig hjournal
    dsimp only
    intro hsvn
    refine State.act_eq_next (Dev.command_done hopen ?_)
    simp only [Nat.ne_of_gt hlow, Nat.not_lt.mpr hhigh, hsig, hjournal, Dev.st_hst, Nat.not_lt.mpr hsvn, decide_false, Bool.not_true, Bool.or_self,
      Bool.false_eq_true, if_false]
  case fwActivate =>
    intro c commit s hopen
    dsimp only
    intro hstaged hready
    refine State.act_eq_next (Dev.command_done hopen ?_)
    simp only [hstaged, hready, Bool.not_true, Bool.or_self, Bool.false_eq_true, if_false, if_true]
  case takeover =>
    intro missed s hclk hmode hready
    refine State.act_eq_next (if_neg ?_)
    simp [hclk, hmode, hready]

end Sys2Proof.Machine

/-! Kiln's slices (R501 to R506): events by their guards, KILN commands through Hearth's gates. -/

namespace Sys2Proof.Machine

/-- A unit's overdue mark is none of the die's count of them. -/
theorem Dev.rd_klnOverdue_st (d : Dev) (b : Fin 4) (u : Fin 410) (v : Nat) :
    (d.st F.KLN_RES_overdue (Ix.on b u) v).rd F.KLN_STATUS_overdue (Ix.onDie b) = d.rd F.KLN_STATUS_overdue (Ix.onDie b) :=
  Dev.rd_st_ne d v (by
    have hu := u.isLt
    have hb := b.isLt
    simp only [Fld.key, F.KLN_RES_overdue, F.KLN_STATUS_overdue, Ix.on, Ix.onDie]
    omega)

/-- Settles O38: the slices by the guards of their events, the commands by `Dev.command_waits` and `Dev.command_done`. -/
theorem kilnCommandsComplete : Obligations.KilnCommandsComplete := by
  refine ⟨?scheduled, ?refused, ?wanted, ?ends, ?recalled, ?fullTest, ?overdue, ?run, ?result⟩
  case scheduled =>
    intro b u s hmode hdie hslice hrepair hwait hscheduled hfailed hspare hready
    refine State.act_eq_next ?_
    simp only [hmode, hdie, hslice, hrepair, hwait, hscheduled, hfailed, hspare, hready, Option.isSome_none, Option.isNone_none, Option.map_none,
      Bool.not_true, Bool.or_self, Bool.and_false, Bool.false_eq_true, if_false]
  case refused =>
    intro b u s hmode hdie hslice hrepair hwait hscheduled hfailed
    refine State.act_eq_next ?_
    simp only [hmode, hdie, hslice, hrepair, hwait, hscheduled, hfailed, Option.isSome_none, Option.isNone_none, Option.map_none, Bool.not_true,
      Bool.not_false, Bool.true_or, Bool.or_self, Bool.and_false, Bool.false_eq_true, if_false, if_true]
  case wanted =>
    intro b u w s hmode hdie hslice hrepair hwait hfailed
    refine State.act_eq_next ?_
    simp only [hmode, hdie, hslice, hrepair, hwait, hfailed, Option.isSome_none, Option.isNone_some, Option.map_some, Bool.not_true, Bool.or_self,
      Bool.false_and, Bool.false_eq_true, if_false, if_true]
  case ends =>
    intro b n sigOk sig err x s hslice
    refine State.act_eq_next ?_
    simp only [hslice]
  case recalled =>
    intro b n sig err x s hslice hfull
    refine State.act_eq_next ?_
    simp only [hslice, hfull, Bool.false_eq_true, if_false]
  case fullTest =>
    intro b n sig err x s hslice hfull
    refine State.act_eq_next ?_
    simp only [hslice, hfull, if_true, id]
  case overdue =>
    intro b u s hshown hclk
    refine State.act_eq_next ?_
    simp only [hshown, hclk, Bool.or_self, Bool.false_eq_true, if_false, Dev.rd_klnOverdue_st]
  case run =>
    intro c die block inst u s hopen hunit hdie
    dsimp only
    intro hgone hrepair huse
    have hspare : (!(s.dev.taken c.fn).unitFailed die.toNat u && (s.dev.taken c.fn).spareTaken die.toNat u) = false := by
      rcases huse with h | h <;> simp [h]
    refine State.act_eq_next (Dev.command_waits hopen ?_)
    simp only [hunit, Nat.not_lt.mpr hdie, hgone, hrepair, hspare, Bool.or_self, Bool.false_eq_true, if_false]
  case result =>
    intro c die block inst u s hopen hunit hdie
    refine State.act_eq_next (Dev.command_done hopen ?_)
    simp only [hunit, Nat.not_lt.mpr hdie, if_false]

end Sys2Proof.Machine

/-! SPDM and the sideband (R465 to R468): a mailbox that is served answers what the responder says; a session's requests pass its own gate. -/

namespace Sys2Proof.Machine

/-! ### The mailbox and its sessions -/

/-- A well-formed request in a mailbox that is served gets the responder's answer. -/
theorem Dev.mailbox_answers {d D : Dev} {fn code : Nat} {l : List Nat} {f : Dev → (Nat × List Nat) × Dev} (h : d.mailOpen fn)
    (hf : f d = ((code, l), D)) : d.mailbox fn true f = D.emit (.spdm fn code l) := by
  obtain ⟨hclk, hstep, htype, hmode⟩ := h
  simp only [Dev.mailbox, hclk, Nat.not_lt.mpr hstep, htype, beq_eq_false_iff_ne.mpr hmode, hf, ne_eq, not_true_eq_false, decide_false, Bool.or_self,
    Bool.not_true, Bool.false_eq_true, if_false]

/-- A malformed one is InvalidRequest, and counted. -/
theorem Dev.mailbox_malformed {d : Dev} {fn : Nat} (f : Dev → (Nat × List Nat) × Dev) (h : d.mailOpen fn) :
    d.mailbox fn false f = (d.bump F.HRT_FN_STAT_ring_err (Ix.at fn)).emit (.spdm fn 0x7F [1]) := by
  obtain ⟨hclk, hstep, htype, hmode⟩ := h
  simp only [Dev.mailbox, hclk, Nat.not_lt.mpr hstep, htype, beq_eq_false_iff_ne.mpr hmode, ne_eq, not_true_eq_false, decide_false, Bool.or_self,
    Bool.not_false, Bool.false_eq_true, if_false, if_true]

/-- A request inside a finished session of the function is carried out. -/
theorem Dev.inSession_of_open {d : Dev} {fn n : Nat} (h : d.sessionOpen fn n) (f : Dev → (Nat × List Nat) × Dev) : d.inSession fn n f = f d := by
  obtain ⟨x, hsession, hfn, hfinished⟩ := h
  simp only [Dev.inSession, hsession, hfn, hfinished, decide_true, Bool.and_self, if_true]

/-- One measurement, unsigned. -/
theorem Dev.spdmAnswer_measurement {d : Dev} {index : Byte} (nonce : BitVec 256) (hlow : 1 ≤ index.toNat) (hhigh : index.toNat ≤ 6) :
    d.spdmAnswer (.getMeasurements index false nonce) = ((0x60, [d.measurement index.toNat]), d) := by
  have h0 : index.toNat ≠ 0 := Nat.ne_of_gt hlow
  have h255 : index.toNat ≠ 255 := Nat.ne_of_lt (Nat.lt_of_le_of_lt hhigh (by decide))
  simp only [Dev.spdmAnswer, h0, h255, Nat.not_lt.mpr hhigh, decide_false, Bool.false_and, Bool.false_eq_true, if_false]

/-- One measurement, signed over the nonces. -/
theorem Dev.spdmAnswer_measurement_signed {d : Dev} {index : Byte} (nonce : BitVec 256) (hlow : 1 ≤ index.toNat) (hhigh : index.toNat ≤ 6) :
    d.spdmAnswer (.getMeasurements index true nonce) =
      ((0x60, [d.measurement index.toNat, nonce.toNat, (d.draw 256).1, ((d.draw 256).2.draw 768).1]), ((d.draw 256).2.draw 768).2) := by
  have h0 : index.toNat ≠ 0 := Nat.ne_of_gt hlow
  have h255 : index.toNat ≠ 255 := Nat.ne_of_lt (Nat.lt_of_le_of_lt hhigh (by decide))
  simp only [Dev.spdmAnswer, Dev.signature, h0, h255, Nat.not_lt.mpr hhigh, decide_false, Bool.false_and, Bool.false_eq_true, if_false, if_true,
    List.cons_append, List.nil_append]

/-- Settles O39: each request by what the responder says of it. -/
theorem spdmRequestsComplete : Obligations.SpdmRequestsComplete := by
  refine ⟨?version, ?malformed, ?capabilities, ?algorithms, ?digests, ?certificate, ?slot, ?challenge, ?measure, ?measureSigned⟩
  case version => exact fun fn s h => State.act_eq_next (Dev.mailbox_answers h rfl)
  case malformed => exact fun fn s h => State.act_eq_next (Dev.mailbox_malformed _ h)
  case capabilities => exact fun fn s h => State.act_eq_next (Dev.mailbox_answers h rfl)
  case algorithms => exact fun fn s h => State.act_eq_next (Dev.mailbox_answers h rfl)
  case digests => exact fun fn s h => State.act_eq_next (Dev.mailbox_answers h rfl)
  case certificate => exact fun fn off len s h => State.act_eq_next (Dev.mailbox_answers h rfl)
  case slot => exact fun fn slot off len s h hslot => State.act_eq_next (Dev.mailbox_answers h (if_pos hslot))
  case challenge => exact fun fn nonce s h => State.act_eq_next (Dev.mailbox_answers h rfl)
  case measure => exact fun fn index nonce s h hlow hhigh => State.act_eq_next (Dev.mailbox_answers h (Dev.spdmAnswer_measurement nonce hlow hhigh))
  case measureSigned =>
    exact fun fn index nonce s h hlow hhigh => State.act_eq_next (Dev.mailbox_answers h (Dev.spdmAnswer_measurement_signed nonce hlow hhigh))

/-- Settles O40: the requests of a session by `Dev.inSession_of_open`, the sideband by its own gate. -/
theorem spdmSessionsAndSidebandComplete : Obligations.SpdmSessionsAndSidebandComplete := by
  refine ⟨?exchange, ?exchangeFull, ?finish, ?finishBad, ?heartbeat, ?keyUpdate, ?endSession, ?noSession, ?deliver, ?expiry, ?missed, ?bmcMalformed,
    ?bmcPldm, ?bmcSpdm, ?bmcSafe, ?bmcSafeOff, ?bmcHeld⟩
  case exchange =>
    intro fn nonce n s h hfree
    refine State.act_eq_next (Dev.mailbox_answers h ?_)
    simp only [hfree]
    rfl
  case exchangeFull =>
    intro fn nonce s h hfull
    refine State.act_eq_next (Dev.mailbox_answers h ?_)
    simp only [hfull]
    rfl
  case finish =>
    intro fn n x s h hsession hfn hfinished
    refine State.act_eq_next (Dev.mailbox_answers h ?_)
    simp only [hsession, hfn, hfinished, ne_eq, not_true_eq_false, decide_false, Bool.or_self, Bool.false_eq_true, if_false, if_true]
  case finishBad =>
    intro fn n x s h hsession hfn hfinished
    refine State.act_eq_next (Dev.mailbox_answers h ?_)
    simp only [hsession, hfn, hfinished, ne_eq, not_true_eq_false, decide_false, Bool.or_self, Bool.false_eq_true, if_false]
    rfl
  case heartbeat => exact fun fn n s h hopen => State.act_eq_next (Dev.mailbox_answers h (Dev.inSession_of_open hopen _))
  case keyUpdate => exact fun fn n s h hopen => State.act_eq_next (Dev.mailbox_answers h (Dev.inSession_of_open hopen _))
  case endSession => exact fun fn n s h hopen => State.act_eq_next (Dev.mailbox_answers h (Dev.inSession_of_open hopen _))
  case noSession =>
    intro fn n s h hsession
    refine State.act_eq_next (Dev.mailbox_answers h ?_)
    simp only [Dev.inSession, hsession]
    rfl
  case deliver =>
    intro fn n target buffer key s h hopen hbuffer htarget hown
    have hmay : (decide (target.toNat = fn.val) || (decide (fn.val = 0) && s.dev.isVf target.toNat)) = true := by simpa using hown
    refine State.act_eq_next (Dev.mailbox_answers h ((Dev.inSession_of_open hopen _).trans ?_))
    simp only [Nat.not_lt.mpr hbuffer, Nat.not_lt.mpr htarget, hmay, decide_false, Bool.not_true, Bool.or_self, Bool.false_eq_true, if_false]
  case expiry => exact fun fn buffer s => rfl
  case missed =>
    intro n x s hsession
    exact State.act_eq_next (if_pos (by rw [hsession]; rfl))
  case bmcMalformed => exact fun s h => State.act_eq_next (if_neg (by rw [h]; nofun))
  case bmcPldm => exact fun s h => State.act_eq_next (if_neg (by rw [h]; nofun))
  case bmcSpdm => exact fun r s h => State.act_eq_next (if_neg (by rw [h]; nofun))
  case bmcSafe => exact fun s h hfuse hmode => State.act_eq_next (if_pos (by rw [h, hfuse, hmode]; rfl))
  case bmcSafeOff => exact fun s hfuse => State.act_eq_next (if_neg (by rw [hfuse, Bool.and_false]; nofun))
  case bmcHeld => exact fun s => rfl

end Sys2Proof.Machine

/-! Faults (R475 to R502) and the credit ledger (R31, R499, R500). -/

namespace Sys2Proof.Machine

/-- The record of an open handling closes, and its entry is free again. -/
theorem Dev.closeRec_eq (d : Dev) {k : Nat} (r : FltRec) (hk : k < 256) :
    d.closeRec k r = ((d.putRec k (some { r with openR := false, stage := 0, res := [] })).entryFreed).resched := by
  simp only [Dev.closeRec, hk, if_true]

/-- A fabric die that is in service fails: it is reset and held. -/
theorem Dev.fabricDieFailed_of_up {d : Dev} {f : Nat} (hfailed : d.clk.failed.contains (4 + f) = false)
    (hreset : d.clk.inReset.contains (4 + f) = false) :
    d.fabricDieFailed f =
      let D := d.fabricReset f
      ({ D with clk := { D.clk with failed := addNew D.clk.failed (4 + f) } } : Dev).occur
        { die := 4 + f, block := 0, inst := 0, cls := 1, sev := if d.allTwinned f then sevDegrade else sevStream, action := 11, detail := f, needs := true,
          repair := true, res := [resDie (4 + f)] } := by
  simp only [Dev.fabricDieFailed, Dev.on, hfailed, hreset, Bool.not_false, Bool.false_eq_true, if_false, if_true]

/-- Settles O41: records by their stage, dies by whether they are in service. -/
theorem faultCommandsComplete : Obligations.FaultCommandsComplete := by
  refine ⟨?occurrence, ?voter, ?proceeds, ?closes, ?unresolved, ?device, ?overflow, fun w b v s d' h => State.act_eq_next (Dev.registerWrite_posted_of_lands h),
    ?fabric, ?base⟩
  case occurrence =>
    intro o s hclk hcls
    refine State.act_eq_next ?_
    simp only [hclk, hcls, Dev.on, decide_false, Bool.false_and, Bool.false_eq_true, if_false]
  case voter =>
    intro o s hclk hcls hdie
    refine State.act_eq_next ?_
    simp only [hclk, hcls, hdie, Dev.on, decide_true, Bool.and_self, Bool.false_eq_true, if_false, if_true]
  case proceeds =>
    intro k r a res s hrec hstage
    have hopen : (decide (r.stage ≠ 1) && decide (r.stage ≠ 2)) = false := by rcases hstage with h | h <;> simp [h]
    refine State.act_eq_next ?_
    simp only [hrec, hopen, Bool.false_eq_true, if_false]
  case closes =>
    intro k r a s hrec hstage hk
    refine State.act_eq_next ?_
    simp only [hrec, hstage, Dev.closeRec_eq _ _ hk, ne_eq, not_true_eq_false, decide_false, Bool.false_and, Bool.false_eq_true, if_false, if_true]
  case unresolved =>
    intro k r s hrec hstage hk hsev
    refine State.act_eq_next ?_
    simp only [hrec, hstage, Dev.closeRec_eq _ _ hk, hsev, ne_eq, not_true_eq_false, decide_false, Bool.false_and, Bool.false_eq_true, if_false, if_true]
  case device =>
    intro k r s hrec hstage hk hsev
    refine State.act_eq_next ?_
    simp only [hrec, hstage, Dev.closeRec_eq _ _ hk, hsev, ne_eq, not_true_eq_false, decide_false, Bool.false_and, Bool.false_eq_true, if_false, if_true]
  case overflow =>
    intro k old s hoverflow hlowest
    refine State.act_eq_next ?_
    simp only [hoverflow, hlowest, Bool.not_true, Bool.false_eq_true, if_false]
  case fabric =>
    intro f s hclk hfailed hreset
    exact State.act_eq_next ((if_neg (Bool.eq_false_iff.mp hclk)).trans (Dev.fabricDieFailed_of_up hfailed hreset))
  case base =>
    intro b s hclk hfailed hreset hhearth
    refine State.act_eq_next ?_
    simp only [hclk, hfailed, hreset, hhearth, Dev.on, decide_false, Bool.false_and, Bool.or_self, Bool.not_false, Bool.false_eq_true, if_false, if_true]
    congr 2
    funext D c
    rcases cordEnds c with ⟨_ | x, _ | y⟩
    · rfl
    · rfl
    · rfl
    · simp only [Bool.and_eq_true, decide_eq_true_eq]

theorem not_bnot_of_eq_true {b : Bool} (h : b = true) : ¬ (!b) = true := by rw [h]; nofun

/-- Settles O42: audits and mismatches of a die in service, drains of a ledger that drains. -/
theorem ledgerCommandsComplete : Obligations.LedgerCommandsComplete := by
  refine ⟨?audit, ?mismatch, ?complete, ?timeoutRouter, ?timeoutSlot⟩
  case audit => exact fun b s hclk hdie => State.act_eq_next (if_neg (by rw [hclk, hdie]; nofun))
  case mismatch => exact fun b kind inst diff s hclk hdie hdraining => State.act_eq_next (if_neg (by rw [hclk, hdie, hdraining]; nofun))
  case complete =>
    intro b kind inst s hdraining hempty
    have hready : (decide (kind.val = 0) && !s.dev.inputEmpty b inst) = false := by
      by_cases hkind : kind.val = 0
      · rw [hempty hkind, Bool.not_true, Bool.and_false]
      · rw [decide_eq_false hkind, Bool.false_and]
    exact State.act_eq_next (if_neg (by rw [hdraining, hready]; nofun))
  case timeoutRouter => exact fun b inst slot s hdraining => State.act_eq_next (if_neg (not_bnot_of_eq_true hdraining))
  case timeoutSlot => exact fun b inst slot s hdraining => State.act_eq_next (if_neg (not_bnot_of_eq_true hdraining))

end Sys2Proof.Machine

/-! Rails, domains, sags and the hold-up supply (R507 to R520). -/

namespace Sys2Proof.Machine

/-! ### What a sag leaves of the mode -/

/-- Setting a field on the base dies changes no register that it does not lie over. -/
theorem Dev.rd_foldl_st {α : Type} (f g : Fld) (b : Ix) (ix : α → Ix) (v : Nat) (h : ∀ x, g.key b ≠ f.key (ix x)) (l : List α) (d : Dev) :
    (l.foldl (fun (d : Dev) (x : α) => d.st f (ix x) v) d).rd g b = d.rd g b := by
  induction l generalizing d with
  | nil => rfl
  | cons x l ih => exact (ih _).trans (Dev.rd_st_ne d v (h x))

/-- Nor does counting on them. -/
theorem Dev.rd_foldl_bump {α : Type} (f g : Fld) (b : Ix) (ix : α → Ix) (hblock : g.blockAt b ≠ 8) (h : ∀ x, g.key b ≠ f.key (ix x)) (l : List α)
    (d : Dev) : (l.foldl (fun (d : Dev) (x : α) => d.bump f (ix x)) d).rd g b = d.rd g b := by
  induction l generalizing d with
  | nil => rfl
  | cons x l ih => exact (ih _).trans (Dev.rd_bump_ne d 1 (h x) hblock)

/-- The device as a sag is counted and its pin shown. -/
def Dev.sagSeen (d : Dev) (pin : Bool) : Dev :=
  ((List.range 4).foldl (fun (d : Dev) (b : Nat) => d.bump F.PWR_STATUS_sags (Ix.onDie b)) d).on pin (fun d => d.pwrAll F.PWR_STATUS_sag_pin 1)

/-- It is in the mode it was in. -/
theorem Dev.mode_sagSeen (d : Dev) (pin : Bool) : (d.sagSeen pin).mode = d.mode := by
  have hsags : ∀ b : Nat, F.HRT_MODE_mode.key {} ≠ F.PWR_STATUS_sags.key (Ix.onDie b) := by
    intro b
    simp only [Fld.key, F.HRT_MODE_mode, F.PWR_STATUS_sags, Ix.onDie]
    omega
  have hpin : ∀ b : Nat, F.HRT_MODE_mode.key {} ≠ F.PWR_STATUS_sag_pin.key (Ix.onDie b) := by
    intro b
    simp only [Fld.key, F.HRT_MODE_mode, F.PWR_STATUS_sag_pin, Ix.onDie]
    omega
  have hcount := Dev.rd_foldl_bump F.PWR_STATUS_sags F.HRT_MODE_mode {} Ix.onDie (by decide) hsags (List.range 4) d
  refine Dev.mode_congr ?_
  cases pin with
  | false => exact hcount
  | true => exact (Dev.rd_foldl_st F.PWR_STATUS_sag_pin F.HRT_MODE_mode {} Ix.onDie 1 hpin (List.range 4) _).trans hcount

/-- Settles O43: each event by its guards; a sag is seen in the mode it finds. -/
theorem powerCommandsComplete : Obligations.PowerCommandsComplete := by
  refine ⟨?railGood, ?railFirst, ?railAgain, ?wake, ?sag, ?recorded, ?resume, fun s h => State.act_eq_next (if_pos (beq_iff_eq.mpr h)),
    fun s h => State.act_eq_next (if_pos (beq_iff_eq.mpr h)), ?retention, ?vhold, ?capGood, ?capLow⟩
  case railGood =>
    intro b r mv s hclk hvalid
    exact State.act_eq_next ((if_neg (Bool.eq_false_iff.mp hclk)).trans (if_pos hvalid))
  case railFirst =>
    intro b r mv s hclk
    dsimp only
    intro hvalid hmode hquiet
    refine State.act_eq_next ?_
    simp only [hclk, hvalid, beq_eq_false_iff_ne.mpr hmode, hquiet, Dev.on, Bool.false_eq_true, if_false]
  case railAgain =>
    intro b r mv t s hclk
    dsimp only
    intro hvalid hmode hlast hwithin
    refine State.act_eq_next ?_
    simp only [hclk, hvalid, beq_eq_false_iff_ne.mpr hmode, hlast, hwithin, Dev.on, decide_true, Bool.false_eq_true, if_false, if_true]
  case wake =>
    intro b p x s
    dsimp only
    intro hgate hdie hdom hshut
    refine State.act_eq_next ?_
    simp only [hgate, hdie, hdom, hshut, p.isLt, Dev.on, decide_eq_true_eq, decide_false, Bool.or_self, Bool.not_true, Bool.false_eq_true, if_false,
      if_true]
  case sag =>
    intro pin s hclk hcold hember
    have hmode := Dev.mode_sagSeen s.dev pin
    have hcold' : ((s.dev.sagSeen pin).mode == .cold) = false := by rw [hmode, beq_eq_false_iff_ne.mpr hcold]
    have hember' : ((s.dev.sagSeen pin).mode == .ember) = false := by rw [hmode, beq_eq_false_iff_ne.mpr hember]
    exact State.act_eq_next ((if_neg (Bool.eq_false_iff.mp hclk)).trans
      ((if_neg (Bool.eq_false_iff.mp hcold')).trans (if_neg (Bool.eq_false_iff.mp hember'))))
  case recorded =>
    intro s hmode hcomplete
    refine State.act_eq_next (if_neg ?_)
    simp [hmode, hcomplete]
  case resume =>
    intro s hmode hcomplete hretention
    refine State.act_eq_next (if_neg ?_)
    simp [hmode, hcomplete, hretention]
  case retention =>
    intro b r s hmode hlow hhigh
    refine State.act_eq_next ?_
    simp only [hmode, Nat.ne_of_gt hlow, Nat.not_lt.mpr (Nat.le_of_lt hhigh), Nat.ne_of_lt hhigh, Dev.on, bne_self_eq_false, decide_false, Bool.or_self,
      Bool.false_and, Bool.false_eq_true, if_false]
  case vhold => exact fun mv s hclk => State.act_eq_next (if_neg (Bool.eq_false_iff.mp hclk))
  case capGood =>
    intro uf s hclk hmode htest hgood
    refine State.act_eq_next ?_
    simp only [hclk, beq_eq_false_iff_ne.mpr hmode, htest, hgood, Bool.true_or, Bool.not_true, Bool.or_self, decide_true, Bool.false_eq_true, if_false,
      if_true]
  case capLow =>
    intro uf s hclk hmode htest hlow
    refine State.act_eq_next ?_
    simp only [hclk, beq_eq_false_iff_ne.mpr hmode, htest, Nat.not_le.mpr hlow, Bool.true_or, Bool.not_true, Bool.or_self, decide_false,
      Bool.false_eq_true, if_false]

end Sys2Proof.Machine

/-! Counters, snapshots, syncs, trace packets and stimulus (R521 to R534). -/

namespace Sys2Proof.Machine

/-- A posted write of a field whose register takes it leaves what the write gives. -/
theorem Dev.postedWrite_of_lands {d d' : Dev} {w : Writer} {f : Fld} {a : Ix} {v : Word64} (h : d.writeLands w (f.addr a) v.toNat d') :
    d.postedWrite w f a v = d' :=
  Dev.registerWrite_posted_of_lands h

end Sys2Proof.Machine

namespace Sys2Proof.Machine

/-- Settles O45: what the commands of the counters, the trace and the stimulus ports do where their conditions hold. -/
theorem observationCommandsComplete : Obligations.ObservationCommandsComplete := by
  unfold Obligations.ObservationCommandsComplete
  refine ⟨?counterOn, ?counterOff, ?snapshot, ?sync, ?toHbm, ?toLink, ?toDie, ?pop, ?stimulus, ?stimulusFull⟩
  case counterOn =>
    intro w b n v same s d' h hon
    refine State.act_eq_next ?_
    simp only [Dev.postedWrite_of_lands h, hon, Dev.on, if_true]
  case counterOff =>
    intro w b n v same s d' h hon
    refine State.act_eq_next ?_
    simp only [Dev.postedWrite_of_lands h, hon, Dev.on, Bool.false_eq_true, if_false]
  case snapshot =>
    intro b s hheld hcold hdie hmode hsrc
    exact State.act_eq_next (if_neg (by simp [hheld, hcold, hdie, hmode, hsrc]))
  case sync =>
    intro b s hheld hcold hdie hsink
    exact State.act_eq_next (if_neg (by simp [hheld, hcold, hdie, hsink]))
  case toHbm =>
    intro b p r s hheld hcold hember hdie hfifo hsink
    refine State.act_eq_next ((if_neg (by simp [hheld, hcold, hember, hdie])).trans ?_)
    simp only [hfifo, hsink]
  case toLink =>
    intro b p r s hheld hcold hember hdie hfifo hsink hup
    refine State.act_eq_next ((if_neg (by simp [hheld, hcold, hember, hdie])).trans ?_)
    simp only [hfifo, hsink, if_neg (Nat.not_lt.mpr hup)]
  case toDie =>
    intro b p r s hheld hcold hember hdie hfifo hsink
    refine State.act_eq_next ((if_neg (by simp [hheld, hcold, hember, hdie])).trans ?_)
    simp only [hfifo, hsink]
  case pop =>
    intro w b v s d' h
    exact State.act_eq_next (Dev.postedWrite_of_lands h)
  case stimulus =>
    intro f port data s a hstep hember hcold hreset hclock hen hroom
    refine State.act_eq_next ((if_neg ?_).trans (if_neg (Nat.not_le.mpr hroom)))
    simp [hstep, hember, hcold, -List.contains_eq_mem, hreset, hclock, hen, a]
  case stimulusFull =>
    intro f port data s a hstep hember hcold hreset hclock hen hfull
    refine State.act_eq_next ((if_neg ?_).trans (if_pos hfull))
    simp [hstep, hember, hcold, -List.contains_eq_mem, hreset, hclock, hen, a]

end Sys2Proof.Machine

/-! Queries, the log, entries of no command, and function resets (R452, R454, R457 to R459, R481, R482). -/

namespace Sys2Proof.Machine

/-! ### The log's commands -/

/-- The number of entries to read is admissible. -/
theorem logCount_admitted {n : Nat} (hlow : 1 ≤ n) (hhigh : n ≤ 256) : (decide (n = 0) || decide (256 < n)) = false := by
  rw [decide_eq_false (Nat.one_le_iff_ne_zero.mp hlow), decide_eq_false (Nat.not_lt.mpr hhigh), Bool.or_self]

/-- A vector that a virtual function has, every function has. -/
theorem notifyOperands_admitted {vec sev : Nat} (vf : Bool) (hvec : vec < 32) (hsev : sev ≤ 3) :
    (decide ((if vf then 32 else 2048) ≤ vec) || decide (3 < sev)) = false := by
  have hlimit : ¬ (if vf then 32 else 2048) ≤ vec := by
    cases vf with
    | false => exact Nat.not_le.mpr (Nat.lt_trans hvec (by decide))
    | true => exact Nat.not_le.mpr hvec
  rw [decide_eq_false hlimit, decide_eq_false (Nat.not_lt.mpr hsev), Bool.or_self]

/-- What a command writes to its function's memory, where the host takes it. -/
theorem Dev.toMemory_taken (d : Dev) (fn addr : Nat) (words result : List Nat) :
    d.toMemory fn addr true words result = done (d.emit (.hostWrite fn addr words)) result := rfl

/-- Where it does not, the command answers the address. -/
theorem Dev.toMemory_refused (d : Dev) (fn addr : Nat) (words result : List Nat) :
    d.toMemory fn addr false words result = refuse d 0x82 addr := rfl

/-! ### Resets of functions -/

/-- A Function Level Reset of a function that exists in a device that runs acts. -/
theorem flr_reaches {d : Dev} {fn : Nat} (hclk : d.clk.held = false) (htype : d.rd F.HRT_FN_STAT_type (Ix.at fn) ≠ 0) :
    (d.clk.held || decide (d.rd F.HRT_FN_STAT_type (Ix.at fn) = 0)) = false := by
  rw [hclk, decide_eq_false htype, Bool.or_self]

end Sys2Proof.Machine

namespace Sys2Proof.Machine

/-- Settles O20: the answers of the QUERY and LOG commands, of entries of no command, and what the function resets do. -/
theorem queryAndLogCommandsComplete : Obligations.QueryAndLogCommandsComplete := by
  unfold Obligations.QueryAndLogCommandsComplete
  refine ⟨?queryId, ?queryPart, ?queryPartUnwritten, ?queryTime, ?queryHealth, ?logReads, ?logEmpty, ?logNotify, ?unknown, ?flr, ?flrEmber, ?perst⟩
  case queryId =>
    intro c s h
    exact State.act_eq_next (Dev.command_answers h rfl)
  case queryPart =>
    intro c addr s h
    exact State.act_eq_next (Dev.command_done h (Dev.toMemory_taken ..))
  case queryPartUnwritten =>
    intro c addr s h
    exact State.act_eq_next (Dev.command_refused h (Dev.toMemory_refused ..))
  case queryTime =>
    intro c s h
    exact State.act_eq_next (Dev.command_answers h rfl)
  case queryHealth =>
    intro c addr s h
    exact State.act_eq_next (Dev.command_done h (Dev.toMemory_taken ..))
  case logReads =>
    intro c addr max s r h hlow hhigh hlast
    refine State.act_eq_next (Dev.command_answers h ?_)
    simp only [logCount_admitted hlow hhigh, hlast, Dev.toMemory_taken, Bool.not_true, Bool.false_eq_true, if_false, done]
  case logEmpty =>
    intro c addr max s h hlow hhigh hnone
    refine State.act_eq_next (Dev.command_refused h ?_)
    simp only [logCount_admitted hlow hhigh, hnone, List.take_nil, List.getLast?_nil, Bool.false_eq_true, if_false]
  case logNotify =>
    intro c vec sev s h hvec hsev
    refine State.act_eq_next (Dev.command_answers h ?_)
    simp only [notifyOperands_admitted _ hvec hsev, Bool.false_eq_true, if_false, if_true]
    rfl
  case unknown =>
    intro c group cmd s h
    exact State.act_eq_next (if_neg (not_bnot_of_eq_true h))
  case flr =>
    intro fn s hclk htype hmode
    exact State.act_eq_next ((if_neg (ne_true_of_eq_false (flr_reaches hclk htype))).trans (if_neg (by simp [hmode])))
  case flrEmber =>
    intro fn s hclk htype hmode
    exact State.act_eq_next ((if_neg (ne_true_of_eq_false (flr_reaches hclk htype))).trans (if_pos (beq_iff_eq.mpr hmode)))
  case perst =>
    intro b s hclk
    exact State.act_eq_next (if_neg (ne_true_of_eq_false hclk))

end Sys2Proof.Machine

/-! Accesses and run control over the Leash port (R539, R544 to R549). -/

namespace Sys2Proof.Machine

/-! ### Requests of a session -/

section
variable {d : Dev} {fr : LeashFrame} {ok : Dev → Bool}

/-- A request of an unlocked session within its rights is its own effect. -/
theorem Dev.request_within (hport : d.sessionPort fr) (hok : ok d = true) (f : Dev → Dev) :
    d.request fr (fun x => x.withRights (ok x) f) = f d := by
  obtain ⟨hopen, hsession⟩ := hport
  rw [Dev.request_of_portOpen hopen, hok, Dev.withRights_of_session hsession]

/-- Beyond its rights it is denied. -/
theorem Dev.request_beyond (hport : d.sessionPort fr) (hok : ok d = false) (f : Dev → Dev) :
    d.request fr (fun x => x.withRights (ok x) f) = d.ack 3 := by
  obtain ⟨hopen, hsession⟩ := hport
  rw [Dev.request_of_portOpen hopen, hok, Dev.withRights, if_neg hsession, Bool.not_false, if_pos rfl]

/-- Without an unlocked session it is answered LOCKED. -/
theorem Dev.request_locked (hopen : d.portOpen fr) (hlocked : d.rd F.LSH_STAT_rights {} = 0) (f : Dev → Dev) :
    d.request fr (fun x => x.withRights (ok x) f) = d.ack 4 := by
  rw [Dev.request_of_portOpen hopen, Dev.withRights, if_pos hlocked]

/-- A command to an engine that the session may reach is its own effect. -/
theorem Dev.engCommand_of_port {eng : BitVec 16} (h : d.enginePort fr eng.toNat) (f : Dev → Nat → Dev) : d.engCommand fr eng f = f d eng.toNat := by
  obtain ⟨hport, hrights, hengine, hdie⟩ := h
  refine (Dev.request_within hport hrights _).trans ?_
  simp only [if_neg (Nat.not_lt.mpr hengine), hdie, Bool.false_eq_true, if_false]

end

/-! ### Registers and memory -/

section
variable {d : Dev} {addr : Word64} {key a : Nat}

/-- CONSUME of a register reads it with the read's side effect. -/
theorem Dev.lshRead_takes {d' : Dev} {v : Nat} (ans : Option ApAnswer) (haddr : lshAddr addr = some (0, a)) (hctl : isControl a = true)
    (hon : d.dieOff (baseOfAddr a) = false) (hread : d.readAt a = (v, d')) :
    d.lshRead true addr ans = d'.ack 1 (numBytes v 8 ++ [0#8]) := by
  simp [Dev.lshRead, haddr, hctl, hon, hread]

/-- A read of memory that the session may see answers what the memory serves. -/
theorem Dev.lshRead_memory {d' : Dev} {l : List Byte} {ans : Option ApAnswer} (haddr : lshAddr addr = some (key, a)) (hkey : key = 0 ∨ key = 126)
    (hctl : isControl a = false) (hmay : d.lshMemory key a 8 = true) (hserve : d.serveRead key a 8 ans = some (.done, l, d')) :
    d.lshRead false addr ans = d'.ack 1 (l ++ [0#8]) := by
  have hkeys : (decide (key ≠ 0) && decide (key ≠ 126)) = false := by
    obtain rfl | rfl := hkey <;> rfl
  simp only [Dev.lshRead, haddr, hkeys, hctl, hmay, hserve, Bool.not_true, Bool.false_eq_true, if_false]

end

/-! ### Engines -/

/-- The offset of a unit of the save area is admissible. -/
theorem areaOffset_admitted {off : Nat} (halign : off % 4 = 0) (hrange : off ≤ 0x1B4) : (decide (off % 4 ≠ 0) || decide (0x1B4 < off)) = false := by
  simp [halign, hrange]

end Sys2Proof.Machine

namespace Sys2Proof.Machine

/-- Settles O47: a request within the session's rights has its effect, by `Dev.request_within` and `Dev.engCommand_of_port`; beyond them it is answered
DENIED, and LOCKED without a session. -/
theorem leashAccessAndRunControlComplete : Obligations.LeashAccessAndRunControlComplete := by
  unfold Obligations.LeashAccessAndRunControlComplete
  refine ⟨?read, ?readMemory, ?readLocked, ?consume, ?consumeDenied, ?write, ?writeNever, ?writeDenied, ?readBlock, ?benchEnter, ?benchLeave, ?haltIdle,
    ?haltRunning, ?step, ?resumeOn, ?resumeEnds, ?engRead, ?engWrite, ?engWriteState, ?excHalt⟩
  case read =>
    intro fr addr ans a s hport hreads haddr hctl hon
    exact State.act_eq_next ((Dev.request_within hport hreads _).trans (Dev.lshRead_peeks ans haddr (.inl rfl) hctl hon))
  case readMemory =>
    intro fr addr ans key a l d' s hport hreads haddr hkey hctl hmay hserve
    exact State.act_eq_next ((Dev.request_within hport hreads _).trans (Dev.lshRead_memory haddr hkey hctl hmay hserve))
  case readLocked =>
    intro fr addr ans s hopen hlocked
    exact State.act_eq_next (Dev.request_locked hopen hlocked _)
  case consume =>
    intro fr addr ans a v d' s hport hreads hcontrol haddr hctl hon hread
    refine State.act_eq_next ((Dev.request_within hport ?_ _).trans (Dev.lshRead_takes ans haddr hctl hon hread))
    rw [hreads, hcontrol, Bool.and_self]
  case consumeDenied =>
    intro fr addr ans s hport hcontrol
    refine State.act_eq_next (Dev.request_beyond hport ?_ _)
    rw [hcontrol, Bool.and_false]
  case write =>
    intro fr addr value ans a d' s hport hwrites haddr hctl hnever hon hwrite
    refine State.act_eq_next ((Dev.request_within hport hwrites _).trans ?_)
    simp only [haddr, hctl, hnever, hon, hwrite, ne_eq, not_true_eq_false, Bool.false_eq_true, if_false, if_true]
  case writeNever =>
    intro fr addr value ans a s hport hwrites haddr hctl hnever
    refine State.act_eq_next ((Dev.request_within hport hwrites _).trans ?_)
    simp only [haddr, hctl, hnever, ne_eq, not_true_eq_false, if_false, if_true]
  case writeDenied =>
    intro fr addr value ans s hport hwrites
    exact State.act_eq_next (Dev.request_beyond hport hwrites _)
  case readBlock =>
    intro fr addr count ans key a l d' s hport hreads haddr hlow hhigh hctl hmay hblock
    have hcount : (decide (count.toNat = 0) || decide (28 < count.toNat)) = false := by
      rw [decide_eq_false (Nat.one_le_iff_ne_zero.mp hlow), decide_eq_false (Nat.not_lt.mpr hhigh), Bool.or_self]
    refine State.act_eq_next ((Dev.request_within hport hreads _).trans ?_)
    simp only [haddr, hcount, hctl, hmay, hblock, Bool.not_true, Bool.or_self, Bool.false_eq_true, if_false]
  case benchEnter =>
    intro fr s hport hbench hmode
    exact State.act_eq_next ((Dev.request_within hport hbench _).trans (if_pos (beq_iff_eq.mpr hmode)))
  case benchLeave =>
    intro fr s hport hbench hmode
    exact State.act_eq_next ((Dev.request_within hport hbench _).trans (if_pos (beq_iff_eq.mpr hmode)))
  case haltIdle =>
    intro fr eng s h hstate
    refine State.act_eq_next ((Dev.engCommand_of_port h _).trans ?_)
    simp only [hstate]
  case haltRunning =>
    intro fr eng s h hstate
    refine State.act_eq_next ((Dev.engCommand_of_port h _).trans ?_)
    simp only [hstate]
  case step =>
    intro fr eng n s h hsteps hstate
    refine State.act_eq_next ((Dev.engCommand_of_port h _).trans ?_)
    simp only [if_neg (Nat.one_le_iff_ne_zero.mp hsteps), hstate, ne_eq, not_true_eq_false, if_false]
  case resumeOn =>
    intro fr eng s h hstate
    refine State.act_eq_next ((Dev.engCommand_of_port h _).trans ?_)
    simp [hstate]
  case resumeEnds =>
    intro fr eng s h hstate
    refine State.act_eq_next ((Dev.engCommand_of_port h _).trans ?_)
    simp [hstate]
  case engRead =>
    intro fr eng off s h halign hrange hstate
    refine State.act_eq_next ((Dev.engCommand_of_port h _).trans ?_)
    simp only [areaOffset_admitted halign hrange, hstate, ne_eq, not_true_eq_false, Bool.false_eq_true, if_false]
  case engWrite =>
    intro fr eng off v s h halign hrange hvalue hstate
    refine State.act_eq_next ((Dev.engCommand_of_port h _).trans ?_)
    simp only [areaOffset_admitted halign hrange, hvalue, hstate, ne_eq, not_true_eq_false, Bool.not_true, Bool.or_self, Bool.false_eq_true, if_false]
  case engWriteState =>
    intro fr eng off v s h halign hrange hvalue hstate
    refine State.act_eq_next ((Dev.engCommand_of_port h _).trans ?_)
    simp only [areaOffset_admitted halign hrange, hvalue, hstate, ne_eq, not_false_eq_true, Bool.not_true, Bool.or_self, Bool.false_eq_true, if_false,
      if_true]
    rfl
  case excHalt =>
    intro fr eng on s h hon
    exact State.act_eq_next ((Dev.engCommand_of_port h _).trans (if_neg (Nat.not_lt.mpr hon)))

end Sys2Proof.Machine
